-- ==== Sys2Proof/Word.lean ====
section
/-! DEFINITION. The words of the machine: bytes, 64-bit words, the requester of an access, and the carried state that a
joining device receives. -/

namespace Sys2Proof

/-- A byte of a memory structure (R6). -/
abbrev Byte := BitVec 8

/-- A 64-bit word. -/
abbrev Word := BitVec 64

/-- The requester of an access (R10): its 9-bit tag and its S/N attribute. -/
structure Req where
  tag : BitVec 9
  s   : Bool
  deriving DecidableEq, Repr

/-- What the live cycle keeps for a tank: last good sounding, temperature and density (R85), the stamp of the last
sounding record that passed checks 1 and 2 (R104), the six table values of the last faultless cycle (R54), and the rate
history h, vp, r (R88). -/
structure Tank where
  snd   : Option Nat := none
  tmp   : Option Nat := none
  den   : Option Nat := none
  stamp : Option Nat := none
  six   : Option (List Nat) := none
  h     : Nat := 0
  vp    : Nat := 0
  r     : Nat := 0
  deriving DecidableEq, Repr

/-- The carried state of adoption (R131). -/
structure Carried where
  epoch   : Nat
  modelId : Nat
  sol     : Option (Nat × Nat × Nat)
  tanks   : List (Nat × Tank)
  prev    : Option (List Byte)
  fails   : Nat
  sfOver  : Nat
  bmOver  : Nat
  pts     : Option (List Byte)
  deriving DecidableEq, Repr

/-- How an access was answered: performed, refused under R14, or with an error response (R18). -/
inductive Status where
  | ok
  | refused
  | error
  deriving DecidableEq, Repr

/-- What met an access to the pool in its FAB cycle (R297): the owner code of the other request's master, whether the
access is the later of the two, the word of the access concerned, counted from its first, and the bytes of that word that
the other request writes (none: it reads). -/
structure Meeting where
  other : Fin 16
  later : Bool
  word  : Nat
  lanes : Option (BitVec 8)
  deriving DecidableEq, Repr

/-- The kind of an outstanding request. -/
inductive ReqKind where
  | read
  | write
  | atomic (op : Nat)
  deriving DecidableEq, Repr

/-- The sender's time, epoch, scheduled times of its latest and next tick, PERIOD_US in force, and PERIOD_US and
CST_TICK_AT registers, as a hello or a time token carries them; `ask` is the epoch whose carried state the sender asks for
(R131). -/
structure LeadInfo where
  stc    : Nat
  epoch  : Nat
  sched  : Nat
  next   : Nat
  period : Nat
  setting : Nat
  at_    : Nat
  ask    : Option Nat
  deriving DecidableEq, Repr

/-- How an I2C transaction ends (R453, R454). -/
inductive BmiEnd where
  | stop (data : List Byte)
  | nackAddr
  | nackData (acked : Nat)
  | stretch (acked : Nat)
  | arbLost (acked : Nat)
  deriving DecidableEq, Repr

end Sys2Proof
end

