-- ==== Sys2Proof/Syntax.lean ====
section
/-! DEFINITION. The commands: one constructor per row of the opcode table. In the operands `q` is the requester of an
access; `v` the value written to the register that the row names, as a whole; `o` an offset in the region; `bs` or `data`
bytes, lowest address first; `n`, `e`, `c` and so on the number of a unit; `port` the Atsobry port a message comes
over, which is its sender's position; `lat` a latency measured outside the model; `t` a Knarn thread and `w` the
instruction word it executes. -/

namespace Sys2Proof

inductive Instr where
  /-- R21: A write to a register with no behaviour of its own takes effect in its island within the block's write
  bound. `o` is the offset in register space; a register with a behaviour of its own shows it. -/
  | registerWrite (q : Req) (o : Nat) (bs : List Byte)
  /-- R29: A write of PROD_IDX to a ring doorbell is accepted or refused with DB_ERR and RING_DB_ERR. `r` numbers the
  rings as in RING_STOP; `p` is the word written. -/
  | doorbellWrite (q : Req) (r : Fin 66) (p : BitVec 32)
  /-- R532: A write of ENABLE to a ring: 0 to 1 zeroes both indices, 1 to 0 requests a stop at the engine's next
  boundary. `r` numbers the rings as in RING_STOP. -/
  | ringEnable (q : Req) (r : Fin 66) (v : BitVec 32)
  /-- R532: A ring whose ENABLE was cleared stops at its engine boundary, abandoning the job in progress without a
  record. `r` numbers the 66 rings: HSE, Squall, write-back, Tradewind, Gale, Ethernet TX and RX. -/
  | ringStop (r : Fin 66)
  /-- R293: A read or write reaching a pool bank port is checked for peer, attribute and owner and then performed.
  `rot` says that it comes through the rotated window; `upset` strikes the first word before the access (1 one bit, 2
  more); `meet` is a request that it met on a word. -/
  | poolAccess (q : Req) (o : BitVec 28) (rot write : Bool) (n : Nat) (bs : List Byte) (upset : Nat) (meet : Option Meeting)
  /-- R301: The scrubber reads and corrects a word in a free port B cycle as its pass proceeds. `upset` strikes the
  word before it; `slow` says that the pass has run longer than PASS_MS. -/
  | scrubRead (upset : Nat) (slow : Bool)
  /-- R302: A pending remap takes a free spare and the bank enters COPYING. -/
  | remapStart
  /-- R302: The copier corrects and copies one word of the bank into the spare on its port B cycle. -/
  | spareCopy
  /-- R302: At the end of the copy the spare takes over address, owner, grants and power group and POOL_REMAP fires.
  -/
  | spareTakeover
  /-- R294: A write to POOL_BANK_OWN_n or POOL_BANK_GRANT_n is admitted or refused and starts a handover. -/
  | bankOwnershipWrite (q : Req) (b : Fin 288) (grant : Bool) (v : BitVec 32)
  /-- R295: After write-back and invalidation, a bank's new owner and grants take effect on one FAB edge. -/
  | handover (b : Fin 288)
  /-- R306: An access to the Nadir vault is admitted only for S requesters. `upset` strikes the first word before it;
  `read` bytes are read, or else `bs` is written. -/
  | nadirAccess (q : Req) (o : Nat) (upset : Nat) (read : Option Nat) (bs : List Byte)
  /-- R307: The Nadir wipe completes and WIPING clears. -/
  | nadirWipeEnd
  /-- R39: A core or Tradewind access to the CTS is admitted under HSE_CTS_ACCESS and completes behind HSE table
  reads. -/
  | ctsAccess (q : Req) (o : Nat) (write : Bool) (n : Nat) (bs : List Byte)
  /-- R69: A write of HSE_MODEL_NEXT.BANK, ignored during validation or arm, otherwise sets VAL_STATE to 0. -/
  | hseModelNextWrite (q : Req) (v : BitVec 32)
  /-- R70: VALIDATE latches BANK and starts model validation in HSE idle slots. -/
  | validate (q : Req) (v : BitVec 32)
  /-- R70: Model validation finishes with VAL_STATE passed or failed and its code and item. -/
  | validationEnd
  /-- R74: RELEASE hands bank BANK to RELEASE_OWNER when no armed or active model uses it. -/
  | release (q : Req) (v : BitVec 32)
  /-- R71: A write of 1 to ARM arms a validated model for the switch at EPOCH. -/
  | arm (q : Req) (v : BitVec 32)
  /-- R72: DISARM cancels an armed switch that has not yet reached the HSE. -/
  | disarm (q : Req) (v : BitVec 32)
  /-- R80: A write of HSE_CTRL.ENABLE starts or stops live cycles at the next cycle boundary. -/
  | hseEnable (q : Req) (v : BitVec 32)
  /-- R106: RESTART makes the next live cycle run as on first use. -/
  | hseRestart (q : Req) (v : BitVec 32)
  /-- R130: The tick of an epoch reaches the HSE once its snapshots and epoch stores have landed or 20 µs have passed.
  -/
  | tickReachesHse
  /-- R77: At the first candidate boundary after the tick the HSE runs steps 1 to 10 of the live cycle. -/
  | liveCycle
  /-- R101: Step 11 writes the result record and tank block in stages and updates HSE_EPOCH. -/
  | publication (lat : Nat)
  /-- R107: COMMIT arms the shadow RHO_SEA and LIMIT_SET for PARAM_EPOCH. -/
  | paramCommit (q : Req)
  /-- R112: The HSE reads a sweep descriptor from a ring and checks it. -/
  | sweepJobStart
  /-- R116: A paced sweep candidate is read, formed and evaluated, and its record written if selected. -/
  | sweepCandidate (lat : Nat)
  /-- R119: A job ends with its job code and its completion record goes to Lull. -/
  | sweepJobEnd
  /-- R121: CANCEL ends the running job and every covered descriptor with code 0x4. -/
  | sweepCancel (q : Req) (n : Fin 4) (v : BitVec 32)
  /-- R110: CAPTURE arms a base slot to be filled by the next publishing live cycle. -/
  | capture (q : Req) (v : BitVec 32)
  /-- R111: CLEAR clears VALID of a base slot at the next candidate boundary. -/
  | clear (q : Req) (v : BitVec 32)
  /-- R111: A write of HSE_BASE_ADDR clears every base slot's VALID. -/
  | baseAddrWrite (q : Req) (v : BitVec 64)
  /-- R123: START queues the known-answer self-test, which begins at a free candidate boundary. -/
  | selftestStart (q : Req)
  /-- R124: One self-test candidate is evaluated and its digest compared; the last ends the test with HSE_SELFTEST. -/
  | selftestCandidate (lat : Nat)
  /-- R131: HSE_ADOPT.ARM starts state adoption from a source at an epoch. -/
  | adoptArm (q : Req) (v : BitVec 32)
  /-- R131: The carried state arrives at the joining device for its next live cycle. -/
  | adoptedStateArrive (c : Carried)
  /-- R126: FORM puts the device in FORMING and starts hello tokens. -/
  | form (q : Req)
  /-- R126: LEAVE returns the device to ALONE and stops its tokens. -/
  | leave (q : Req)
  /-- R126: A matching hello makes its peer LIVE and may complete the group. -/
  | hello (port : Fin 4) (pos : Fin 4) (gid : BitVec 16) (members : BitVec 4) (info : LeadInfo)
  /-- R126: Four seconds after FORM a device not FORMED goes to DEGRADED or FAILED. -/
  | formTimeout
  /-- R128: A time token arrives and the non-leader slews its counter towards the leader. `off` is the measured offset
  to the leader in ns. -/
  | timeToken (port : Fin 4) (off : Int) (info : LeadInfo)
  /-- R127: A link down or 100 µs without a token loses a peer, degrades the group and resets group barriers. -/
  | peerLost (port : Fin 4)
  /-- R129: The system time counter reaches the scheduled time and the epoch advances. -/
  | groupTick
  /-- R133: A peer's digest arrives for a vote or is discarded if the vote closed. -/
  | digestReceive (port : Fin 4) (epoch : BitVec 64) (digest : BitVec 64)
  /-- R133: A vote closes on all digests or the next tick and records its outcome. -/
  | voteClose
  /-- R136: A barrier arrival token from a group member is counted. -/
  | barrierArrival (n : Fin 32) (port : Fin 4)
  /-- R136: TIMEOUT_US passes and every waiting thread is released with result 1. -/
  | barrierTimeout (n : Fin 32)
  /-- R137: GO with KIND 0 broadcasts CST_BCAST_DATA to a mailbox in scope. -/
  | mailboxBroadcast (q : Req) (v : BitVec 32)
  /-- R137: A broadcast arrives, writes the mailbox and fires CST_MAILBOX. -/
  | mailboxReceive (port : Fin 4) (m : Fin 16) (d : BitVec 64)
  /-- R138: GO with KIND 1 sends an epoch store to every LIVE member and itself. -/
  | epochStore (q : Req) (v : BitVec 32)
  /-- R138: An epoch store arrives and is held or refused with NACK. -/
  | epochStoreReceive (port : Fin 4) (q : Req) (epoch : BitVec 64) (a : BitVec 44) (data : List Byte)
  /-- R139: At a tick or publication a snapshot region is copied and its epoch written. -/
  | snapshotCopy (n : Fin 8)
  /-- R139: A write to CST_SNAP_ARM arms mode 2 regions for the next tick. -/
  | snapshotArm (q : Req) (v : BitVec 32)
  /-- R130: Snapshot data from a peer lands, or is discarded and counted if late. -/
  | snapshotDataReceive (port : Fin 4) (q : Req) (a : BitVec 44) (epoch : BitVec 64) (gated : Bool) (data : List Byte)
  /-- R140: CST_RESET_CMD.GO sends a reset request to a LIVE peer. -/
  | resetRequestSend (q : Req) (v : BitVec 32)
  /-- R140: A peer's reset request is accepted into peer reset or refused and counted. -/
  | resetRequestReceive (port : Fin 4)
  /-- R140: A write of CST_RESET_GRANT, frozen by LOCK, sets GRANT and QUORUM. -/
  | resetGrantWrite (q : Req) (v : BitVec 32)
  /-- R149: A write of 1 to ENABLE takes the shadow set and starts scan-out at vertical blanking. -/
  | headEnable (q : Req) (n : Fin 6) (v : BitVec 32)
  /-- R150: A write of 0 to ENABLE requests scan-out to stop at the next vertical blanking. -/
  | headDisable (q : Req) (n : Fin 6) (v : BitVec 32)
  /-- R150: Scan-out stops at the start of vertical blanking and SCANNING clears. -/
  | scanStop (n : Fin 6)
  /-- R146: COMMIT arms the shadow transfer. -/
  | commit (q : Req) (n : Fin 6) (v : BitVec 32)
  /-- R141: The beam reaches the start of vertical blanking and HEAD_VBLANK fires. -/
  | vblankStart (n : Fin 6)
  /-- R144: The beam reaches (0, 0) and HEAD_FRAME advances. -/
  | frameStart (n : Fin 6)
  /-- R153: The head fetches a frame store line through port B before its pixel 0. -/
  | lineFetch (n : Fin 6)
  /-- R158: TRAIN runs DisplayPort link training with HEAD_DP_CFG. -/
  | train (q : Req) (n : Fin 6)
  /-- R158: Link training ends with TRAIN_STATE and HEAD_LINK fires. `answers`: what the sink still answers to the reads
  of its lane status, DPCD 0x202 to 0x207, beside what AUX_REPLY gave. -/
  | trainEnd (n : Fin 6) (answers : List (List Byte))
  /-- R159: GO sends one AUX request. -/
  | auxGo (q : Req) (n : Fin 6) (v : BitVec 32)
  /-- R159: An AUX reply, malformed reply or 400 µs timeout ends the request. `kind`: 0 a reply `code` with `data`, 1
  a malformed reply, 2 the timeout. -/
  | auxReply (n : Fin 6) (kind : Nat) (code : BitVec 4) (data : List Byte)
  /-- R160: A low HPD pulse of 250 µs to 2 ms while PLUGGED sets IRQ_EVT. -/
  | hpdIrq (n : Fin 6)
  /-- R160: HPD low for 2 ms clears PLUGGED, idles the lanes and sets UNPLUG_EVT. -/
  | hpdUnplug (n : Fin 6)
  /-- R160: HPD high for 2 ms while unplugged sets PLUGGED and PLUG_EVT. -/
  | hpdPlug (n : Fin 6)
  /-- R189: At a frame boundary Meridian samples its control and starts the selected program. -/
  | meridianFrameStart (n : Fin 6)
  /-- R191: WAIT closes the group or completes, depending on its target. -/
  | merWait (n : Fin 6)
  /-- R191: The composition beam reaches a WAIT target and the next group opens. -/
  | merWaitReached (n : Fin 6)
  /-- R193: MOVE writes a half of a raster-time register at the group stamp. -/
  | merMove (n : Fin 6)
  /-- R193: MOVEB writes its data words to consecutive raster-time registers. -/
  | merMoveb (n : Fin 6)
  /-- R192: SKIP skips the next instruction by the stamp's position. -/
  | merSkip (n : Fin 6)
  /-- R192: JUMP continues at word TARGET. -/
  | merJump (n : Fin 6)
  /-- R194: EVENT fires a Breeze channel as owner code 9. -/
  | merEvent (n : Fin 6)
  /-- R194: SYNC closes the group and waits for a Breeze pulse. -/
  | merSync (n : Fin 6)
  /-- R194: The awaited pulse arrives and the next group opens at the composition beam. -/
  | merSyncPulse (n : Fin 6)
  /-- R192: END, or an unknown type code, fetch error or fetch beyond word 4,095, ends the program for the frame. -/
  | merEnd (n : Fin 6)
  /-- R200: The composer builds a head's line from the layer stack once allowed by LEAD. -/
  | lineCompose (n : Fin 6)
  /-- R202: A composed line is committed to the frame store through port A. `drained`: how many lines of the write-back
  queue have been written by then (R217). -/
  | lineCommit (n : Fin 6) (drained : Nat)
  /-- R203: A line not complete at its cut-off is discarded, counted and HEAD_LATE fires. -/
  | lineLate (n : Fin 6)
  /-- R211: In free time the composer flattens an INVALID tile into a slot. -/
  | flattenTile
  /-- R210: A write of FC_EN enables the flatten cache or invalidates every tile. -/
  | fcEn (q : Req) (v : BitVec 32)
  /-- R216: At a qualifying frame boundary the composer takes a write-back descriptor. -/
  | wbCaptureStart (n : Fin 6)
  /-- R218: The capture ends and its completion record goes to Lull. -/
  | wbComplete (n : Fin 6)
  /-- R223: After a region's last pixel Starfix writes its CRC and applies the fixed or live check. -/
  | regionCheck (n : Fin 6) (r : Fin 16)
  /-- R224: A write to HEAD_SF_LEARN arms learning of a region's expected value. -/
  | learn (q : Req) (n : Fin 6) (v : BitVec 32)
  /-- R225: After the last active pixel Starfix compares AL_CRC with AL_EXP. -/
  | alarmCheck (n : Fin 6)
  /-- R227: Squall reads a ring descriptor and starts its command list. -/
  | squallListStart
  /-- R232: NOP completes without any access. -/
  | sqlNop
  /-- R236: COPY moves pixels span by span in the set direction. -/
  | sqlCopy
  /-- R233: FILL writes COLOUR to every destination pixel. -/
  | sqlFill
  /-- R235: BLEND composites source over destination by premultiplied over. -/
  | sqlBlend
  /-- R233: EXPAND writes COLOUR or COLOUR2 for each G1 source bit. -/
  | sqlExpand
  /-- R234: CONVERT unpacks each source pixel and packs it in DST_FMT. -/
  | sqlConvert
  /-- R239: A list ends with its status and its completion record goes to Lull. -/
  | squallListEnd
  /-- R238: CANCEL ends the ring's list and covered descriptors with status 0x4. -/
  | squallCancel (q : Req) (n : Fin 4) (v : BitVec 32)
  /-- R248: ADD writes A + B and sets C and V. -/
  | add (t : Fin 64) (w : BitVec 32)
  /-- R248: SUB writes A − B and sets C and V. -/
  | sub (t : Fin 64) (w : BitVec 32)
  /-- R248: ADC adds with carry. -/
  | adc (t : Fin 64) (w : BitVec 32)
  /-- R248: SBC subtracts with carry. -/
  | sbc (t : Fin 64) (w : BitVec 32)
  /-- R250: NEG writes 0 − A. -/
  | neg (t : Fin 64) (w : BitVec 32)
  /-- R248: ADDS writes the signed saturating sum. -/
  | adds (t : Fin 64) (w : BitVec 32)
  /-- R248: SUBS writes the signed saturating difference. -/
  | subs (t : Fin 64) (w : BitVec 32)
  /-- R248: ADDUS writes the unsigned saturating sum. -/
  | addus (t : Fin 64) (w : BitVec 32)
  /-- R248: SUBUS writes the unsigned saturating difference. -/
  | subus (t : Fin 64) (w : BitVec 32)
  /-- R248: AND writes the bitwise and. -/
  | and (t : Fin 64) (w : BitVec 32)
  /-- R248: OR writes the bitwise or. -/
  | or (t : Fin 64) (w : BitVec 32)
  /-- R248: XOR writes the bitwise exclusive or. -/
  | xor (t : Fin 64) (w : BitVec 32)
  /-- R248: ANDN writes A and not B. -/
  | andn (t : Fin 64) (w : BitVec 32)
  /-- R250: SLL shifts left by the whole value of B. -/
  | sll (t : Fin 64) (w : BitVec 32)
  /-- R250: SRL shifts right logically. -/
  | srl (t : Fin 64) (w : BitVec 32)
  /-- R250: SRA shifts right arithmetically. -/
  | sra (t : Fin 64) (w : BitVec 32)
  /-- R248: MUL writes the low 64 bits of the product. -/
  | mul (t : Fin 64) (w : BitVec 32)
  /-- R248: MULH writes the high 64 bits of the signed product. -/
  | mulh (t : Fin 64) (w : BitVec 32)
  /-- R248: MULHU writes the high 64 bits of the unsigned product. -/
  | mulhu (t : Fin 64) (w : BitVec 32)
  /-- R250: DIV writes the signed quotient, with DZ and V cases. -/
  | div (t : Fin 64) (w : BitVec 32)
  /-- R250: DIVU writes the unsigned quotient. -/
  | divu (t : Fin 64) (w : BitVec 32)
  /-- R250: REM writes the signed remainder. -/
  | rem (t : Fin 64) (w : BitVec 32)
  /-- R250: REMU writes the unsigned remainder. -/
  | remu (t : Fin 64) (w : BitVec 32)
  /-- R248: SLT writes 1 if A < B signed. -/
  | slt (t : Fin 64) (w : BitVec 32)
  /-- R248: SLTU writes 1 if A < B unsigned. -/
  | sltu (t : Fin 64) (w : BitVec 32)
  /-- R248: MIN writes the signed minimum. -/
  | min (t : Fin 64) (w : BitVec 32)
  /-- R248: MAX writes the signed maximum. -/
  | max (t : Fin 64) (w : BitVec 32)
  /-- R248: MINU writes the unsigned minimum. -/
  | minu (t : Fin 64) (w : BitVec 32)
  /-- R248: MAXU writes the unsigned maximum. -/
  | maxu (t : Fin 64) (w : BitVec 32)
  /-- R248: CLZ counts leading zeros. -/
  | clz (t : Fin 64) (w : BitVec 32)
  /-- R248: CTZ counts trailing zeros. -/
  | ctz (t : Fin 64) (w : BitVec 32)
  /-- R248: POPC counts ones. -/
  | popc (t : Fin 64) (w : BitVec 32)
  /-- R248: SEXTB sign-extends the low byte. -/
  | sextb (t : Fin 64) (w : BitVec 32)
  /-- R248: SEXTH sign-extends the low halfword. -/
  | sexth (t : Fin 64) (w : BitVec 32)
  /-- R248: SEXTW sign-extends the low 32 bits. -/
  | sextw (t : Fin 64) (w : BitVec 32)
  /-- R248: ZEXTW zero-extends the low 32 bits. -/
  | zextw (t : Fin 64) (w : BitVec 32)
  /-- R251: ADDI adds a sign-extended immediate and sets C and V. -/
  | addi (t : Fin 64) (w : BitVec 32)
  /-- R251: ANDI ands a zero-extended immediate. -/
  | andi (t : Fin 64) (w : BitVec 32)
  /-- R251: ORI ors a zero-extended immediate. -/
  | ori (t : Fin 64) (w : BitVec 32)
  /-- R251: XORI exclusive-ors a zero-extended immediate. -/
  | xori (t : Fin 64) (w : BitVec 32)
  /-- R251: SLTI compares with a signed immediate. -/
  | slti (t : Fin 64) (w : BitVec 32)
  /-- R251: SLTIU compares unsigned with a sign-extended immediate. -/
  | sltiu (t : Fin 64) (w : BitVec 32)
  /-- R251: SLLI shifts left by an immediate. -/
  | slli (t : Fin 64) (w : BitVec 32)
  /-- R251: SRLI shifts right logically by an immediate. -/
  | srli (t : Fin 64) (w : BitVec 32)
  /-- R251: SRAI shifts right arithmetically by an immediate. -/
  | srai (t : Fin 64) (w : BitVec 32)
  /-- R251: IMMS writes a sign-extended immediate moved up by 16k bits. -/
  | imms (t : Fin 64) (w : BitVec 32)
  /-- R251: IMMI replaces one halfword of wD with the immediate. -/
  | immi (t : Fin 64) (w : BitVec 32)
  /-- R251: ADDPC writes PC plus a scaled immediate. -/
  | addpc (t : Fin 64) (w : BitVec 32)
  /-- R252: LDB loads a sign-extended byte through a segment. -/
  | ldb (t : Fin 64) (w : BitVec 32)
  /-- R252: LDBU loads a zero-extended byte. -/
  | ldbu (t : Fin 64) (w : BitVec 32)
  /-- R252: LDH loads a sign-extended halfword. -/
  | ldh (t : Fin 64) (w : BitVec 32)
  /-- R252: LDHU loads a zero-extended halfword. -/
  | ldhu (t : Fin 64) (w : BitVec 32)
  /-- R252: LDW loads a sign-extended 32-bit word. -/
  | ldw (t : Fin 64) (w : BitVec 32)
  /-- R252: LDWU loads a zero-extended 32-bit word. -/
  | ldwu (t : Fin 64) (w : BitVec 32)
  /-- R252: LDD loads 64 bits. -/
  | ldd (t : Fin 64) (w : BitVec 32)
  /-- R252: STB stores the low byte. -/
  | stb (t : Fin 64) (w : BitVec 32)
  /-- R252: STH stores the low halfword. -/
  | sth (t : Fin 64) (w : BitVec 32)
  /-- R252: STW stores the low 32 bits. -/
  | stw (t : Fin 64) (w : BitVec 32)
  /-- R252: STD stores 64 bits. -/
  | std (t : Fin 64) (w : BitVec 32)
  /-- R253: SWAP atomically exchanges memory with wB. -/
  | swap (t : Fin 64) (w : BitVec 32)
  /-- R253: AADD atomically adds wB to memory. -/
  | aadd (t : Fin 64) (w : BitVec 32)
  /-- R253: AAND atomically ands wB into memory. -/
  | aand (t : Fin 64) (w : BitVec 32)
  /-- R253: AOR atomically ors wB into memory. -/
  | aor (t : Fin 64) (w : BitVec 32)
  /-- R253: AXOR atomically exclusive-ors wB into memory. -/
  | axor (t : Fin 64) (w : BitVec 32)
  /-- R253: CAS atomically compares with wD and writes wB on equality. -/
  | cas (t : Fin 64) (w : BitVec 32)
  /-- R254: BEQ branches when wA equals wB. -/
  | beq (t : Fin 64) (w : BitVec 32)
  /-- R254: BNE branches when wA differs from wB. -/
  | bne (t : Fin 64) (w : BitVec 32)
  /-- R254: BLT branches on signed less than. -/
  | blt (t : Fin 64) (w : BitVec 32)
  /-- R254: BGE branches on signed greater or equal. -/
  | bge (t : Fin 64) (w : BitVec 32)
  /-- R254: BLTU branches on unsigned less than. -/
  | bltu (t : Fin 64) (w : BitVec 32)
  /-- R254: BGEU branches on unsigned greater or equal. -/
  | bgeu (t : Fin 64) (w : BitVec 32)
  /-- R254: J jumps to PC plus an offset. -/
  | j (t : Fin 64) (w : BitVec 32)
  /-- R254: CALL pushes the return offset and jumps. -/
  | call (t : Fin 64) (w : BitVec 32)
  /-- R255: JR jumps to wA after checking the target. -/
  | jr (t : Fin 64) (w : BitVec 32)
  /-- R255: CALLR pushes the return offset and jumps to wA. -/
  | callr (t : Fin 64) (w : BitVec 32)
  /-- R255: RET pops the return offset and jumps to it. -/
  | ret (t : Fin 64) (w : BitVec 32)
  /-- R255: PUSH stores wA on the sg7 stack. -/
  | push (t : Fin 64) (w : BitVec 32)
  /-- R255: POP loads wD from the sg7 stack. -/
  | pop (t : Fin 64) (w : BitVec 32)
  /-- R256: NOP does nothing. -/
  | nop (t : Fin 64) (w : BitVec 32)
  /-- R257: SGSET loads a segment register after its checks. -/
  | sgset (t : Fin 64) (w : BitVec 32)
  /-- R256: SGGETB reads a segment's B word. -/
  | sggetb (t : Fin 64) (w : BitVec 32)
  /-- R256: SGGETL reads a segment's L word. -/
  | sggetl (t : Fin 64) (w : BitVec 32)
  /-- R257: SGSUB makes a sub-segment of sg[SGX] after its checks. -/
  | sgsub (t : Fin 64) (w : BitVec 32)
  /-- R241: MFS reads a system register at its permitted level. -/
  | mfs (t : Fin 64) (w : BitVec 32)
  /-- R241: MTS writes a system register at its permitted level. -/
  | mts (t : Fin 64) (w : BitVec 32)
  /-- R256: TRAP takes the SYSCALL trap with a code. -/
  | trap (t : Fin 64) (w : BitVec 32)
  /-- R256: BRK takes the BREAK trap with a code. -/
  | brk (t : Fin 64) (w : BitVec 32)
  /-- R260: TRET restores the saved state and returns from a trap. -/
  | tret (t : Fin 64) (w : BitVec 32)
  /-- R287: FENCE orders the predecessor set before the successor set. -/
  | fence (t : Fin 64) (w : BitVec 32)
  /-- R256: IFENCE makes later fetches see earlier stores. -/
  | ifence (t : Fin 64) (w : BitVec 32)
  /-- R256: WFI waits until an interrupt is pending or a wake request arrives. -/
  | wfi (t : Fin 64) (w : BitVec 32)
  /-- R290: An interrupt or wake request ends a WFI wait. -/
  | wfiWake (t : Fin 64)
  /-- R246: An illegal instruction word takes the ILLEGAL trap. -/
  | illegalInstruction (t : Fin 64) (w : BitVec 32)
  /-- R262: A pending Lull interrupt is taken between instructions. -/
  | interruptTaken (t : Fin 64)
  /-- R263: An error response to a store returns and takes an imprecise bus-error trap. -/
  | storeBusError (t : Fin 64)
  /-- R267: VADD adds vector lanes. -/
  | vadd (t : Fin 64) (w : BitVec 32)
  /-- R267: VSUB subtracts vector lanes. -/
  | vsub (t : Fin 64) (w : BitVec 32)
  /-- R267: VMUL multiplies vector lanes. -/
  | vmul (t : Fin 64) (w : BitVec 32)
  /-- R267: VDIV divides vector lanes. -/
  | vdiv (t : Fin 64) (w : BitVec 32)
  /-- R267: VSQRT takes lane square roots. -/
  | vsqrt (t : Fin 64) (w : BitVec 32)
  /-- R267: VMIN takes lane minima. -/
  | vmin (t : Fin 64) (w : BitVec 32)
  /-- R267: VMAX takes lane maxima. -/
  | vmax (t : Fin 64) (w : BitVec 32)
  /-- R267: VABS clears lane sign bits. -/
  | vabs (t : Fin 64) (w : BitVec 32)
  /-- R267: VNEG inverts lane sign bits. -/
  | vneg (t : Fin 64) (w : BitVec 32)
  /-- R267: VCMPEQ compares lanes for equality. -/
  | vcmpeq (t : Fin 64) (w : BitVec 32)
  /-- R267: VCMPLT compares lanes for less than. -/
  | vcmplt (t : Fin 64) (w : BitVec 32)
  /-- R267: VCMPLE compares lanes for less or equal. -/
  | vcmple (t : Fin 64) (w : BitVec 32)
  /-- R267: VSEL selects lanes by a mask. -/
  | vsel (t : Fin 64) (w : BitVec 32)
  /-- R267: VCVTW converts binary32 to binary64. -/
  | vcvtw (t : Fin 64) (w : BitVec 32)
  /-- R267: VCVTN converts binary64 to binary32. -/
  | vcvtn (t : Fin 64) (w : BitVec 32)
  /-- R267: VCVTIF converts integers to floating point. -/
  | vcvtif (t : Fin 64) (w : BitVec 32)
  /-- R267: VCVTFI converts floating point to integers with saturation. -/
  | vcvtfi (t : Fin 64) (w : BitVec 32)
  /-- R267: VLD loads 32 bytes into a vector register. -/
  | vld (t : Fin 64) (w : BitVec 32)
  /-- R267: VST stores 32 bytes from a vector register. -/
  | vst (t : Fin 64) (w : BitVec 32)
  /-- R267: VINS inserts wA into one lane. -/
  | vins (t : Fin 64) (w : BitVec 32)
  /-- R267: VEXT extracts one lane into wD. -/
  | vext (t : Fin 64) (w : BitVec 32)
  /-- R267: VBCAST copies wA into every lane. -/
  | vbcast (t : Fin 64) (w : BitVec 32)
  /-- R267: VHSUM sums the lanes in fixed order. -/
  | vhsum (t : Fin 64) (w : BitVec 32)
  /-- R267: VDOT forms the dot product in fixed order. -/
  | vdot (t : Fin 64) (w : BitVec 32)
  /-- R267: VSTAT reads and optionally clears the vector status flags. -/
  | vstat (t : Fin 64) (w : BitVec 32)
  /-- R268: HQLATCH latches the last published epoch. -/
  | hqlatch (t : Fin 64) (w : BitVec 32)
  /-- R268: HQREAD reads a word of the latched record through the HSE. -/
  | hqread (t : Fin 64) (w : BitVec 32)
  /-- R268: HQSTAT returns and clears STALE and RANGE. -/
  | hqstat (t : Fin 64) (w : BitVec 32)
  /-- R269: WAITBEAM waits on a head's composition or scan-out beam. -/
  | waitbeam (t : Fin 64) (w : BitVec 32)
  /-- R290: The beam reaches its target or scanning stops and WAITBEAM returns. -/
  | waitbeamEnd (t : Fin 64)
  /-- R270: BARRIER arrives at a Constellation barrier and waits. -/
  | barrier (t : Fin 64) (w : BitVec 32)
  /-- R136: A barrier generation completes or resets and its waiting threads are released. -/
  | barrierRelease (n : Fin 32)
  /-- R271: SNAPSHOT arms the named snapshot regions. -/
  | snapshot (t : Fin 64) (w : BitVec 32)
  /-- R271: EPOCH reads CST_EPOCH in one sample. -/
  | epoch (t : Fin 64) (w : BitVec 32)
  /-- R272: FLD loads a 72-byte field element. -/
  | fld (t : Fin 64) (w : BitVec 32)
  /-- R272: FST stores a 72-byte field element. -/
  | fst (t : Fin 64) (w : BitVec 32)
  /-- R272: FADD adds modulo p. -/
  | fadd (t : Fin 64) (w : BitVec 32)
  /-- R272: FSUB subtracts modulo p. -/
  | fsub (t : Fin 64) (w : BitVec 32)
  /-- R272: FMUL multiplies modulo p. -/
  | fmul (t : Fin 64) (w : BitVec 32)
  /-- R272: FSQR squares modulo p. -/
  | fsqr (t : Fin 64) (w : BitVec 32)
  /-- R272: FSEL conditionally copies a field register. -/
  | fsel (t : Fin 64) (w : BitVec 32)
  /-- R272: FZERO tests a field element for zero. -/
  | fzero (t : Fin 64) (w : BitVec 32)
  /-- R272: FMOVW moves a general register into a field register. -/
  | fmovw (t : Fin 64) (w : BitVec 32)
  /-- R272: SIG0 computes SHA-512 sigma 0. -/
  | sig0 (t : Fin 64) (w : BitVec 32)
  /-- R272: SIG1 computes SHA-512 sigma 1. -/
  | sig1 (t : Fin 64) (w : BitVec 32)
  /-- R272: SUM0 computes SHA-512 Sigma 0. -/
  | sum0 (t : Fin 64) (w : BitVec 32)
  /-- R272: SUM1 computes SHA-512 Sigma 1. -/
  | sum1 (t : Fin 64) (w : BitVec 32)
  /-- R272: CH computes the SHA-512 choose function. -/
  | ch (t : Fin 64) (w : BitVec 32)
  /-- R272: MAJ computes the SHA-512 majority function. -/
  | maj (t : Fin 64) (w : BitVec 32)
  /-- R291: START loads a thread's registers and starts it. -/
  | threadStart (q : Req) (t : Fin 64) (v : BitVec 32)
  /-- R291: STOP halts a thread at its next instruction boundary. -/
  | threadStop (q : Req) (t : Fin 64) (v : BitVec 32)
  /-- R284: FLUSH writes back and invalidates a cluster's L1D and L2. -/
  | flush (q : Req) (c : Fin 8) (v : BitVec 32)
  /-- R308: An engine's divider interval expires and the engine takes a step. -/
  | gstStep (e : Fin 64)
  /-- R314: SHIFT moves bits between a shift register and pins, counters or nothing. -/
  | gstShift (e : Fin 64)
  /-- R311: DRIVE writes OUT_VAL or OUT_EN positions. -/
  | gstDrive (e : Fin 64)
  /-- R316: AWAIT stalls until a pin level, Breeze pulse or counter condition holds. -/
  | gstAwait (e : Fin 64)
  /-- R311: BRANCH tests a condition, optionally decrements a counter and branches. -/
  | gstBranch (e : Fin 64)
  /-- R311: COUNT loads, decrements or copies a counter. -/
  | gstCount (e : Fin 64)
  /-- R317: XFER pushes to the RX FIFO or pulls from the TX FIFO. -/
  | gstXfer (e : Fin 64)
  /-- R318: SIGNAL fires a Breeze channel as owner code 12. -/
  | gstSignal (e : Fin 64)
  /-- R319: STAMP takes the system time into STAMP_LATCH or the RX FIFO. -/
  | gstStamp (e : Fin 64)
  /-- R320: CHECK builds a sample record with its CRC-16 and pushes it. -/
  | gstCheck (e : Fin 64)
  /-- R312: An illegal instruction halts the engine and fires GST_FAULT. -/
  | gstIllegal (e : Fin 64)
  /-- R309: A stalled instruction completes at the first step at which it can. -/
  | gstStallComplete (e : Fin 64)
  /-- R329: A write of ENABLE starts or freezes an engine. -/
  | gstEnable (q : Req) (e : Fin 64) (v : BitVec 32)
  /-- R329: RESTART resets an engine's PC and registers. -/
  | gstRestart (q : Req) (e : Fin 64) (v : BitVec 32)
  /-- R329: FIFO_CLR empties both FIFOs on one edge. -/
  | fifoClr (q : Req) (e : Fin 64) (v : BitVec 32)
  /-- R308: DIV_RESTART sets the step counter to 0 at the next step. -/
  | divRestart (q : Req) (e : Fin 64) (v : BitVec 32)
  /-- R329: GST_START starts the named engines on one edge. -/
  | gstStart (q : Req) (m : BitVec 64)
  /-- R329: GST_STOP clears ENABLE of the named engines on one edge. -/
  | gstStop (q : Req) (m : BitVec 64)
  /-- R327: A write to GST_ENG_TXF pushes words to the TX FIFO. -/
  | gstTxfWrite (q : Req) (e : Fin 64) (ws : List (BitVec 32))
  /-- R327: A read of GST_ENG_RXF pops words from the RX FIFO. -/
  | gstRxfRead (q : Req) (e : Fin 64) (n : Nat)
  /-- R326: A write to a program store word takes effect on one edge. -/
  | gstProgWrite (q : Req) (g : Fin 16) (j : Fin 64) (v : BitVec 32)
  /-- R340: A masked write to an output or enable register changes the admitted pin bits. -/
  | gpioOutWrite (q : Req) (j : Fin 32) (v : BitVec 32)
  /-- R346: A write of GPIO_PIN_CFG switches a pin's function, drive or pull on one edge. -/
  | pinCfgWrite (q : Req) (p : Fin 256) (v : BitVec 32)
  /-- R342: The key sequence on GPIO_PIN_LOCK locks a pin's set-up. One write of the sequence. -/
  | pinLock (q : Req) (p : Fin 256) (key : BitVec 16)
  /-- R344: A pin's detector sees its edge or level and sets its status bit. `level` is the level that the board
  drives at the pad, if it drives one. -/
  | pinDetect (p : Fin 256) (level : Option Bool)
  /-- R339: A bank supply crosses its power-good threshold and PG follows. -/
  | vddioChange (k : Fin 8) (good : Bool)
  /-- R354: A source pulse arrives at a Breeze channel and passes or fails its gate. `src` is the code of the source. -/
  | sourceEvent (c : Fin 256) (src : Fin 1024)
  /-- R353: A Breeze channel emits its pulse two cycles after a passed event. -/
  | channelPulse (c : Fin 256)
  /-- R357: A held event is emitted when the spacing window allows. -/
  | heldEmit (c : Fin 256)
  /-- R356: A write to BRZ_FIRE places a direct fire at a channel. `rest` is what is written to its reserved bits. -/
  | brzFire (q : Req) (c : Fin 256) (rest : BitVec 24)
  /-- R360: A watched channel's pulse reaches a task input and is taken or dropped as OVERRUN. The input is 32 × g + k: `g` is the
  group of 32 in the table of R361, `k` the number in it. -/
  | taskInputEvent (g : Fin 8) (k : Fin 32)
  /-- R368: ARM restarts a timer channel's count. -/
  | timArm (q : Req) (c : Fin 32) (v : BitVec 32)
  /-- R366: STOP ends a channel's count. -/
  | timStop (q : Req) (c : Fin 32) (v : BitVec 32)
  /-- R366: CAPTURE copies the count into CAPT. -/
  | timCapture (q : Req) (c : Fin 32) (v : BitVec 32)
  /-- R366: A prescaler interval expires and the count advances. -/
  | timTick (c : Fin 32)
  /-- R372: SET loads the system time counter while ALONE. -/
  | set (q : Req)
  /-- R379: A producer's completion or error record is offered to a queue and accepted or refused. -/
  | lullCompletion (unit : Fin 16) (index : BitVec 16)
  /-- R378: Lull writes a record's payload, then its header, then advances PROD_IDX. -/
  | lullRecordWrite (n : Fin 64)
  /-- R384: RESUME clears HALTED and rewrites the failed record. -/
  | lulResume (q : Req) (n : Fin 64) (v : BitVec 32)
  /-- R380: A write of CONS_IDX advances it or sets CONS_ERR; an emptied queue deasserts. -/
  | consIdxWrite (q : Req) (n : Fin 64) (v : BitVec 32)
  /-- R387: The record count or CO_TIME releases the queue's interrupt. -/
  | coalesceRelease (n : Fin 64)
  /-- R386: A write of LUL_EVT_MAP enables or masks an event input. -/
  | evtMapWrite (q : Req) (j : Fin 64) (v : BitVec 32)
  /-- R391: A Tradewind channel reads a descriptor and starts its transfer. -/
  | twdTransferStart (c : Fin 32)
  /-- R395: A channel moves one piece of up to 64 bytes at its access slot. `rst`, `rdata` and `wst` are what a read
  and a write outside the device would be answered. -/
  | twdPiece (rst : Status) (rdata : List Byte) (wst : Status)
  /-- R400: A paced element use starts on its request. -/
  | twdPacedUse (c : Fin 32)
  /-- R403: A transfer completes and its record goes to Lull. -/
  | twdComplete (c : Fin 32)
  /-- R404: CANCEL ends the channel's transfer at an element boundary. -/
  | twdCancel (q : Req) (c : Fin 32) (v : BitVec 32)
  /-- R406: Once every channel has stopped, one error record is written. -/
  | twdErrorRecord
  /-- R407: RESUME continues a halted channel from its stopped element. -/
  | twdResume (q : Req) (c : Fin 32)
  /-- R407: ABORT ends a halted transfer with status 0x3. -/
  | twdAbort (q : Req) (c : Fin 32)
  /-- R405: A write of 0 to COUNT also clears TWD_ERR_ADDR and CAUSE. -/
  | twdErrCountClear (q : Req)
  /-- R409: A write of GAL_CTRL.ENABLE starts or stops frame processing. -/
  | galEnable (q : Req) (v : BitVec 32)
  /-- R410: Every 512 AUD cycles Gale processes one sample frame. `words` are the TDM words of the wire frame before;
  `late` names the streams whose reads have not returned. -/
  | sampleFrame (words : List (BitVec 32)) (late : BitVec 16)
  /-- R413: KEY_ON gives a tone channel a start action. -/
  | keyOn (q : Req) (c : Fin 32)
  /-- R413: KEY_OFF gives a tone channel a stop action. -/
  | keyOff (q : Req) (c : Fin 32)
  /-- R417: A write of TARGET sets a node's endpoint unless XP_HOLD is 1. -/
  | xpTargetWrite (q : Req) (o : Fin 32) (j : Fin 64) (v : BitVec 32)
  /-- R417: XP_HOLD changing to 0 starts every pending ramp together. -/
  | xpHoldRelease (q : Req) (v : BitVec 32)
  /-- R419: A coefficient write to an active section makes two frames undefined and resets its state. -/
  | bqCoefWrite (q : Req) (k : Fin 256) (j : Fin 5) (v : BitVec 32)
  /-- R418: CLEAR zeroes a section's state. -/
  | bqClear (q : Req) (k : Fin 256) (v : BitVec 32)
  /-- R425: A buffer completes and its record goes to Lull. -/
  | galBufferComplete (n : Fin 16)
  /-- R427: CANCEL ends the stream's buffer at the next frame with status 0x1. -/
  | galCancel (q : Req) (n : Fin 16) (v : BitVec 32)
  /-- R436: LINK_EN starts training of a CXL link. -/
  | cxlLinkEn (q : Req) (p : Fin 2) (v : BitVec 32)
  /-- R432: A CXL link finishes training up or failed. `width`: 1 x2, 2 x4, 3 x8, 0 failed. -/
  | cxlLinkUp (p : Fin 2) (width : Fin 4)
  /-- R435: A write of 1 to MEM_EN turns on decoding or sets CFG_ERR. -/
  | memEn (q : Req) (p : Fin 2) (v : BitVec 32)
  /-- R433: A configuration or MMIO access is sent to the device. -/
  | cxlConfigAccess (q : Req) (kind : ReqKind) (o : BitVec 28) (n : Nat) (data : List Byte)
  /-- R434: A CXL memory access is decoded to a port and performed. `o` is the offset in CXL memory. -/
  | cxlMemoryAccess (q : Req) (kind : ReqKind) (o : BitVec 40) (n : Nat) (data : List Byte)
  /-- R436: A CXL link goes down and outstanding requests get error responses. -/
  | cxlLinkLost (p : Fin 2)
  /-- R437: EN starts Atsobry training. -/
  | atsEn (q : Req) (n : Fin 4) (v : BitVec 32)
  /-- R525: RETRAIN takes an Atsobry link down and trains again. -/
  | retrain (q : Req) (n : Fin 4) (v : BitVec 32)
  /-- R437: Training completes and the port comes up on four or three lanes. `pass` names the lanes that pass. -/
  | atsTrainDone (n : Fin 4) (pass : BitVec 5)
  /-- R438: An active or spare lane loses lock or exceeds its budget. `symbols` were corrected on the lane within 1
  ms; none says that it lost lock. -/
  | laneFail (n : Fin 4) (l : Fin 5) (symbols : Option Nat)
  /-- R439: An uncorrectable codeword is sent again. `corrected` codewords before it; `failed` replays of it in a row.
  -/
  | codewordReplay (n : Fin 4) (corrected : Nat) (failed : Nat)
  /-- R437: An Atsobry link goes down and returns to training. -/
  | atsLinkLost (n : Fin 4)
  /-- R441: A peer window access is sent over an Atsobry port. -/
  | peerWindowRequest (q : Req) (kind : ReqKind) (port : Fin 4) (o : BitVec 28) (n : Nat) (data : List Byte)
  /-- R20: A peer's request arrives and is checked and performed locally. `o` is the offset in this device's pool. -/
  | peerRequestReceive (port : Fin 4) (q : Req) (kind : ReqKind) (o : BitVec 28) (n : Nat) (data : List Byte)
  /-- R442: EN starts an Ethernet MAC with its SPEED and FEC. -/
  | ethEn (q : Req) (e : Fin 2) (v : BitVec 32)
  /-- R444: A MAC sends a TX descriptor's frame and writes its completion. -/
  | frameTransmit (e : Fin 2)
  /-- R444: A frame arrives and is checked, ruled and written to the RX ring. -/
  | frameReceive (e : Fin 2) (frame : List Byte)
  /-- R449: The system time reaches TIME and ETH_PPS goes high. -/
  | ppsPulse (e : Fin 2)
  /-- R449: After 1,000 SYS cycles ETH_PPS goes low. -/
  | ppsPulseEnd (e : Fin 2)
  /-- R450: GO runs one MDIO frame. -/
  | mdioGo (q : Req) (e : Fin 2) (v : BitVec 32)
  /-- R450: An MDIO frame ends. -/
  | mdioDone (data : BitVec 16)
  /-- R452: GO runs one flash command. -/
  | xspiGo (q : Req) (v : BitVec 32)
  /-- R452: A flash command ends or times out. `timeout` says that the data strobe stopped. -/
  | xspiDone (data : List Byte) (timeout : Bool)
  /-- R453: GO runs one I2C transaction, with bus recovery first if needed. `sdaLow` says that SDA is held low. -/
  | bmiGo (q : Req) (n : Fin 2) (v : BitVec 32) (sdaLow : Bool)
  /-- R453: An I2C transaction ends, by STOP, NACK, stretch timeout or lost arbitration. -/
  | bmiDone (n : Fin 2) (how : BmiEnd)
  /-- R455: A write of DBGU_DATA pushes a byte to the transmit FIFO. -/
  | dbguTxWrite (q : Req) (b : Byte)
  /-- R455: A read of DBGU_DATA pops a received byte. -/
  | dbguRxRead (q : Req)
  /-- R455: A byte arrives on DBG_RXD into the receive FIFO. `noStop` says that it had no stop bit. -/
  | uartByteReceived (b : Byte) (noStop : Bool)
  /-- R455: A byte leaves the transmit FIFO on DBG_TXD. -/
  | uartByteSent
  /-- R464: VERIFY checks an image in memory and extends the measurement. -/
  | verify
  /-- R474: ATTEST writes a signed attestation report. -/
  | attest
  /-- R471: REVOKE moves the root key to the next slot. `fail` names the burn that fails. -/
  | revoke (fail : Option Nat)
  /-- R469: PROVISION burns slot 0, the identity and the PROVISIONED state. `fail` names the burn that fails. -/
  | provision (fail : Option Nat)
  /-- R468: TO_FIELD burns the life cycle to FIELD. `fail` names the burn that fails. -/
  | toField (fail : Option Nat)
  /-- R468: TO_RETURN burns the life cycle to RETURN on an authorised record. `fail` names the burn that fails. -/
  | toReturn (fail : Option Nat)
  /-- R479: CHALLENGE fills the challenge registers with fresh random bytes. -/
  | challenge
  /-- R479: DEBUG_UNLOCK checks a debug record, wipes Nadir and opens interfaces. -/
  | debugUnlock
  /-- R472: SVN_COMMIT raises the OTP version floor. `fail` names the burn that fails. -/
  | svnCommit (fail : Option Nat)
  /-- R460: A security command ends and RESULT holds its status. -/
  | secCommandEnd
  /-- R473: The SEC_SCRAP key sequence burns the life cycle to SCRAPPED. One write of the sequence; `fails` says that
  the burn fails. -/
  | scrap (q : Req) (key : BitVec 16) (fails : Bool)
  /-- R465: The security controller loads and checks image A or B and starts thread 0. `a` and `b` are what the flash
  holds as images A and B. -/
  | bootProcedure (a : List Byte) (b : List Byte)
  /-- R476: A tamper sensor fires, wiping Nadir and logging the event. `mask` names the sensors that come into their
  conditions together. -/
  | tamperEvent (mask : BitVec 5)
  /-- R477: CLEAR empties the tamper log. -/
  | tamperLogClear (q : Req)
  /-- R480: The TAP takes a new instruction. -/
  | tapIrUpdate (c : Fin 32)
  /-- R481: On Update-DR the TAP reads or writes a DBG block register. `off` is the register's offset in the DBG
  block. -/
  | dbgReg (write : Bool) (off : BitVec 13) (data : BitVec 32)
  /-- R482: GO makes one debug memory or register access as the secure controller. -/
  | dbgCmdGo
  /-- R486: A write of ON requests a domain wake or sleep, or is refused. -/
  | domainSwitchWrite (q : Req) (d : Fin 150) (v : BitVec 32)
  /-- R485: A waking domain finishes its ramp and clearing and reads on. -/
  | domainWakeComplete (d : Fin 150)
  /-- R487: A domain is isolated, abandons its work and reads off. -/
  | domainSleepComplete (d : Fin 150)
  /-- R490: A Lull wake request powers a core and starts its threads. -/
  | autoWake (c : Fin 32)
  /-- R492: A write of CLK_CORE moves the cluster to FAB ÷ 2 and starts a relock. -/
  | coreFreqWrite (q : Req) (c : Fin 8) (v : BitVec 32)
  /-- R492: The relocked cluster PLL takes over and SWITCHING clears. -/
  | coreClockMove (c : Fin 8)
  /-- R493: A write of CLK_PIX starts a pixel PLL relock, or is refused while scanning. -/
  | pixClockWrite (q : Req) (n : Fin 6) (v : BitVec 32)
  /-- R493: The pixel PLL locks and PIX_n moves to it. -/
  | pixRelock (n : Fin 6)
  /-- R491: A PLL locks after cold reset. -/
  | pllLock (k : Fin 5)
  /-- R494: The SYS reference is absent for 10 µs and the device enters warm reset. -/
  | refLoss
  /-- R494: The reference is good for 100 µs and warm reset ends. -/
  | refReturn
  /-- R496: PORST_N low holds the device in cold reset. -/
  | coldReset
  /-- R496: PORST_N rises, the cold-reset set wakes and boot begins. `straps` is the level of GPOS_1 and GPOS_0. -/
  | porstRise (straps : Fin 4)
  /-- R497: The PWR_RESET key sequence starts a warm reset. One write of the sequence. -/
  | warmReset (q : Req) (key : BitVec 16)
  /-- R501: LEAVE ends the Twilight service on one SYS edge. -/
  | leaveTwilight (q : Req)
  /-- R517: Every 100 µs SYS_TJ takes the hottest sensor reading. -/
  | tjUpdate (v : BitVec 16)
  /-- R381: A write of ENABLE in LUL_Q_CFG_q turns a Lull queue on, setting PROD_IDX and CONS_IDX to 0, or off, so
  that its events are discarded and completions are held. -/
  | lullQueueEnable (q : Req) (n : Fin 64) (v : BitVec 32)
  /-- R442: A MAC's PCS gains block lock and LINK_UP in ETH_CTRL becomes 1. -/
  | ethLinkUp (e : Fin 2)
  /-- R442: A MAC loses PCS block lock and LINK_UP in ETH_CTRL returns to 0. -/
  | ethLinkDown (e : Fin 2)
  /-- R533: The data or response of a peer window access returns over the Atsobry port to the requester within the
  bound of R533. `k` counts the requests outstanding at the port. -/
  | peerWindowResponse (port : Fin 4) (k : Nat) (st : Status) (data : List Byte)
  /-- R436: The CXL device's completion of a memory, configuration or MMIO request returns to the port, which performs
  the write under R287 or delivers the data or poison. `k` counts the requests outstanding at the port; `poison` says
  that its data is poisoned. -/
  | cxlCompletion (p : Fin 2) (k : Nat) (data : List Byte) (poison : Bool)
  /-- R433: A CXL request that has received no completion within 50 ms gets an error response. `k` counts the requests
  outstanding at the port. -/
  | cxlCompletionTimeout (p : Fin 2) (k : Nat)
  /-- R138: A device's answer to a mailbox broadcast or epoch store reaches the issuer, setting its NACK bit where the
  store was refused or missed, and GO clears once every device in scope has answered. -/
  | bcastAnswer (port : Fin 4) (nack : Bool)
  /-- R476: A tamper sensor that raised an event leaves its event condition and may then raise a new event. -/
  | tamperConditionLeft (k : Fin 5)
  deriving DecidableEq, Repr

end Sys2Proof
end

