-- ==== Sys2Proof/Decode.lean ====
section
/-! DEFINITION. The command that a word spells by the opcode table's bits. No row of the table gives bits, so no word
spells a command. (The words of Knarn and of Gust are decoded where they are executed: Machine/Operands.lean,
Machine/Gust.lean.) -/

namespace Sys2Proof

/-- None of the table's rows has bits. -/
def decodeTableWord (_nbits _w : Nat) : Option Instr := none

end Sys2Proof
end

