-- ==== Sys2Proof/Config.lean ====
section
/-! DEFINITION. What an implementation fixes and the spec leaves open: the free values. None has a body that a proof
can see, so a statement holds whatever they are. -/

namespace Sys2Proof

/-- The free value a step takes when it reads `n` from the counter State.free: every value the spec calls undefined
(R3, the cases of R36), every value it does not state and every random byte is one of these (log entry 5). -/
opaque Config.freeValue : Nat → BitVec 64

/-- Whether a cp0 operation finds its result tiny after rounding (true) or before it: IEEE 754-2019 leaves this to the
implementation and R266 does not settle it (log entry 6). -/
opaque Config.tinyAfterRounding : Bool

/-- The silicon revision and the maker's identity code in IDCODE (R480), which the spec does not give (log entry 9). -/
opaque Config.revision : BitVec 4
opaque Config.maker : BitVec 11

end Sys2Proof
end

