-- ==== Sys2Proof/Machine/Bits.lean ====
section
/-! DEFINITION. Bit fields, sign extension, byte order and sparse maps: the helpers every family uses. -/

namespace Sys2Proof.Machine

/-! ### Bit fields of numbers -/

/-- Bits `lo + w - 1` to `lo` of `v`. -/
def bits (v lo w : Nat) : Nat := v / 2 ^ lo % 2 ^ w

/-- Bit `i` of `v`. -/
def bit (v i : Nat) : Bool := v / 2 ^ i % 2 == 1

/-- `v` with bits `lo + w - 1` to `lo` replaced by the low `w` bits of `x`. -/
def putBits (v lo w x : Nat) : Nat := v - bits v lo w * 2 ^ lo + x % 2 ^ w * 2 ^ lo

/-- 1 for true, 0 for false. -/
def b2n (b : Bool) : Nat := if b then 1 else 0

/-- The low `w` bits of `v` read as a two's complement number. -/
def sext (w v : Nat) : Int :=
  let u := v % 2 ^ w
  if u < 2 ^ (w - 1) then (u : Int) else (u : Int) - (2 ^ w : Nat)

/-- An integer wrapped to `w` bits. -/
def wrap (w : Nat) (x : Int) : Nat := (x % ((2 ^ w : Nat) : Int)).toNat

/-- `v` limited to the unsigned range of `w` bits (a saturating counter). -/
def satU (w v : Nat) : Nat := if v < 2 ^ w then v else 2 ^ w - 1

/-- `x` limited to the signed range of `w` bits. -/
def satS (w : Nat) (x : Int) : Int :=
  let lim : Int := ((2 ^ (w - 1) : Nat) : Int)
  if x < -lim then -lim else if lim ≤ x then lim - 1 else x

/-- `x` limited to the range `lo` to `hi`. -/
def clampI (lo hi x : Int) : Int := if x < lo then lo else if hi < x then hi else x

/-- The number of one bits among the low `n` bits of `v`. -/
def popc : Nat → Nat → Nat
  | 0, _ => 0
  | n + 1, v => v % 2 + popc n (v / 2)

/-- The lowest set bit among bits 0 to `n - 1` of `v`. -/
def lowestSet : Nat → Nat → Option Nat
  | 0, _ => none
  | n + 1, v => if v % 2 = 1 then some 0 else (lowestSet n (v / 2)).map (· + 1)

/-- `v` with its low `n` bits in the opposite order. -/
def reverseBits : Nat → Nat → Nat
  | 0, _ => 0
  | n + 1, v => v % 2 * 2 ^ n + reverseBits n (v / 2)

/-- Arithmetic shift right of a signed number: division by 2^n towards minus infinity. -/
def asr (x : Int) (n : Nat) : Int := x / ((2 ^ n : Nat) : Int)

/-- The ceiling of `a / b`. -/
def ceilDiv (a b : Nat) : Nat := (a + b - 1) / b

/-! ### Bytes, little-endian (R6) -/

/-- The low `n` bytes of `v`, lowest first. -/
def toBytes : Nat → Nat → List Byte
  | 0, _ => []
  | n + 1, v => BitVec.ofNat 8 v :: toBytes n (v / 256)

/-- The number whose bytes, lowest first, are `bs`. -/
def ofBytes : List Byte → Nat
  | [] => 0
  | b :: bs => b.toNat + 256 * ofBytes bs

/-- The `n` bytes of `bs` from offset `o` as a number. -/
def leAt (bs : List Byte) (o n : Nat) : Nat := ofBytes ((bs.drop o).take n)

/-- The number whose bytes, highest first, are `bs`. -/
def ofBytesBE (bs : List Byte) : Nat := ofBytes bs.reverse

/-- The low `n` bytes of `v`, highest first. -/
def toBytesBE (n v : Nat) : List Byte := (toBytes n v).reverse

/-- `bs` cut or filled with zeros to `n` bytes. -/
def padTo (n : Nat) (bs : List Byte) : List Byte := bs.take n ++ List.replicate (n - bs.length) 0

/-! ### Sparse maps -/

/-- A sparse map: keys strictly rising, no entry equal to what an unlisted key reads as. -/
abbrev AMap (α : Type) := List (Nat × α)

namespace AMap

variable {α : Type}

/-- What key `k` reads as, `d` when it is not listed. -/
def get : AMap α → Nat → α → α
  | [], _, d => d
  | (a, v) :: r, k, d => if a = k then v else get r k d

/-- The map without key `k`. -/
def erase : AMap α → Nat → AMap α
  | [], _ => []
  | (a, v) :: r, k => if a = k then erase r k else (a, v) :: erase r k

/-- The map with `(k, v)` put before the first larger key. -/
def ins : AMap α → Nat → α → AMap α
  | [], k, v => [(k, v)]
  | (a, x) :: r, k, v => if k < a then (k, v) :: (a, x) :: r else (a, x) :: ins r k v

/-- The map with key `k` reading as `v`, where an unlisted key reads as `d`. -/
def set [DecidableEq α] (m : AMap α) (k : Nat) (v d : α) : AMap α :=
  if v = d then erase m k else ins (erase m k) k v

/-- The keys are strictly rising. -/
def sorted : AMap α → Bool
  | [] => true
  | [_] => true
  | (a, _) :: (b, y) :: r => decide (a < b) && sorted ((b, y) :: r)

/-- The canonical form: rising keys, and no entry equal to what its key reads as unlisted. -/
def wf [DecidableEq α] (m : AMap α) (d : Nat → α) : Bool :=
  sorted m && m.all (fun e => decide (e.2 ≠ d e.1))

/-- The entries whose keys do not satisfy `p`. -/
def dropKeys (m : AMap α) (p : Nat → Bool) : AMap α := m.filter (fun e => !p e.1)

end AMap

/-! ### Lists -/

/-- Element `i` replaced by `f` of it. -/
def modifyAt {α : Type} (f : α → α) : Nat → List α → List α
  | _, [] => []
  | 0, a :: r => f a :: r
  | n + 1, a :: r => a :: modifyAt f n r

/-- The first element that satisfies `p`, and the list without it. -/
def takeFirst {α : Type} (p : α → Bool) : List α → Option (α × List α)
  | [] => none
  | a :: r => if p a then some (a, r) else (takeFirst p r).map (fun x => (x.1, a :: x.2))

end Sys2Proof.Machine
end

