-- ==== Sys2Proof/Machine/RegMap.lean ====
section
/-! DEFINITION. The register map of the register space: every register of chapters 1 to 23, with its key
(block index × 0x1_0000 + offset, R17 and R21), its instances, its reset value and the bits of each field type of R7.
`R.<NAME>` is a register's key, `F.<NAME>_<FIELD>` one of its fields. -/

namespace Sys2Proof.Machine

/-- One register of the map. `dims` lists its instances as (count, stride), largest stride first; `bytes` is its
width. `rw`, `w1c`, `w1s` and `act` hold the bits of types RW and RWL, W1C, W1S, and SC and WO (R7). -/
structure RegRow where
  key   : Nat
  dims  : List (Nat × Nat)
  bytes : Nat
  rst   : Nat
  rw    : Nat
  w1c   : Nat
  w1s   : Nat
  act   : Nat
  deriving DecidableEq, Repr

/-- A field of a register: its register's key, its lowest bit and its width. -/
structure Fld where
  key : Nat
  lo  : Nat
  w   : Nat
  deriving DecidableEq, Repr

/-! ### Keys and fields -/

abbrev R.SYS_TIME_LO : Nat := 0x100
abbrev R.SYS_TIME_HI : Nat := 0x104
abbrev R.SYS_TIME_SET_LO : Nat := 0x108
abbrev R.SYS_TIME_SET_HI : Nat := 0x10c
abbrev R.SYS_TIME_CMD : Nat := 0x110
abbrev F.SYS_TIME_CMD_SET : Fld := ⟨R.SYS_TIME_CMD, 0, 1⟩
abbrev R.SYS_TJ : Nat := 0x200
abbrev F.SYS_TJ_TJ_MAX : Fld := ⟨R.SYS_TJ, 16, 16⟩
abbrev F.SYS_TJ_TJ : Fld := ⟨R.SYS_TJ, 0, 16⟩
abbrev R.SYS_FAULT : Nat := 0x300
abbrev F.SYS_FAULT_SVN_FLOOR : Fld := ⟨R.SYS_FAULT, 25, 7⟩
abbrev F.SYS_FAULT_LAST_SLOT : Fld := ⟨R.SYS_FAULT, 24, 1⟩
abbrev F.SYS_FAULT_SLOTS_LEFT : Fld := ⟨R.SYS_FAULT, 20, 4⟩
abbrev F.SYS_FAULT_ATS_THREE : Fld := ⟨R.SYS_FAULT, 16, 4⟩
abbrev F.SYS_FAULT_ATS_NO_SPARE : Fld := ⟨R.SYS_FAULT, 12, 4⟩
abbrev F.SYS_FAULT_TWD_HALT : Fld := ⟨R.SYS_FAULT, 8, 1⟩
abbrev F.SYS_FAULT_POOL_FAILED : Fld := ⟨R.SYS_FAULT, 4, 1⟩
abbrev F.SYS_FAULT_SPARES_FREE : Fld := ⟨R.SYS_FAULT, 0, 4⟩
abbrev R.SYS_VIOL_COUNT : Nat := 0x310
abbrev R.SYS_VIOL_LAST : Nat := 0x314
abbrev F.SYS_VIOL_LAST_WRITE : Fld := ⟨R.SYS_VIOL_LAST, 31, 1⟩
abbrev F.SYS_VIOL_LAST_S : Fld := ⟨R.SYS_VIOL_LAST, 30, 1⟩
abbrev F.SYS_VIOL_LAST_BLOCK : Fld := ⟨R.SYS_VIOL_LAST, 16, 7⟩
abbrev F.SYS_VIOL_LAST_TAG : Fld := ⟨R.SYS_VIOL_LAST, 0, 9⟩
abbrev R.CLK_CORE (c : Nat) : Nat := 0x10000 + 0x4 * c
abbrev F.CLK_CORE_SWITCHING (c : Nat) : Fld := ⟨R.CLK_CORE c, 31, 1⟩
abbrev F.CLK_CORE_EFFECTIVE (c : Nat) : Fld := ⟨R.CLK_CORE c, 16, 7⟩
abbrev F.CLK_CORE_FREQ (c : Nat) : Fld := ⟨R.CLK_CORE c, 0, 7⟩
abbrev R.CLK_PIX (n : Nat) : Nat := 0x10100 + 0x4 * n
abbrev F.CLK_PIX_SET (n : Nat) : Fld := ⟨R.CLK_PIX n, 31, 1⟩
abbrev F.CLK_PIX_LOCKED (n : Nat) : Fld := ⟨R.CLK_PIX n, 30, 1⟩
abbrev F.CLK_PIX_FREQ_KHZ (n : Nat) : Fld := ⟨R.CLK_PIX n, 0, 20⟩
abbrev R.CLK_STATUS : Nat := 0x10200
abbrev F.CLK_STATUS_CORE_LOCKED : Fld := ⟨R.CLK_STATUS, 5, 8⟩
abbrev F.CLK_STATUS_AUD_LOCKED : Fld := ⟨R.CLK_STATUS, 4, 1⟩
abbrev F.CLK_STATUS_GUST_LOCKED : Fld := ⟨R.CLK_STATUS, 3, 1⟩
abbrev F.CLK_STATUS_CMP_LOCKED : Fld := ⟨R.CLK_STATUS, 2, 1⟩
abbrev F.CLK_STATUS_HSE_LOCKED : Fld := ⟨R.CLK_STATUS, 1, 1⟩
abbrev F.CLK_STATUS_FAB_LOCKED : Fld := ⟨R.CLK_STATUS, 0, 1⟩
abbrev R.CLK_ERR : Nat := 0x10204
abbrev F.CLK_ERR_PIX_ERR : Fld := ⟨R.CLK_ERR, 0, 6⟩
abbrev R.PWR_DOM_CTRL (d : Nat) : Nat := 0x20000 + 0x4 * d
abbrev F.PWR_DOM_CTRL_ON (d : Nat) : Fld := ⟨R.PWR_DOM_CTRL d, 0, 1⟩
abbrev R.PWR_DOM_STATUS (d : Nat) : Nat := 0x20400 + 0x4 * d
abbrev F.PWR_DOM_STATUS_STATE (d : Nat) : Fld := ⟨R.PWR_DOM_STATUS d, 0, 2⟩
abbrev R.PWR_ON (n : Nat) : Nat := 0x20800 + 0x4 * n
abbrev R.PWR_WAKE (c : Nat) : Nat := 0x21000 + 0x4 * c
abbrev F.PWR_WAKE_START_T1 (c : Nat) : Fld := ⟨R.PWR_WAKE c, 2, 1⟩
abbrev F.PWR_WAKE_START_T0 (c : Nat) : Fld := ⟨R.PWR_WAKE c, 1, 1⟩
abbrev F.PWR_WAKE_AUTO_WAKE (c : Nat) : Fld := ⟨R.PWR_WAKE c, 0, 1⟩
abbrev R.PWR_SERVICE : Nat := 0x22000
abbrev F.PWR_SERVICE_STATE : Fld := ⟨R.PWR_SERVICE, 1, 1⟩
abbrev F.PWR_SERVICE_LEAVE : Fld := ⟨R.PWR_SERVICE, 0, 1⟩
abbrev R.PWR_RESET : Nat := 0x22004
abbrev F.PWR_RESET_KEY : Fld := ⟨R.PWR_RESET, 0, 16⟩
abbrev R.PWR_RESET_CAUSE : Nat := 0x22008
abbrev F.PWR_RESET_CAUSE_PEER_POS : Fld := ⟨R.PWR_RESET_CAUSE, 5, 2⟩
abbrev F.PWR_RESET_CAUSE_REF_LOSS : Fld := ⟨R.PWR_RESET_CAUSE, 4, 1⟩
abbrev F.PWR_RESET_CAUSE_PEER : Fld := ⟨R.PWR_RESET_CAUSE, 3, 1⟩
abbrev F.PWR_RESET_CAUSE_TAMPER : Fld := ⟨R.PWR_RESET_CAUSE, 2, 1⟩
abbrev F.PWR_RESET_CAUSE_SOFT : Fld := ⟨R.PWR_RESET_CAUSE, 1, 1⟩
abbrev F.PWR_RESET_CAUSE_COLD : Fld := ⟨R.PWR_RESET_CAUSE, 0, 1⟩
abbrev R.PWR_ERR : Nat := 0x2200c
abbrev F.PWR_ERR_REFUSED : Fld := ⟨R.PWR_ERR, 31, 1⟩
abbrev F.PWR_ERR_DOMAIN : Fld := ⟨R.PWR_ERR, 0, 8⟩
abbrev R.PWR_TAMPER_CFG : Nat := 0x2f800
abbrev F.PWR_TAMPER_CFG_LOCK : Fld := ⟨R.PWR_TAMPER_CFG, 31, 1⟩
abbrev F.PWR_TAMPER_CFG_RESET : Fld := ⟨R.PWR_TAMPER_CFG, 10, 1⟩
abbrev F.PWR_TAMPER_CFG_POL1 : Fld := ⟨R.PWR_TAMPER_CFG, 9, 1⟩
abbrev F.PWR_TAMPER_CFG_POL0 : Fld := ⟨R.PWR_TAMPER_CFG, 8, 1⟩
abbrev F.PWR_TAMPER_CFG_ENABLE : Fld := ⟨R.PWR_TAMPER_CFG, 0, 5⟩
abbrev R.PWR_TAMPER_LOG_CTL : Nat := 0x2f804
abbrev F.PWR_TAMPER_LOG_CTL_CLEAR : Fld := ⟨R.PWR_TAMPER_LOG_CTL, 31, 1⟩
abbrev F.PWR_TAMPER_LOG_CTL_NEWEST : Fld := ⟨R.PWR_TAMPER_LOG_CTL, 16, 3⟩
abbrev F.PWR_TAMPER_LOG_CTL_COUNT : Fld := ⟨R.PWR_TAMPER_LOG_CTL, 0, 16⟩
abbrev R.PWR_TAMPER_LOG (k : Nat) : Nat := 0x2f810 + 0x8 * k
abbrev F.PWR_TAMPER_LOG_AON_TIME (k : Nat) : Fld := ⟨R.PWR_TAMPER_LOG k, 32, 32⟩
abbrev F.PWR_TAMPER_LOG_CAUSE (k : Nat) : Fld := ⟨R.PWR_TAMPER_LOG k, 0, 5⟩
abbrev R.SEC_STATUS : Nat := 0x30000
abbrev F.SEC_STATUS_WIPING : Fld := ⟨R.SEC_STATUS, 12, 1⟩
abbrev F.SEC_STATUS_TAMPER : Fld := ⟨R.SEC_STATUS, 11, 1⟩
abbrev F.SEC_STATUS_DEBUG_OPEN : Fld := ⟨R.SEC_STATUS, 10, 1⟩
abbrev F.SEC_STATUS_NO_SLOT : Fld := ⟨R.SEC_STATUS, 9, 1⟩
abbrev F.SEC_STATUS_ACTIVE_SLOT : Fld := ⟨R.SEC_STATUS, 4, 4⟩
abbrev F.SEC_STATUS_LIFE_CYCLE : Fld := ⟨R.SEC_STATUS, 0, 3⟩
abbrev R.SEC_CMD : Nat := 0x30004
abbrev F.SEC_CMD_RESULT : Fld := ⟨R.SEC_CMD, 24, 8⟩
abbrev F.SEC_CMD_CMD_ERR : Fld := ⟨R.SEC_CMD, 9, 1⟩
abbrev F.SEC_CMD_BUSY : Fld := ⟨R.SEC_CMD, 8, 1⟩
abbrev F.SEC_CMD_OP : Fld := ⟨R.SEC_CMD, 4, 4⟩
abbrev F.SEC_CMD_GO : Fld := ⟨R.SEC_CMD, 0, 1⟩
abbrev R.SEC_ARG : Nat := 0x30008
abbrev F.SEC_ARG_ADDR : Fld := ⟨R.SEC_ARG, 6, 38⟩
abbrev R.SEC_BOOT_INFO : Nat := 0x30010
abbrev F.SEC_BOOT_INFO_BOOTED : Fld := ⟨R.SEC_BOOT_INFO, 8, 2⟩
abbrev F.SEC_BOOT_INFO_B_CODE : Fld := ⟨R.SEC_BOOT_INFO, 4, 4⟩
abbrev F.SEC_BOOT_INFO_A_CODE : Fld := ⟨R.SEC_BOOT_INFO, 0, 4⟩
abbrev R.SEC_DEBUG : Nat := 0x30014
abbrev F.SEC_DEBUG_SCOPE : Fld := ⟨R.SEC_DEBUG, 1, 3⟩
abbrev F.SEC_DEBUG_UART_EN : Fld := ⟨R.SEC_DEBUG, 0, 1⟩
abbrev R.SEC_CHALLENGE (n : Nat) : Nat := 0x30020 + 0x4 * n
abbrev R.SEC_SCRAP : Nat := 0x30040
abbrev F.SEC_SCRAP_KEY : Fld := ⟨R.SEC_SCRAP, 0, 16⟩
abbrev R.OTP_LC : Nat := 0x40000
abbrev F.OTP_LC_LC : Fld := ⟨R.OTP_LC, 0, 4⟩
abbrev R.OTP_SLOT_STATE : Nat := 0x40004
abbrev R.OTP_SVN_LO : Nat := 0x40008
abbrev R.OTP_SVN_HI : Nat := 0x4000c
abbrev R.OTP_DEVICE_ID (n : Nat) : Nat := 0x40010 + 0x4 * n
abbrev R.OTP_SLOT_HASH (s w : Nat) : Nat := 0x40400 + 0x40 * s + 0x4 * w
abbrev R.LUL_Q_BASE (q : Nat) : Nat := 0x50000 + 0x20 * q
abbrev F.LUL_Q_BASE_ADDR (q : Nat) : Fld := ⟨R.LUL_Q_BASE q, 6, 38⟩
abbrev R.LUL_Q_CFG (q : Nat) : Nat := 0x50008 + 0x20 * q
abbrev F.LUL_Q_CFG_RESUME (q : Nat) : Fld := ⟨R.LUL_Q_CFG q, 27, 1⟩
abbrev F.LUL_Q_CFG_WAKE_EN (q : Nat) : Fld := ⟨R.LUL_Q_CFG q, 26, 1⟩
abbrev F.LUL_Q_CFG_IRQ_EN (q : Nat) : Fld := ⟨R.LUL_Q_CFG q, 25, 1⟩
abbrev F.LUL_Q_CFG_ENABLE (q : Nat) : Fld := ⟨R.LUL_Q_CFG q, 24, 1⟩
abbrev F.LUL_Q_CFG_TARGET (q : Nat) : Fld := ⟨R.LUL_Q_CFG q, 16, 6⟩
abbrev F.LUL_Q_CFG_OWNER (q : Nat) : Fld := ⟨R.LUL_Q_CFG q, 12, 4⟩
abbrev F.LUL_Q_CFG_ATTR_S (q : Nat) : Fld := ⟨R.LUL_Q_CFG q, 11, 1⟩
abbrev F.LUL_Q_CFG_SIZE_LOG2 (q : Nat) : Fld := ⟨R.LUL_Q_CFG q, 4, 4⟩
abbrev R.LUL_Q_COAL (q : Nat) : Nat := 0x5000c + 0x20 * q
abbrev F.LUL_Q_COAL_CO_COUNT (q : Nat) : Fld := ⟨R.LUL_Q_COAL q, 20, 12⟩
abbrev F.LUL_Q_COAL_CO_TIME (q : Nat) : Fld := ⟨R.LUL_Q_COAL q, 0, 20⟩
abbrev R.LUL_Q_PROD (q : Nat) : Nat := 0x50010 + 0x20 * q
abbrev F.LUL_Q_PROD_PROD_IDX (q : Nat) : Fld := ⟨R.LUL_Q_PROD q, 0, 16⟩
abbrev R.LUL_Q_CONS (q : Nat) : Nat := 0x50014 + 0x20 * q
abbrev F.LUL_Q_CONS_CONS_IDX (q : Nat) : Fld := ⟨R.LUL_Q_CONS q, 0, 16⟩
abbrev R.LUL_Q_STATUS (q : Nat) : Nat := 0x50018 + 0x20 * q
abbrev F.LUL_Q_STATUS_LOST (q : Nat) : Fld := ⟨R.LUL_Q_STATUS q, 16, 16⟩
abbrev F.LUL_Q_STATUS_CONS_ERR (q : Nat) : Fld := ⟨R.LUL_Q_STATUS q, 6, 1⟩
abbrev F.LUL_Q_STATUS_OVERFLOW (q : Nat) : Fld := ⟨R.LUL_Q_STATUS q, 5, 1⟩
abbrev F.LUL_Q_STATUS_WR_ERR (q : Nat) : Fld := ⟨R.LUL_Q_STATUS q, 4, 1⟩
abbrev F.LUL_Q_STATUS_HALTED (q : Nat) : Fld := ⟨R.LUL_Q_STATUS q, 3, 1⟩
abbrev F.LUL_Q_STATUS_RUNNING (q : Nat) : Fld := ⟨R.LUL_Q_STATUS q, 2, 1⟩
abbrev F.LUL_Q_STATUS_PENDING (q : Nat) : Fld := ⟨R.LUL_Q_STATUS q, 1, 1⟩
abbrev F.LUL_Q_STATUS_ASSERTED (q : Nat) : Fld := ⟨R.LUL_Q_STATUS q, 0, 1⟩
abbrev R.LUL_EVT_MAP (i : Nat) : Nat := 0x50800 + 0x4 * i
abbrev F.LUL_EVT_MAP_EN (i : Nat) : Fld := ⟨R.LUL_EVT_MAP i, 8, 1⟩
abbrev F.LUL_EVT_MAP_QUEUE (i : Nat) : Fld := ⟨R.LUL_EVT_MAP i, 0, 6⟩
abbrev R.LUL_ASSERT : Nat := 0x50900
abbrev R.LUL_VIOL_COUNT : Nat := 0x50908
abbrev R.BRZ_CH_CFG (c : Nat) : Nat := 0x60000 + 0x10 * c
abbrev F.BRZ_CH_CFG_PIN_ACT (c : Nat) : Fld := ⟨R.BRZ_CH_CFG c, 28, 3⟩
abbrev F.BRZ_CH_CFG_GATE_INV (c : Nat) : Fld := ⟨R.BRZ_CH_CFG c, 27, 1⟩
abbrev F.BRZ_CH_CFG_GATE (c : Nat) : Fld := ⟨R.BRZ_CH_CFG c, 16, 10⟩
abbrev F.BRZ_CH_CFG_SRC (c : Nat) : Fld := ⟨R.BRZ_CH_CFG c, 0, 10⟩
abbrev R.BRZ_CH_OWN (c : Nat) : Nat := 0x60004 + 0x10 * c
abbrev F.BRZ_CH_OWN_S (c : Nat) : Fld := ⟨R.BRZ_CH_OWN c, 4, 1⟩
abbrev F.BRZ_CH_OWN_OWNER (c : Nat) : Fld := ⟨R.BRZ_CH_OWN c, 0, 4⟩
abbrev R.BRZ_CH_SPACE (c : Nat) : Nat := 0x60008 + 0x10 * c
abbrev F.BRZ_CH_SPACE_SPACING (c : Nat) : Fld := ⟨R.BRZ_CH_SPACE c, 0, 16⟩
abbrev R.BRZ_CH_STATUS (c : Nat) : Nat := 0x6000c + 0x10 * c
abbrev F.BRZ_CH_STATUS_COUNT (c : Nat) : Fld := ⟨R.BRZ_CH_STATUS c, 16, 16⟩
abbrev F.BRZ_CH_STATUS_PIN_LEVEL (c : Nat) : Fld := ⟨R.BRZ_CH_STATUS c, 3, 1⟩
abbrev F.BRZ_CH_STATUS_HELD (c : Nat) : Fld := ⟨R.BRZ_CH_STATUS c, 2, 1⟩
abbrev F.BRZ_CH_STATUS_SPACED (c : Nat) : Fld := ⟨R.BRZ_CH_STATUS c, 1, 1⟩
abbrev F.BRZ_CH_STATUS_COINCIDENT (c : Nat) : Fld := ⟨R.BRZ_CH_STATUS c, 0, 1⟩
abbrev R.BRZ_TASK (t : Nat) : Nat := 0x61000 + 0x8 * t
abbrev F.BRZ_TASK_B_EN (t : Nat) : Fld := ⟨R.BRZ_TASK t, 31, 1⟩
abbrev F.BRZ_TASK_B_CH (t : Nat) : Fld := ⟨R.BRZ_TASK t, 16, 8⟩
abbrev F.BRZ_TASK_A_EN (t : Nat) : Fld := ⟨R.BRZ_TASK t, 15, 1⟩
abbrev F.BRZ_TASK_A_CH (t : Nat) : Fld := ⟨R.BRZ_TASK t, 0, 8⟩
abbrev R.BRZ_TASK_CTL (t : Nat) : Nat := 0x61004 + 0x8 * t
abbrev F.BRZ_TASK_CTL_OVERRUN (t : Nat) : Fld := ⟨R.BRZ_TASK_CTL t, 9, 1⟩
abbrev F.BRZ_TASK_CTL_COINCIDENT (t : Nat) : Fld := ⟨R.BRZ_TASK_CTL t, 8, 1⟩
abbrev F.BRZ_TASK_CTL_S (t : Nat) : Fld := ⟨R.BRZ_TASK_CTL t, 4, 1⟩
abbrev F.BRZ_TASK_CTL_OWNER (t : Nat) : Fld := ⟨R.BRZ_TASK_CTL t, 0, 4⟩
abbrev R.BRZ_FIRE : Nat := 0x62000
abbrev F.BRZ_FIRE_CHANNEL : Fld := ⟨R.BRZ_FIRE, 0, 8⟩
abbrev R.BRZ_VIOL_COUNT : Nat := 0x62004
abbrev R.GPIO_PIN_CFG (p : Nat) : Nat := 0x70000 + 0x4 * p
abbrev F.GPIO_PIN_CFG_OD (p : Nat) : Fld := ⟨R.GPIO_PIN_CFG p, 11, 1⟩
abbrev F.GPIO_PIN_CFG_DRIVE (p : Nat) : Fld := ⟨R.GPIO_PIN_CFG p, 8, 2⟩
abbrev F.GPIO_PIN_CFG_PULL (p : Nat) : Fld := ⟨R.GPIO_PIN_CFG p, 6, 2⟩
abbrev F.GPIO_PIN_CFG_FUNC (p : Nat) : Fld := ⟨R.GPIO_PIN_CFG p, 0, 4⟩
abbrev R.GPIO_PIN_INT (p : Nat) : Nat := 0x70400 + 0x4 * p
abbrev F.GPIO_PIN_INT_MODE (p : Nat) : Fld := ⟨R.GPIO_PIN_INT p, 0, 3⟩
abbrev R.GPIO_PIN_OWN (p : Nat) : Nat := 0x70800 + 0x4 * p
abbrev F.GPIO_PIN_OWN_S (p : Nat) : Fld := ⟨R.GPIO_PIN_OWN p, 4, 1⟩
abbrev F.GPIO_PIN_OWN_OWNER (p : Nat) : Fld := ⟨R.GPIO_PIN_OWN p, 0, 4⟩
abbrev R.GPIO_PIN_LOCK (p : Nat) : Nat := 0x70c00 + 0x4 * p
abbrev F.GPIO_PIN_LOCK_LOCKED (p : Nat) : Fld := ⟨R.GPIO_PIN_LOCK p, 16, 1⟩
abbrev F.GPIO_PIN_LOCK_KEY (p : Nat) : Fld := ⟨R.GPIO_PIN_LOCK p, 0, 16⟩
abbrev R.GPIO_OUT_LO (k : Nat) : Nat := 0x71000 + 0x8 * k
abbrev F.GPIO_OUT_LO_MASK (k : Nat) : Fld := ⟨R.GPIO_OUT_LO k, 16, 16⟩
abbrev F.GPIO_OUT_LO_VALUE (k : Nat) : Fld := ⟨R.GPIO_OUT_LO k, 0, 16⟩
abbrev R.GPIO_OUT_HI (k : Nat) : Nat := 0x71004 + 0x8 * k
abbrev F.GPIO_OUT_HI_MASK (k : Nat) : Fld := ⟨R.GPIO_OUT_HI k, 16, 16⟩
abbrev F.GPIO_OUT_HI_VALUE (k : Nat) : Fld := ⟨R.GPIO_OUT_HI k, 0, 16⟩
abbrev R.GPIO_OE_LO (k : Nat) : Nat := 0x71040 + 0x8 * k
abbrev F.GPIO_OE_LO_MASK (k : Nat) : Fld := ⟨R.GPIO_OE_LO k, 16, 16⟩
abbrev F.GPIO_OE_LO_VALUE (k : Nat) : Fld := ⟨R.GPIO_OE_LO k, 0, 16⟩
abbrev R.GPIO_OE_HI (k : Nat) : Nat := 0x71044 + 0x8 * k
abbrev F.GPIO_OE_HI_MASK (k : Nat) : Fld := ⟨R.GPIO_OE_HI k, 16, 16⟩
abbrev F.GPIO_OE_HI_VALUE (k : Nat) : Fld := ⟨R.GPIO_OE_HI k, 0, 16⟩
abbrev R.GPIO_IN (k : Nat) : Nat := 0x71080 + 0x4 * k
abbrev R.GPIO_INT_STAT (k : Nat) : Nat := 0x710a0 + 0x4 * k
abbrev R.GPIO_HOLD (k : Nat) : Nat := 0x710c0 + 0x4 * k
abbrev R.GPIO_BANK_CFG (k : Nat) : Nat := 0x71100 + 0x4 * k
abbrev F.GPIO_BANK_CFG_PG (k : Nat) : Fld := ⟨R.GPIO_BANK_CFG k, 8, 1⟩
abbrev F.GPIO_BANK_CFG_VSEL (k : Nat) : Fld := ⟨R.GPIO_BANK_CFG k, 0, 2⟩
abbrev R.GPIO_STATUS : Nat := 0x71200
abbrev F.GPIO_STATUS_FUNC_ERR : Fld := ⟨R.GPIO_STATUS, 1, 1⟩
abbrev F.GPIO_STATUS_LOCK_WR : Fld := ⟨R.GPIO_STATUS, 0, 1⟩
abbrev R.GPIO_VIOL_COUNT : Nat := 0x71204
abbrev R.TIM_CFG (c : Nat) : Nat := 0x80000 + 0x20 * c
abbrev F.TIM_CFG_PRESC (c : Nat) : Fld := ⟨R.TIM_CFG c, 16, 16⟩
abbrev F.TIM_CFG_PIN_EN (c : Nat) : Fld := ⟨R.TIM_CFG c, 14, 1⟩
abbrev F.TIM_CFG_TERM_ACT (c : Nat) : Fld := ⟨R.TIM_CFG c, 12, 2⟩
abbrev F.TIM_CFG_MATCH_ACT (c : Nat) : Fld := ⟨R.TIM_CFG c, 10, 2⟩
abbrev F.TIM_CFG_LINK (c : Nat) : Fld := ⟨R.TIM_CFG c, 0, 1⟩
abbrev R.TIM_CTRL (c : Nat) : Nat := 0x80004 + 0x20 * c
abbrev F.TIM_CTRL_LEVEL (c : Nat) : Fld := ⟨R.TIM_CTRL c, 4, 1⟩
abbrev F.TIM_CTRL_CAPTURE (c : Nat) : Fld := ⟨R.TIM_CTRL c, 2, 1⟩
abbrev F.TIM_CTRL_STOP (c : Nat) : Fld := ⟨R.TIM_CTRL c, 1, 1⟩
abbrev F.TIM_CTRL_ARM (c : Nat) : Fld := ⟨R.TIM_CTRL c, 0, 1⟩
abbrev R.TIM_STATUS (c : Nat) : Nat := 0x80008 + 0x20 * c
abbrev F.TIM_STATUS_MATCHED (c : Nat) : Fld := ⟨R.TIM_STATUS c, 2, 1⟩
abbrev F.TIM_STATUS_TERMINATED (c : Nat) : Fld := ⟨R.TIM_STATUS c, 1, 1⟩
abbrev F.TIM_STATUS_COUNTING (c : Nat) : Fld := ⟨R.TIM_STATUS c, 0, 1⟩
abbrev R.TIM_PERIOD (c : Nat) : Nat := 0x8000c + 0x20 * c
abbrev R.TIM_MATCH (c : Nat) : Nat := 0x80010 + 0x20 * c
abbrev R.TIM_COUNT (c : Nat) : Nat := 0x80014 + 0x20 * c
abbrev R.TIM_CAPT (c : Nat) : Nat := 0x80018 + 0x20 * c
abbrev R.TIM_OWN (c : Nat) : Nat := 0x8001c + 0x20 * c
abbrev F.TIM_OWN_S (c : Nat) : Fld := ⟨R.TIM_OWN c, 4, 1⟩
abbrev F.TIM_OWN_OWNER (c : Nat) : Fld := ⟨R.TIM_OWN c, 0, 4⟩
abbrev R.GST_START : Nat := 0x90000
abbrev R.GST_STOP : Nat := 0x90008
abbrev R.GST_VIOL_COUNT : Nat := 0x90010
abbrev R.GST_GROUP_OWN (g : Nat) : Nat := 0x91000 + 0x400 * g
abbrev F.GST_GROUP_OWN_S (g : Nat) : Fld := ⟨R.GST_GROUP_OWN g, 4, 1⟩
abbrev F.GST_GROUP_OWN_OWNER (g : Nat) : Fld := ⟨R.GST_GROUP_OWN g, 0, 4⟩
abbrev R.GST_PROG (g w : Nat) : Nat := 0x91100 + 0x400 * g + 0x4 * w
abbrev R.GST_ENG_CTRL (e : Nat) : Nat := 0x091200 + 0x400 * (e / 4) + 0x80 * (e % 4) + 0x0
abbrev F.GST_ENG_CTRL_DIV_RESTART (e : Nat) : Fld := ⟨R.GST_ENG_CTRL e, 3, 1⟩
abbrev F.GST_ENG_CTRL_FIFO_CLR (e : Nat) : Fld := ⟨R.GST_ENG_CTRL e, 2, 1⟩
abbrev F.GST_ENG_CTRL_RESTART (e : Nat) : Fld := ⟨R.GST_ENG_CTRL e, 1, 1⟩
abbrev F.GST_ENG_CTRL_ENABLE (e : Nat) : Fld := ⟨R.GST_ENG_CTRL e, 0, 1⟩
abbrev R.GST_ENG_DIV (e : Nat) : Nat := 0x091200 + 0x400 * (e / 4) + 0x80 * (e % 4) + 0x4
abbrev F.GST_ENG_DIV_DIV_INT (e : Nat) : Fld := ⟨R.GST_ENG_DIV e, 8, 16⟩
abbrev F.GST_ENG_DIV_DIV_FRAC (e : Nat) : Fld := ⟨R.GST_ENG_DIV e, 0, 8⟩
abbrev R.GST_ENG_PC (e : Nat) : Nat := 0x091200 + 0x400 * (e / 4) + 0x80 * (e % 4) + 0x8
abbrev F.GST_ENG_PC_WRAP_TOP (e : Nat) : Fld := ⟨R.GST_ENG_PC e, 16, 6⟩
abbrev F.GST_ENG_PC_WRAP_BOTTOM (e : Nat) : Fld := ⟨R.GST_ENG_PC e, 8, 6⟩
abbrev F.GST_ENG_PC_START (e : Nat) : Fld := ⟨R.GST_ENG_PC e, 0, 6⟩
abbrev R.GST_ENG_WIN (e : Nat) : Nat := 0x091200 + 0x400 * (e / 4) + 0x80 * (e % 4) + 0xc
abbrev F.GST_ENG_WIN_IN_POS (e : Nat) : Fld := ⟨R.GST_ENG_WIN e, 24, 5⟩
abbrev F.GST_ENG_WIN_OUT_POS (e : Nat) : Fld := ⟨R.GST_ENG_WIN e, 16, 5⟩
abbrev F.GST_ENG_WIN_WIN_COUNT (e : Nat) : Fld := ⟨R.GST_ENG_WIN e, 8, 6⟩
abbrev F.GST_ENG_WIN_WIN_BASE (e : Nat) : Fld := ⟨R.GST_ENG_WIN e, 0, 8⟩
abbrev R.GST_ENG_CFG (e : Nat) : Nat := 0x091200 + 0x400 * (e / 4) + 0x80 * (e % 4) + 0x10
abbrev F.GST_ENG_CFG_LINK_B (e : Nat) : Fld := ⟨R.GST_ENG_CFG e, 30, 2⟩
abbrev F.GST_ENG_CFG_LINK_A (e : Nat) : Fld := ⟨R.GST_ENG_CFG e, 28, 2⟩
abbrev F.GST_ENG_CFG_LEN_B (e : Nat) : Fld := ⟨R.GST_ENG_CFG e, 23, 5⟩
abbrev F.GST_ENG_CFG_LEN_A (e : Nat) : Fld := ⟨R.GST_ENG_CFG e, 18, 5⟩
abbrev F.GST_ENG_CFG_SIDE_POS (e : Nat) : Fld := ⟨R.GST_ENG_CFG e, 13, 5⟩
abbrev F.GST_ENG_CFG_RX_WM (e : Nat) : Fld := ⟨R.GST_ENG_CFG e, 9, 4⟩
abbrev F.GST_ENG_CFG_TX_WM (e : Nat) : Fld := ⟨R.GST_ENG_CFG e, 5, 4⟩
abbrev R.GST_ENG_SRC (e : Nat) : Nat := 0x091200 + 0x400 * (e / 4) + 0x80 * (e % 4) + 0x14
abbrev F.GST_ENG_SRC_SRC_BASE (e : Nat) : Fld := ⟨R.GST_ENG_SRC e, 0, 16⟩
abbrev R.GST_ENG_STATUS (e : Nat) : Nat := 0x091200 + 0x400 * (e / 4) + 0x80 * (e % 4) + 0x18
abbrev F.GST_ENG_STATUS_PC (e : Nat) : Fld := ⟨R.GST_ENG_STATUS e, 24, 6⟩
abbrev F.GST_ENG_STATUS_STATE (e : Nat) : Fld := ⟨R.GST_ENG_STATUS e, 20, 3⟩
abbrev F.GST_ENG_STATUS_RX_LEVEL (e : Nat) : Fld := ⟨R.GST_ENG_STATUS e, 16, 4⟩
abbrev F.GST_ENG_STATUS_TX_LEVEL (e : Nat) : Fld := ⟨R.GST_ENG_STATUS e, 12, 4⟩
abbrev F.GST_ENG_STATUS_LINE_ERR (e : Nat) : Fld := ⟨R.GST_ENG_STATUS e, 5, 1⟩
abbrev F.GST_ENG_STATUS_RX_DROP (e : Nat) : Fld := ⟨R.GST_ENG_STATUS e, 4, 1⟩
abbrev F.GST_ENG_STATUS_RX_UNDER (e : Nat) : Fld := ⟨R.GST_ENG_STATUS e, 3, 1⟩
abbrev F.GST_ENG_STATUS_TX_OVER (e : Nat) : Fld := ⟨R.GST_ENG_STATUS e, 2, 1⟩
abbrev F.GST_ENG_STATUS_ILLEGAL (e : Nat) : Fld := ⟨R.GST_ENG_STATUS e, 1, 1⟩
abbrev R.GST_ENG_ERRCNT (e : Nat) : Nat := 0x091200 + 0x400 * (e / 4) + 0x80 * (e % 4) + 0x1c
abbrev R.GST_ENG_X (e : Nat) : Nat := 0x091200 + 0x400 * (e / 4) + 0x80 * (e % 4) + 0x20
abbrev R.GST_ENG_Y (e : Nat) : Nat := 0x091200 + 0x400 * (e / 4) + 0x80 * (e % 4) + 0x24
abbrev R.GST_ENG_OUTV (e : Nat) : Nat := 0x091200 + 0x400 * (e / 4) + 0x80 * (e % 4) + 0x28
abbrev R.GST_ENG_OUTE (e : Nat) : Nat := 0x091200 + 0x400 * (e / 4) + 0x80 * (e % 4) + 0x2c
abbrev R.GST_ENG_TXF (e j : Nat) : Nat := 0x091200 + 0x400 * (e / 4) + 0x80 * (e % 4) + 0x30 + 4 * j
abbrev R.GST_ENG_RXF (e j : Nat) : Nat := 0x091200 + 0x400 * (e / 4) + 0x80 * (e % 4) + 0x40 + 4 * j
abbrev R.GST_ENG_SIDE (e j : Nat) : Nat := 0x091200 + 0x400 * (e / 4) + 0x80 * (e % 4) + 0x50 + 4 * j
abbrev F.GST_ENG_SIDE_ENTRY_3 (e j : Nat) : Fld := ⟨R.GST_ENG_SIDE e j, 24, 8⟩
abbrev F.GST_ENG_SIDE_ENTRY_2 (e j : Nat) : Fld := ⟨R.GST_ENG_SIDE e j, 16, 8⟩
abbrev F.GST_ENG_SIDE_ENTRY_1 (e j : Nat) : Fld := ⟨R.GST_ENG_SIDE e j, 8, 8⟩
abbrev F.GST_ENG_SIDE_ENTRY_0 (e j : Nat) : Fld := ⟨R.GST_ENG_SIDE e j, 0, 8⟩
abbrev R.GST_ENG_LOOPS (e : Nat) : Nat := 0x091200 + 0x400 * (e / 4) + 0x80 * (e % 4) + 0x60
abbrev F.GST_ENG_LOOPS_LOOPS (e : Nat) : Fld := ⟨R.GST_ENG_LOOPS e, 0, 16⟩
abbrev R.TWD_CH_BASE (c : Nat) : Nat := 0xa0000 + 0x20 * c
abbrev F.TWD_CH_BASE_ADDR (c : Nat) : Fld := ⟨R.TWD_CH_BASE c, 6, 38⟩
abbrev R.TWD_CH_CFG (c : Nat) : Nat := 0xa0008 + 0x20 * c
abbrev F.TWD_CH_CFG_QUEUE (c : Nat) : Fld := ⟨R.TWD_CH_CFG c, 16, 6⟩
abbrev F.TWD_CH_CFG_OWNER (c : Nat) : Fld := ⟨R.TWD_CH_CFG c, 12, 4⟩
abbrev F.TWD_CH_CFG_ATTR_S (c : Nat) : Fld := ⟨R.TWD_CH_CFG c, 11, 1⟩
abbrev F.TWD_CH_CFG_SIZE_LOG2 (c : Nat) : Fld := ⟨R.TWD_CH_CFG c, 4, 4⟩
abbrev F.TWD_CH_CFG_DB_ERR (c : Nat) : Fld := ⟨R.TWD_CH_CFG c, 3, 1⟩
abbrev F.TWD_CH_CFG_CANCEL (c : Nat) : Fld := ⟨R.TWD_CH_CFG c, 2, 1⟩
abbrev F.TWD_CH_CFG_BUSY (c : Nat) : Fld := ⟨R.TWD_CH_CFG c, 1, 1⟩
abbrev F.TWD_CH_CFG_ENABLE (c : Nat) : Fld := ⟨R.TWD_CH_CFG c, 0, 1⟩
abbrev R.TWD_CH_DB (c : Nat) : Nat := 0xa000c + 0x20 * c
abbrev F.TWD_CH_DB_PROD_IDX (c : Nat) : Fld := ⟨R.TWD_CH_DB c, 0, 16⟩
abbrev R.TWD_CH_CONS (c : Nat) : Nat := 0xa0010 + 0x20 * c
abbrev F.TWD_CH_CONS_CONS_IDX (c : Nat) : Fld := ⟨R.TWD_CH_CONS c, 0, 16⟩
abbrev R.TWD_CH_STATUS (c : Nat) : Nat := 0xa0014 + 0x20 * c
abbrev F.TWD_CH_STATUS_TRIG_LOST (c : Nat) : Fld := ⟨R.TWD_CH_STATUS c, 3, 1⟩
abbrev F.TWD_CH_STATUS_TRIG_PEND (c : Nat) : Fld := ⟨R.TWD_CH_STATUS c, 2, 1⟩
abbrev F.TWD_CH_STATUS_PACE_WAIT (c : Nat) : Fld := ⟨R.TWD_CH_STATUS c, 1, 1⟩
abbrev F.TWD_CH_STATUS_HALTED (c : Nat) : Fld := ⟨R.TWD_CH_STATUS c, 0, 1⟩
abbrev R.TWD_CH_CTRL (c : Nat) : Nat := 0xa0018 + 0x20 * c
abbrev F.TWD_CH_CTRL_ABORT (c : Nat) : Fld := ⟨R.TWD_CH_CTRL c, 1, 1⟩
abbrev F.TWD_CH_CTRL_RESUME (c : Nat) : Fld := ⟨R.TWD_CH_CTRL c, 0, 1⟩
abbrev R.TWD_CH_POS (c : Nat) : Nat := 0xa001c + 0x20 * c
abbrev F.TWD_CH_POS_DST_ELEM (c : Nat) : Fld := ⟨R.TWD_CH_POS c, 16, 16⟩
abbrev F.TWD_CH_POS_SRC_ELEM (c : Nat) : Fld := ⟨R.TWD_CH_POS c, 0, 16⟩
abbrev R.TWD_ERR_CFG : Nat := 0xa0800
abbrev F.TWD_ERR_CFG_QUEUE : Fld := ⟨R.TWD_ERR_CFG, 16, 6⟩
abbrev F.TWD_ERR_CFG_OWNER : Fld := ⟨R.TWD_ERR_CFG, 12, 4⟩
abbrev F.TWD_ERR_CFG_ATTR_S : Fld := ⟨R.TWD_ERR_CFG, 11, 1⟩
abbrev R.TWD_ERR_ADDR : Nat := 0xa0808
abbrev F.TWD_ERR_ADDR_ADDR : Fld := ⟨R.TWD_ERR_ADDR, 0, 44⟩
abbrev R.TWD_ERR_INFO : Nat := 0xa0810
abbrev F.TWD_ERR_INFO_COUNT : Fld := ⟨R.TWD_ERR_INFO, 16, 16⟩
abbrev F.TWD_ERR_INFO_CAUSE : Fld := ⟨R.TWD_ERR_INFO, 0, 4⟩
abbrev R.TWD_HALTED : Nat := 0xa0814
abbrev R.SQL_STATUS : Nat := 0xb0000
abbrev F.SQL_STATUS_RING : Fld := ⟨R.SQL_STATUS, 4, 2⟩
abbrev F.SQL_STATUS_ERR : Fld := ⟨R.SQL_STATUS, 1, 1⟩
abbrev F.SQL_STATUS_BUSY : Fld := ⟨R.SQL_STATUS, 0, 1⟩
abbrev R.SQL_RING_BASE (n : Nat) : Nat := 0xb0100 + 0x20 * n
abbrev F.SQL_RING_BASE_ADDR (n : Nat) : Fld := ⟨R.SQL_RING_BASE n, 6, 38⟩
abbrev R.SQL_RING_CFG (n : Nat) : Nat := 0xb0108 + 0x20 * n
abbrev F.SQL_RING_CFG_QUEUE (n : Nat) : Fld := ⟨R.SQL_RING_CFG n, 16, 6⟩
abbrev F.SQL_RING_CFG_OWNER (n : Nat) : Fld := ⟨R.SQL_RING_CFG n, 12, 4⟩
abbrev F.SQL_RING_CFG_ATTR_S (n : Nat) : Fld := ⟨R.SQL_RING_CFG n, 11, 1⟩
abbrev F.SQL_RING_CFG_SIZE_LOG2 (n : Nat) : Fld := ⟨R.SQL_RING_CFG n, 4, 4⟩
abbrev F.SQL_RING_CFG_DB_ERR (n : Nat) : Fld := ⟨R.SQL_RING_CFG n, 3, 1⟩
abbrev F.SQL_RING_CFG_CANCEL (n : Nat) : Fld := ⟨R.SQL_RING_CFG n, 2, 1⟩
abbrev F.SQL_RING_CFG_BUSY (n : Nat) : Fld := ⟨R.SQL_RING_CFG n, 1, 1⟩
abbrev F.SQL_RING_CFG_ENABLE (n : Nat) : Fld := ⟨R.SQL_RING_CFG n, 0, 1⟩
abbrev R.SQL_RING_DB (n : Nat) : Nat := 0xb0110 + 0x20 * n
abbrev F.SQL_RING_DB_PROD_IDX (n : Nat) : Fld := ⟨R.SQL_RING_DB n, 0, 16⟩
abbrev R.SQL_RING_CONS (n : Nat) : Nat := 0xb0114 + 0x20 * n
abbrev F.SQL_RING_CONS_CONS_IDX (n : Nat) : Fld := ⟨R.SQL_RING_CONS n, 0, 16⟩
abbrev R.SQL_ERR_ADDR : Nat := 0xb0200
abbrev F.SQL_ERR_ADDR_ADDR : Fld := ⟨R.SQL_ERR_ADDR, 0, 44⟩
abbrev R.SQL_ERR_INFO : Nat := 0xb0208
abbrev F.SQL_ERR_INFO_RING : Fld := ⟨R.SQL_ERR_INFO, 28, 2⟩
abbrev F.SQL_ERR_INFO_STATUS : Fld := ⟨R.SQL_ERR_INFO, 24, 4⟩
abbrev F.SQL_ERR_INFO_INDEX : Fld := ⟨R.SQL_ERR_INFO, 0, 16⟩
abbrev R.CMP_FC_CFG : Nat := 0xc0000
abbrev F.CMP_FC_CFG_FC_EN : Fld := ⟨R.CMP_FC_CFG, 31, 1⟩
abbrev F.CMP_FC_CFG_BANK_COUNT : Fld := ⟨R.CMP_FC_CFG, 16, 8⟩
abbrev F.CMP_FC_CFG_FIRST_BANK : Fld := ⟨R.CMP_FC_CFG, 0, 9⟩
abbrev R.CMP_FC_STATUS : Nat := 0xc0004
abbrev F.CMP_FC_STATUS_SLOTS_USED : Fld := ⟨R.CMP_FC_STATUS, 16, 13⟩
abbrev F.CMP_FC_STATUS_FULL : Fld := ⟨R.CMP_FC_STATUS, 2, 1⟩
abbrev F.CMP_FC_STATUS_ACCESS_ERR : Fld := ⟨R.CMP_FC_STATUS, 1, 1⟩
abbrev F.CMP_FC_STATUS_CFG_ERR : Fld := ⟨R.CMP_FC_STATUS, 0, 1⟩
abbrev R.CMP_HEAD_CFG (n : Nat) : Nat := 0xc0100 + 0x40 * n
abbrev F.CMP_HEAD_CFG_LEAD (n : Nat) : Fld := ⟨R.CMP_HEAD_CFG n, 0, 8⟩
abbrev R.CMP_LATE_LINES (n : Nat) : Nat := 0xc0104 + 0x40 * n
abbrev R.CMP_HEAD_STATUS (n : Nat) : Nat := 0xc0108 + 0x40 * n
abbrev F.CMP_HEAD_STATUS_WB_DROP (n : Nat) : Fld := ⟨R.CMP_HEAD_STATUS n, 3, 1⟩
abbrev F.CMP_HEAD_STATUS_WRITE_ERR (n : Nat) : Fld := ⟨R.CMP_HEAD_STATUS n, 2, 1⟩
abbrev F.CMP_HEAD_STATUS_LATE (n : Nat) : Fld := ⟨R.CMP_HEAD_STATUS n, 1, 1⟩
abbrev F.CMP_HEAD_STATUS_COMPOSING (n : Nat) : Fld := ⟨R.CMP_HEAD_STATUS n, 0, 1⟩
abbrev R.CMP_WB_BASE (n : Nat) : Nat := 0xc0110 + 0x40 * n
abbrev F.CMP_WB_BASE_ADDR (n : Nat) : Fld := ⟨R.CMP_WB_BASE n, 6, 38⟩
abbrev R.CMP_WB_CFG (n : Nat) : Nat := 0xc0118 + 0x40 * n
abbrev F.CMP_WB_CFG_DIVIDER (n : Nat) : Fld := ⟨R.CMP_WB_CFG n, 24, 8⟩
abbrev F.CMP_WB_CFG_QUEUE (n : Nat) : Fld := ⟨R.CMP_WB_CFG n, 16, 6⟩
abbrev F.CMP_WB_CFG_OWNER (n : Nat) : Fld := ⟨R.CMP_WB_CFG n, 12, 4⟩
abbrev F.CMP_WB_CFG_ATTR_S (n : Nat) : Fld := ⟨R.CMP_WB_CFG n, 11, 1⟩
abbrev F.CMP_WB_CFG_SIZE_LOG2 (n : Nat) : Fld := ⟨R.CMP_WB_CFG n, 4, 4⟩
abbrev F.CMP_WB_CFG_DB_ERR (n : Nat) : Fld := ⟨R.CMP_WB_CFG n, 3, 1⟩
abbrev F.CMP_WB_CFG_BUSY (n : Nat) : Fld := ⟨R.CMP_WB_CFG n, 1, 1⟩
abbrev F.CMP_WB_CFG_ENABLE (n : Nat) : Fld := ⟨R.CMP_WB_CFG n, 0, 1⟩
abbrev R.CMP_WB_DB (n : Nat) : Nat := 0xc011c + 0x40 * n
abbrev F.CMP_WB_DB_PROD_IDX (n : Nat) : Fld := ⟨R.CMP_WB_DB n, 0, 16⟩
abbrev R.CMP_WB_CONS (n : Nat) : Nat := 0xc0120 + 0x40 * n
abbrev F.CMP_WB_CONS_CONS_IDX (n : Nat) : Fld := ⟨R.CMP_WB_CONS n, 0, 16⟩
abbrev R.CMP_WB_SKIP (n : Nat) : Nat := 0xc0124 + 0x40 * n
abbrev R.HEAD_CTRL (h : Nat) : Nat := 0x100000 + 0x10000 * h
abbrev F.HEAD_CTRL_COMMIT (h : Nat) : Fld := ⟨R.HEAD_CTRL h, 1, 1⟩
abbrev F.HEAD_CTRL_ENABLE (h : Nat) : Fld := ⟨R.HEAD_CTRL h, 0, 1⟩
abbrev R.HEAD_STATUS (h : Nat) : Nat := 0x100004 + 0x10000 * h
abbrev F.HEAD_STATUS_WR_DROPPED (h : Nat) : Fld := ⟨R.HEAD_STATUS h, 7, 1⟩
abbrev F.HEAD_STATUS_COMMIT_ERR (h : Nat) : Fld := ⟨R.HEAD_STATUS h, 4, 3⟩
abbrev F.HEAD_STATUS_IN_VBLANK (h : Nat) : Fld := ⟨R.HEAD_STATUS h, 1, 1⟩
abbrev F.HEAD_STATUS_SCANNING (h : Nat) : Fld := ⟨R.HEAD_STATUS h, 0, 1⟩
abbrev R.HEAD_BEAM (h : Nat) : Nat := 0x100008 + 0x10000 * h
abbrev F.HEAD_BEAM_LINE (h : Nat) : Fld := ⟨R.HEAD_BEAM h, 16, 16⟩
abbrev F.HEAD_BEAM_PIXEL (h : Nat) : Fld := ⟨R.HEAD_BEAM h, 0, 16⟩
abbrev R.HEAD_FRAME (h : Nat) : Nat := 0x10000c + 0x10000 * h
abbrev R.HEAD_HTIM_A (h : Nat) : Nat := 0x100040 + 0x10000 * h
abbrev F.HEAD_HTIM_A_H_FP (h : Nat) : Fld := ⟨R.HEAD_HTIM_A h, 16, 16⟩
abbrev F.HEAD_HTIM_A_H_ACTIVE (h : Nat) : Fld := ⟨R.HEAD_HTIM_A h, 0, 16⟩
abbrev R.HEAD_HTIM_B (h : Nat) : Nat := 0x100044 + 0x10000 * h
abbrev F.HEAD_HTIM_B_H_BP (h : Nat) : Fld := ⟨R.HEAD_HTIM_B h, 16, 16⟩
abbrev F.HEAD_HTIM_B_H_SYNC (h : Nat) : Fld := ⟨R.HEAD_HTIM_B h, 0, 16⟩
abbrev R.HEAD_VTIM_A (h : Nat) : Nat := 0x100048 + 0x10000 * h
abbrev F.HEAD_VTIM_A_V_FP (h : Nat) : Fld := ⟨R.HEAD_VTIM_A h, 16, 16⟩
abbrev F.HEAD_VTIM_A_V_ACTIVE (h : Nat) : Fld := ⟨R.HEAD_VTIM_A h, 0, 16⟩
abbrev R.HEAD_VTIM_B (h : Nat) : Nat := 0x10004c + 0x10000 * h
abbrev F.HEAD_VTIM_B_V_BP (h : Nat) : Fld := ⟨R.HEAD_VTIM_B h, 16, 16⟩
abbrev F.HEAD_VTIM_B_V_SYNC (h : Nat) : Fld := ⟨R.HEAD_VTIM_B h, 0, 16⟩
abbrev R.HEAD_OUT (h : Nat) : Nat := 0x100050 + 0x10000 * h
abbrev F.HEAD_OUT_BPC (h : Nat) : Fld := ⟨R.HEAD_OUT h, 4, 2⟩
abbrev F.HEAD_OUT_V_POL (h : Nat) : Fld := ⟨R.HEAD_OUT h, 1, 1⟩
abbrev F.HEAD_OUT_H_POL (h : Nat) : Fld := ⟨R.HEAD_OUT h, 0, 1⟩
abbrev R.HEAD_FS (h : Nat) : Nat := 0x100054 + 0x10000 * h
abbrev F.HEAD_FS_STRIDE (h : Nat) : Fld := ⟨R.HEAD_FS h, 16, 16⟩
abbrev F.HEAD_FS_FORMAT (h : Nat) : Fld := ⟨R.HEAD_FS h, 12, 1⟩
abbrev F.HEAD_FS_FIRST_BANK (h : Nat) : Fld := ⟨R.HEAD_FS h, 0, 9⟩
abbrev R.HEAD_FAULT_COLOUR (h : Nat) : Nat := 0x100058 + 0x10000 * h
abbrev F.HEAD_FAULT_COLOUR_COLOUR (h : Nat) : Fld := ⟨R.HEAD_FAULT_COLOUR h, 0, 30⟩
abbrev R.HEAD_TP_CFG (h n : Nat) : Nat := 0x100100 + 0x10000 * h + 0x20 * n
abbrev F.HEAD_TP_CFG_LS_EN (h n : Nat) : Fld := ⟨R.HEAD_TP_CFG h n, 15, 1⟩
abbrev F.HEAD_TP_CFG_STATIC_EN (h n : Nat) : Fld := ⟨R.HEAD_TP_CFG h n, 14, 1⟩
abbrev F.HEAD_TP_CFG_MAP_H (h n : Nat) : Fld := ⟨R.HEAD_TP_CFG h n, 10, 2⟩
abbrev F.HEAD_TP_CFG_MAP_W (h n : Nat) : Fld := ⟨R.HEAD_TP_CFG h n, 8, 2⟩
abbrev F.HEAD_TP_CFG_BPP (h n : Nat) : Fld := ⟨R.HEAD_TP_CFG h n, 4, 2⟩
abbrev F.HEAD_TP_CFG_TILE16 (h n : Nat) : Fld := ⟨R.HEAD_TP_CFG h n, 0, 1⟩
abbrev R.HEAD_TP_MAP (h n : Nat) : Nat := 0x100104 + 0x10000 * h + 0x20 * n
abbrev F.HEAD_TP_MAP_OFFSET (h n : Nat) : Fld := ⟨R.HEAD_TP_MAP h n, 10, 18⟩
abbrev R.HEAD_TP_PAT (h n : Nat) : Nat := 0x100108 + 0x10000 * h + 0x20 * n
abbrev F.HEAD_TP_PAT_OFFSET (h n : Nat) : Fld := ⟨R.HEAD_TP_PAT h n, 6, 22⟩
abbrev R.HEAD_TP_LS (h n : Nat) : Nat := 0x10010c + 0x10000 * h + 0x20 * n
abbrev F.HEAD_TP_LS_OFFSET (h n : Nat) : Fld := ⟨R.HEAD_TP_LS h n, 6, 22⟩
abbrev R.HEAD_VP_CFG (h : Nat) : Nat := 0x100180 + 0x10000 * h
abbrev F.HEAD_VP_CFG_PRIORITY (h : Nat) : Fld := ⟨R.HEAD_VP_CFG h, 8, 2⟩
abbrev F.HEAD_VP_CFG_FULL (h : Nat) : Fld := ⟨R.HEAD_VP_CFG h, 6, 1⟩
abbrev F.HEAD_VP_CFG_MATRIX (h : Nat) : Fld := ⟨R.HEAD_VP_CFG h, 4, 2⟩
abbrev F.HEAD_VP_CFG_DEPTH10 (h : Nat) : Fld := ⟨R.HEAD_VP_CFG h, 3, 1⟩
abbrev F.HEAD_VP_CFG_FORMAT (h : Nat) : Fld := ⟨R.HEAD_VP_CFG h, 0, 3⟩
abbrev R.HEAD_VP_Y_ADDR (h : Nat) : Nat := 0x100188 + 0x10000 * h
abbrev F.HEAD_VP_Y_ADDR_ADDR (h : Nat) : Fld := ⟨R.HEAD_VP_Y_ADDR h, 6, 38⟩
abbrev R.HEAD_VP_C_ADDR (h : Nat) : Nat := 0x100190 + 0x10000 * h
abbrev F.HEAD_VP_C_ADDR_ADDR (h : Nat) : Fld := ⟨R.HEAD_VP_C_ADDR h, 6, 38⟩
abbrev R.HEAD_VP_PITCH (h : Nat) : Nat := 0x100198 + 0x10000 * h
abbrev F.HEAD_VP_PITCH_C_PITCH (h : Nat) : Fld := ⟨R.HEAD_VP_PITCH h, 16, 16⟩
abbrev F.HEAD_VP_PITCH_Y_PITCH (h : Nat) : Fld := ⟨R.HEAD_VP_PITCH h, 0, 16⟩
abbrev R.HEAD_VP_SRC (h : Nat) : Nat := 0x10019c + 0x10000 * h
abbrev F.HEAD_VP_SRC_HIGH (h : Nat) : Fld := ⟨R.HEAD_VP_SRC h, 16, 16⟩
abbrev F.HEAD_VP_SRC_LOW (h : Nat) : Fld := ⟨R.HEAD_VP_SRC h, 0, 16⟩
abbrev R.HEAD_VP_DST_POS (h : Nat) : Nat := 0x1001a0 + 0x10000 * h
abbrev F.HEAD_VP_DST_POS_HIGH (h : Nat) : Fld := ⟨R.HEAD_VP_DST_POS h, 16, 16⟩
abbrev F.HEAD_VP_DST_POS_LOW (h : Nat) : Fld := ⟨R.HEAD_VP_DST_POS h, 0, 16⟩
abbrev R.HEAD_VP_DST_SIZE (h : Nat) : Nat := 0x1001a4 + 0x10000 * h
abbrev F.HEAD_VP_DST_SIZE_HIGH (h : Nat) : Fld := ⟨R.HEAD_VP_DST_SIZE h, 16, 16⟩
abbrev F.HEAD_VP_DST_SIZE_LOW (h : Nat) : Fld := ⟨R.HEAD_VP_DST_SIZE h, 0, 16⟩
abbrev R.HEAD_VP_HSTEP (h : Nat) : Nat := 0x1001a8 + 0x10000 * h
abbrev F.HEAD_VP_HSTEP_STEP (h : Nat) : Fld := ⟨R.HEAD_VP_HSTEP h, 0, 19⟩
abbrev R.HEAD_VP_VSTEP (h : Nat) : Nat := 0x1001ac + 0x10000 * h
abbrev F.HEAD_VP_VSTEP_STEP (h : Nat) : Fld := ⟨R.HEAD_VP_VSTEP h, 0, 19⟩
abbrev R.HEAD_VP_HCOEF (h p : Nat) : Nat := 0x100200 + 0x10000 * h + 0x8 * p
abbrev F.HEAD_VP_HCOEF_C3 (h p : Nat) : Fld := ⟨R.HEAD_VP_HCOEF h p, 48, 12⟩
abbrev F.HEAD_VP_HCOEF_C2 (h p : Nat) : Fld := ⟨R.HEAD_VP_HCOEF h p, 32, 12⟩
abbrev F.HEAD_VP_HCOEF_C1 (h p : Nat) : Fld := ⟨R.HEAD_VP_HCOEF h p, 16, 12⟩
abbrev F.HEAD_VP_HCOEF_C0 (h p : Nat) : Fld := ⟨R.HEAD_VP_HCOEF h p, 0, 12⟩
abbrev R.HEAD_VP_VCOEF (h p : Nat) : Nat := 0x100280 + 0x10000 * h + 0x8 * p
abbrev F.HEAD_VP_VCOEF_C3 (h p : Nat) : Fld := ⟨R.HEAD_VP_VCOEF h p, 48, 12⟩
abbrev F.HEAD_VP_VCOEF_C2 (h p : Nat) : Fld := ⟨R.HEAD_VP_VCOEF h p, 32, 12⟩
abbrev F.HEAD_VP_VCOEF_C1 (h p : Nat) : Fld := ⟨R.HEAD_VP_VCOEF h p, 16, 12⟩
abbrev F.HEAD_VP_VCOEF_C0 (h p : Nat) : Fld := ⟨R.HEAD_VP_VCOEF h p, 0, 12⟩
abbrev R.HEAD_SP_CFG (h : Nat) : Nat := 0x100300 + 0x10000 * h
abbrev F.HEAD_SP_CFG_COUNT (h : Nat) : Fld := ⟨R.HEAD_SP_CFG h, 0, 10⟩
abbrev R.HEAD_SP_ATTR (h : Nat) : Nat := 0x100304 + 0x10000 * h
abbrev F.HEAD_SP_ATTR_OFFSET (h : Nat) : Fld := ⟨R.HEAD_SP_ATTR h, 6, 22⟩
abbrev R.HEAD_SP_PAT (h : Nat) : Nat := 0x100308 + 0x10000 * h
abbrev F.HEAD_SP_PAT_OFFSET (h : Nat) : Fld := ⟨R.HEAD_SP_PAT h, 6, 22⟩
abbrev R.HEAD_AL_CFG (h : Nat) : Nat := 0x100380 + 0x10000 * h
abbrev F.HEAD_AL_CFG_BLINK_OFF (h : Nat) : Fld := ⟨R.HEAD_AL_CFG h, 16, 8⟩
abbrev F.HEAD_AL_CFG_BLINK_ON (h : Nat) : Fld := ⟨R.HEAD_AL_CFG h, 8, 8⟩
abbrev F.HEAD_AL_CFG_BPP8 (h : Nat) : Fld := ⟨R.HEAD_AL_CFG h, 4, 1⟩
abbrev F.HEAD_AL_CFG_ENABLE (h : Nat) : Fld := ⟨R.HEAD_AL_CFG h, 0, 1⟩
abbrev R.HEAD_AL_MAP (h : Nat) : Nat := 0x100384 + 0x10000 * h
abbrev F.HEAD_AL_MAP_OFFSET (h : Nat) : Fld := ⟨R.HEAD_AL_MAP h, 10, 18⟩
abbrev R.HEAD_AL_PAT (h : Nat) : Nat := 0x100388 + 0x10000 * h
abbrev F.HEAD_AL_PAT_OFFSET (h : Nat) : Fld := ⟨R.HEAD_AL_PAT h, 6, 22⟩
abbrev R.HEAD_SB_CFG (h n : Nat) : Nat := 0x100400 + 0x10000 * h + 0x20 * n
abbrev F.HEAD_SB_CFG_PITCH (h n : Nat) : Fld := ⟨R.HEAD_SB_CFG h n, 6, 14⟩
abbrev F.HEAD_SB_CFG_ENABLE (h n : Nat) : Fld := ⟨R.HEAD_SB_CFG h n, 0, 1⟩
abbrev R.HEAD_SB_PIX (h n : Nat) : Nat := 0x100404 + 0x10000 * h + 0x20 * n
abbrev F.HEAD_SB_PIX_OFFSET (h n : Nat) : Fld := ⟨R.HEAD_SB_PIX h n, 6, 22⟩
abbrev R.HEAD_SB_POS (h n : Nat) : Nat := 0x100408 + 0x10000 * h + 0x20 * n
abbrev F.HEAD_SB_POS_HIGH (h n : Nat) : Fld := ⟨R.HEAD_SB_POS h n, 16, 16⟩
abbrev F.HEAD_SB_POS_LOW (h n : Nat) : Fld := ⟨R.HEAD_SB_POS h n, 0, 16⟩
abbrev R.HEAD_SB_SIZE (h n : Nat) : Nat := 0x10040c + 0x10000 * h + 0x20 * n
abbrev F.HEAD_SB_SIZE_HIGH (h n : Nat) : Fld := ⟨R.HEAD_SB_SIZE h n, 16, 16⟩
abbrev F.HEAD_SB_SIZE_LOW (h n : Nat) : Fld := ⟨R.HEAD_SB_SIZE h n, 0, 16⟩
abbrev R.HEAD_AL_PAL (h i : Nat) : Nat := 0x100800 + 0x10000 * h + 0x4 * i
abbrev F.HEAD_AL_PAL_ALPHA (h i : Nat) : Fld := ⟨R.HEAD_AL_PAL h i, 24, 8⟩
abbrev F.HEAD_AL_PAL_RED (h i : Nat) : Fld := ⟨R.HEAD_AL_PAL h i, 16, 8⟩
abbrev F.HEAD_AL_PAL_GREEN (h i : Nat) : Fld := ⟨R.HEAD_AL_PAL h i, 8, 8⟩
abbrev F.HEAD_AL_PAL_BLUE (h i : Nat) : Fld := ⟨R.HEAD_AL_PAL h i, 0, 8⟩
abbrev R.HEAD_BASE_PAL (h i : Nat) : Nat := 0x100c00 + 0x10000 * h + 0x4 * i
abbrev F.HEAD_BASE_PAL_ALPHA (h i : Nat) : Fld := ⟨R.HEAD_BASE_PAL h i, 24, 8⟩
abbrev F.HEAD_BASE_PAL_RED (h i : Nat) : Fld := ⟨R.HEAD_BASE_PAL h i, 16, 8⟩
abbrev F.HEAD_BASE_PAL_GREEN (h i : Nat) : Fld := ⟨R.HEAD_BASE_PAL h i, 8, 8⟩
abbrev F.HEAD_BASE_PAL_BLUE (h i : Nat) : Fld := ⟨R.HEAD_BASE_PAL h i, 0, 8⟩
abbrev R.HEAD_PAL (h i : Nat) : Nat := 0x101000 + 0x10000 * h + 0x4 * i
abbrev F.HEAD_PAL_ALPHA (h i : Nat) : Fld := ⟨R.HEAD_PAL h i, 24, 8⟩
abbrev F.HEAD_PAL_RED (h i : Nat) : Fld := ⟨R.HEAD_PAL h i, 16, 8⟩
abbrev F.HEAD_PAL_GREEN (h i : Nat) : Fld := ⟨R.HEAD_PAL h i, 8, 8⟩
abbrev F.HEAD_PAL_BLUE (h i : Nat) : Fld := ⟨R.HEAD_PAL h i, 0, 8⟩
abbrev R.HEAD_TP_RT (h n : Nat) : Nat := 0x102000 + 0x10000 * h + 0x10 * n
abbrev F.HEAD_TP_RT_ALPHA (h n : Nat) : Fld := ⟨R.HEAD_TP_RT h n, 24, 8⟩
abbrev F.HEAD_TP_RT_ENABLE (h n : Nat) : Fld := ⟨R.HEAD_TP_RT h n, 0, 1⟩
abbrev R.HEAD_TP_SCROLL (h n : Nat) : Nat := 0x102004 + 0x10000 * h + 0x10 * n
abbrev F.HEAD_TP_SCROLL_VSCROLL (h n : Nat) : Fld := ⟨R.HEAD_TP_SCROLL h n, 16, 16⟩
abbrev F.HEAD_TP_SCROLL_HSCROLL (h n : Nat) : Fld := ⟨R.HEAD_TP_SCROLL h n, 0, 16⟩
abbrev R.HEAD_TP_WIN_X (h n : Nat) : Nat := 0x102008 + 0x10000 * h + 0x10 * n
abbrev F.HEAD_TP_WIN_X_X_END (h n : Nat) : Fld := ⟨R.HEAD_TP_WIN_X h n, 16, 16⟩
abbrev F.HEAD_TP_WIN_X_X_START (h n : Nat) : Fld := ⟨R.HEAD_TP_WIN_X h n, 0, 16⟩
abbrev R.HEAD_TP_WIN_Y (h n : Nat) : Nat := 0x10200c + 0x10000 * h + 0x10 * n
abbrev F.HEAD_TP_WIN_Y_X_END (h n : Nat) : Fld := ⟨R.HEAD_TP_WIN_Y h n, 16, 16⟩
abbrev F.HEAD_TP_WIN_Y_X_START (h n : Nat) : Fld := ⟨R.HEAD_TP_WIN_Y h n, 0, 16⟩
abbrev R.HEAD_VP_RT (h : Nat) : Nat := 0x102040 + 0x10000 * h
abbrev F.HEAD_VP_RT_ALPHA (h : Nat) : Fld := ⟨R.HEAD_VP_RT h, 24, 8⟩
abbrev F.HEAD_VP_RT_ENABLE (h : Nat) : Fld := ⟨R.HEAD_VP_RT h, 0, 1⟩
abbrev R.HEAD_VP_WIN_X (h : Nat) : Nat := 0x102048 + 0x10000 * h
abbrev F.HEAD_VP_WIN_X_X_END (h : Nat) : Fld := ⟨R.HEAD_VP_WIN_X h, 16, 16⟩
abbrev F.HEAD_VP_WIN_X_X_START (h : Nat) : Fld := ⟨R.HEAD_VP_WIN_X h, 0, 16⟩
abbrev R.HEAD_VP_WIN_Y (h : Nat) : Nat := 0x10204c + 0x10000 * h
abbrev F.HEAD_VP_WIN_Y_X_END (h : Nat) : Fld := ⟨R.HEAD_VP_WIN_Y h, 16, 16⟩
abbrev F.HEAD_VP_WIN_Y_X_START (h : Nat) : Fld := ⟨R.HEAD_VP_WIN_Y h, 0, 16⟩
abbrev R.HEAD_SP_RT (h : Nat) : Nat := 0x102050 + 0x10000 * h
abbrev F.HEAD_SP_RT_ALPHA (h : Nat) : Fld := ⟨R.HEAD_SP_RT h, 24, 8⟩
abbrev F.HEAD_SP_RT_ENABLE (h : Nat) : Fld := ⟨R.HEAD_SP_RT h, 0, 1⟩
abbrev R.HEAD_SP_WIN_X (h : Nat) : Nat := 0x102058 + 0x10000 * h
abbrev F.HEAD_SP_WIN_X_X_END (h : Nat) : Fld := ⟨R.HEAD_SP_WIN_X h, 16, 16⟩
abbrev F.HEAD_SP_WIN_X_X_START (h : Nat) : Fld := ⟨R.HEAD_SP_WIN_X h, 0, 16⟩
abbrev R.HEAD_SP_WIN_Y (h : Nat) : Nat := 0x10205c + 0x10000 * h
abbrev F.HEAD_SP_WIN_Y_X_END (h : Nat) : Fld := ⟨R.HEAD_SP_WIN_Y h, 16, 16⟩
abbrev F.HEAD_SP_WIN_Y_X_START (h : Nat) : Fld := ⟨R.HEAD_SP_WIN_Y h, 0, 16⟩
abbrev R.HEAD_BACKDROP (h : Nat) : Nat := 0x102060 + 0x10000 * h
abbrev F.HEAD_BACKDROP_RED (h : Nat) : Fld := ⟨R.HEAD_BACKDROP h, 20, 10⟩
abbrev F.HEAD_BACKDROP_GREEN (h : Nat) : Fld := ⟨R.HEAD_BACKDROP h, 10, 10⟩
abbrev F.HEAD_BACKDROP_BLUE (h : Nat) : Fld := ⟨R.HEAD_BACKDROP h, 0, 10⟩
abbrev R.HEAD_MER_CTRL (h : Nat) : Nat := 0x102f00 + 0x10000 * h
abbrev F.HEAD_MER_CTRL_SEL (h : Nat) : Fld := ⟨R.HEAD_MER_CTRL h, 1, 1⟩
abbrev F.HEAD_MER_CTRL_ENABLE (h : Nat) : Fld := ⟨R.HEAD_MER_CTRL h, 0, 1⟩
abbrev R.HEAD_MER_PROG (h n : Nat) : Nat := 0x102f04 + 0x10000 * h + 0x4 * n
abbrev F.HEAD_MER_PROG_OFFSET (h n : Nat) : Fld := ⟨R.HEAD_MER_PROG h n, 6, 22⟩
abbrev R.HEAD_MER_STATUS (h : Nat) : Nat := 0x102f0c + 0x10000 * h
abbrev F.HEAD_MER_STATUS_PC (h : Nat) : Fld := ⟨R.HEAD_MER_STATUS h, 20, 12⟩
abbrev F.HEAD_MER_STATUS_ACTIVE_SEL (h : Nat) : Fld := ⟨R.HEAD_MER_STATUS h, 18, 1⟩
abbrev F.HEAD_MER_STATUS_STATE (h : Nat) : Fld := ⟨R.HEAD_MER_STATUS h, 16, 2⟩
abbrev F.HEAD_MER_STATUS_LATE (h : Nat) : Fld := ⟨R.HEAD_MER_STATUS h, 4, 1⟩
abbrev F.HEAD_MER_STATUS_RUNAWAY (h : Nat) : Fld := ⟨R.HEAD_MER_STATUS h, 3, 1⟩
abbrev F.HEAD_MER_STATUS_BADREG (h : Nat) : Fld := ⟨R.HEAD_MER_STATUS h, 2, 1⟩
abbrev F.HEAD_MER_STATUS_FETCH_ERR (h : Nat) : Fld := ⟨R.HEAD_MER_STATUS h, 1, 1⟩
abbrev F.HEAD_MER_STATUS_BADOP (h : Nat) : Fld := ⟨R.HEAD_MER_STATUS h, 0, 1⟩
abbrev R.HEAD_LAYER_STATUS (h : Nat) : Nat := 0x102f40 + 0x10000 * h
abbrev F.HEAD_LAYER_STATUS_SPR_OVERFLOW (h : Nat) : Fld := ⟨R.HEAD_LAYER_STATUS h, 1, 1⟩
abbrev F.HEAD_LAYER_STATUS_READ_ERR (h : Nat) : Fld := ⟨R.HEAD_LAYER_STATUS h, 0, 1⟩
abbrev R.HEAD_SPR_OVERFLOW_COUNT (h : Nat) : Nat := 0x102f44 + 0x10000 * h
abbrev R.HEAD_LAYER_ERR_COUNT (h : Nat) : Nat := 0x102f48 + 0x10000 * h
abbrev R.HEAD_SF_WIN_X (h r : Nat) : Nat := 0x103000 + 0x10000 * h + 0x10 * r
abbrev F.HEAD_SF_WIN_X_X_END (h r : Nat) : Fld := ⟨R.HEAD_SF_WIN_X h r, 16, 16⟩
abbrev F.HEAD_SF_WIN_X_X_START (h r : Nat) : Fld := ⟨R.HEAD_SF_WIN_X h r, 0, 16⟩
abbrev R.HEAD_SF_WIN_Y (h r : Nat) : Nat := 0x103004 + 0x10000 * h + 0x10 * r
abbrev F.HEAD_SF_WIN_Y_X_END (h r : Nat) : Fld := ⟨R.HEAD_SF_WIN_Y h r, 16, 16⟩
abbrev F.HEAD_SF_WIN_Y_X_START (h r : Nat) : Fld := ⟨R.HEAD_SF_WIN_Y h r, 0, 16⟩
abbrev R.HEAD_SF_CFG (h r : Nat) : Nat := 0x103008 + 0x10000 * h + 0x10 * r
abbrev F.HEAD_SF_CFG_STILL_N (h r : Nat) : Fld := ⟨R.HEAD_SF_CFG h r, 8, 4⟩
abbrev F.HEAD_SF_CFG_MODE (h r : Nat) : Fld := ⟨R.HEAD_SF_CFG h r, 0, 2⟩
abbrev R.HEAD_SF_EXPECT (h r : Nat) : Nat := 0x10300c + 0x10000 * h + 0x10 * r
abbrev R.HEAD_SF_CRC (h r : Nat) : Nat := 0x103100 + 0x10000 * h + 0x4 * r
abbrev R.HEAD_SF_STATUS (h : Nat) : Nat := 0x103140 + 0x10000 * h
abbrev F.HEAD_SF_STATUS_STILL (h : Nat) : Fld := ⟨R.HEAD_SF_STATUS h, 16, 16⟩
abbrev F.HEAD_SF_STATUS_MISMATCH (h : Nat) : Fld := ⟨R.HEAD_SF_STATUS h, 0, 16⟩
abbrev R.HEAD_SF_LEARN (h : Nat) : Nat := 0x103144 + 0x10000 * h
abbrev F.HEAD_SF_LEARN_LEARN (h : Nat) : Fld := ⟨R.HEAD_SF_LEARN h, 0, 16⟩
abbrev R.HEAD_SF_CFG_ERR (h : Nat) : Nat := 0x103148 + 0x10000 * h
abbrev F.HEAD_SF_CFG_ERR_ERR (h : Nat) : Fld := ⟨R.HEAD_SF_CFG_ERR h, 0, 16⟩
abbrev R.HEAD_SF_AL_STATUS (h : Nat) : Nat := 0x103150 + 0x10000 * h
abbrev F.HEAD_SF_AL_STATUS_AL_CHECKED (h : Nat) : Fld := ⟨R.HEAD_SF_AL_STATUS h, 2, 1⟩
abbrev F.HEAD_SF_AL_STATUS_AL_STALE (h : Nat) : Fld := ⟨R.HEAD_SF_AL_STATUS h, 1, 1⟩
abbrev F.HEAD_SF_AL_STATUS_AL_MISMATCH (h : Nat) : Fld := ⟨R.HEAD_SF_AL_STATUS h, 0, 1⟩
abbrev R.HEAD_SF_AL_CRC (h : Nat) : Nat := 0x103154 + 0x10000 * h
abbrev R.HEAD_SF_AL_EXP (h : Nat) : Nat := 0x103158 + 0x10000 * h
abbrev R.HEAD_SF_EVENT_COUNT (h : Nat) : Nat := 0x10315c + 0x10000 * h
abbrev R.HEAD_DP_CFG (h : Nat) : Nat := 0x104000 + 0x10000 * h
abbrev F.HEAD_DP_CFG_TPS_MAX (h : Nat) : Fld := ⟨R.HEAD_DP_CFG h, 8, 2⟩
abbrev F.HEAD_DP_CFG_LINK_ON (h : Nat) : Fld := ⟨R.HEAD_DP_CFG h, 7, 1⟩
abbrev F.HEAD_DP_CFG_LANE_REV (h : Nat) : Fld := ⟨R.HEAD_DP_CFG h, 6, 1⟩
abbrev F.HEAD_DP_CFG_ENH (h : Nat) : Fld := ⟨R.HEAD_DP_CFG h, 5, 1⟩
abbrev F.HEAD_DP_CFG_SSC (h : Nat) : Fld := ⟨R.HEAD_DP_CFG h, 4, 1⟩
abbrev F.HEAD_DP_CFG_RATE (h : Nat) : Fld := ⟨R.HEAD_DP_CFG h, 2, 2⟩
abbrev F.HEAD_DP_CFG_LANES (h : Nat) : Fld := ⟨R.HEAD_DP_CFG h, 0, 2⟩
abbrev R.HEAD_DP_CMD (h : Nat) : Nat := 0x104004 + 0x10000 * h
abbrev F.HEAD_DP_CMD_TRAIN (h : Nat) : Fld := ⟨R.HEAD_DP_CMD h, 0, 1⟩
abbrev R.HEAD_DP_STATUS (h : Nat) : Nat := 0x104008 + 0x10000 * h
abbrev F.HEAD_DP_STATUS_TRAIN_STATE (h : Nat) : Fld := ⟨R.HEAD_DP_STATUS h, 8, 4⟩
abbrev F.HEAD_DP_STATUS_AUX_BUSY (h : Nat) : Fld := ⟨R.HEAD_DP_STATUS h, 7, 1⟩
abbrev F.HEAD_DP_STATUS_IRQ_EVT (h : Nat) : Fld := ⟨R.HEAD_DP_STATUS h, 4, 1⟩
abbrev F.HEAD_DP_STATUS_UNPLUG_EVT (h : Nat) : Fld := ⟨R.HEAD_DP_STATUS h, 3, 1⟩
abbrev F.HEAD_DP_STATUS_PLUG_EVT (h : Nat) : Fld := ⟨R.HEAD_DP_STATUS h, 2, 1⟩
abbrev F.HEAD_DP_STATUS_PLUGGED (h : Nat) : Fld := ⟨R.HEAD_DP_STATUS h, 1, 1⟩
abbrev F.HEAD_DP_STATUS_HPD_LEVEL (h : Nat) : Fld := ⟨R.HEAD_DP_STATUS h, 0, 1⟩
abbrev R.HEAD_AUX_CMD (h : Nat) : Nat := 0x104010 + 0x10000 * h
abbrev F.HEAD_AUX_CMD_REQ (h : Nat) : Fld := ⟨R.HEAD_AUX_CMD h, 28, 4⟩
abbrev F.HEAD_AUX_CMD_ADDR (h : Nat) : Fld := ⟨R.HEAD_AUX_CMD h, 8, 20⟩
abbrev F.HEAD_AUX_CMD_LEN_M1 (h : Nat) : Fld := ⟨R.HEAD_AUX_CMD h, 4, 4⟩
abbrev F.HEAD_AUX_CMD_ADDR_ONLY (h : Nat) : Fld := ⟨R.HEAD_AUX_CMD h, 1, 1⟩
abbrev F.HEAD_AUX_CMD_GO (h : Nat) : Fld := ⟨R.HEAD_AUX_CMD h, 0, 1⟩
abbrev R.HEAD_AUX_DATA (h n : Nat) : Nat := 0x104014 + 0x10000 * h + 0x4 * n
abbrev R.HEAD_AUX_STATUS (h : Nat) : Nat := 0x104024 + 0x10000 * h
abbrev F.HEAD_AUX_STATUS_RCOUNT (h : Nat) : Fld := ⟨R.HEAD_AUX_STATUS h, 8, 5⟩
abbrev F.HEAD_AUX_STATUS_REPLY (h : Nat) : Fld := ⟨R.HEAD_AUX_STATUS h, 4, 4⟩
abbrev F.HEAD_AUX_STATUS_TIMEOUT (h : Nat) : Fld := ⟨R.HEAD_AUX_STATUS h, 2, 1⟩
abbrev F.HEAD_AUX_STATUS_FRAMING (h : Nat) : Fld := ⟨R.HEAD_AUX_STATUS h, 1, 1⟩
abbrev F.HEAD_AUX_STATUS_DONE (h : Nat) : Fld := ⟨R.HEAD_AUX_STATUS h, 0, 1⟩
abbrev R.GAL_CTRL : Nat := 0x180000
abbrev F.GAL_CTRL_XP_HOLD : Fld := ⟨R.GAL_CTRL, 2, 1⟩
abbrev F.GAL_CTRL_ENABLE : Fld := ⟨R.GAL_CTRL, 0, 1⟩
abbrev R.GAL_FRAME : Nat := 0x180008
abbrev R.GAL_OWN : Nat := 0x18000c
abbrev F.GAL_OWN_S : Fld := ⟨R.GAL_OWN, 4, 1⟩
abbrev F.GAL_OWN_OWNER : Fld := ⟨R.GAL_OWN, 0, 4⟩
abbrev R.GAL_OUT_SAT : Nat := 0x180010
abbrev R.GAL_TDM_CFG (p : Nat) : Nat := 0x180100 + 0x10 * p
abbrev F.GAL_TDM_CFG_MCLK_EN (p : Nat) : Fld := ⟨R.GAL_TDM_CFG p, 6, 1⟩
abbrev F.GAL_TDM_CFG_FS_WIDTH (p : Nat) : Fld := ⟨R.GAL_TDM_CFG p, 5, 1⟩
abbrev F.GAL_TDM_CFG_FS_DELAY (p : Nat) : Fld := ⟨R.GAL_TDM_CFG p, 4, 1⟩
abbrev F.GAL_TDM_CFG_SLOTS (p : Nat) : Fld := ⟨R.GAL_TDM_CFG p, 2, 2⟩
abbrev F.GAL_TDM_CFG_MODE (p : Nat) : Fld := ⟨R.GAL_TDM_CFG p, 1, 1⟩
abbrev F.GAL_TDM_CFG_EN (p : Nat) : Fld := ⟨R.GAL_TDM_CFG p, 0, 1⟩
abbrev R.GAL_TDM_IN (j : Nat) : Nat := 0x180180 + 0x4 * j
abbrev F.GAL_TDM_IN_EN (j : Nat) : Fld := ⟨R.GAL_TDM_IN j, 7, 1⟩
abbrev F.GAL_TDM_IN_PORT (j : Nat) : Fld := ⟨R.GAL_TDM_IN j, 4, 2⟩
abbrev F.GAL_TDM_IN_SLOT (j : Nat) : Fld := ⟨R.GAL_TDM_IN j, 0, 4⟩
abbrev R.GAL_TONE_CFG (c : Nat) : Nat := 0x180200 + 0x40 * c
abbrev F.GAL_TONE_CFG_LEVEL (c : Nat) : Fld := ⟨R.GAL_TONE_CFG c, 16, 16⟩
abbrev F.GAL_TONE_CFG_WTABLE (c : Nat) : Fld := ⟨R.GAL_TONE_CFG c, 12, 4⟩
abbrev F.GAL_TONE_CFG_ACT (c : Nat) : Fld := ⟨R.GAL_TONE_CFG c, 8, 2⟩
abbrev F.GAL_TONE_CFG_CAD_LOOP (c : Nat) : Fld := ⟨R.GAL_TONE_CFG c, 7, 1⟩
abbrev F.GAL_TONE_CFG_CAD_EN (c : Nat) : Fld := ⟨R.GAL_TONE_CFG c, 6, 1⟩
abbrev F.GAL_TONE_CFG_WAVE (c : Nat) : Fld := ⟨R.GAL_TONE_CFG c, 0, 3⟩
abbrev R.GAL_TONE_INC_A (c : Nat) : Nat := 0x180204 + 0x40 * c
abbrev R.GAL_TONE_INC_B (c : Nat) : Nat := 0x180208 + 0x40 * c
abbrev R.GAL_TONE_ATTACK (c : Nat) : Nat := 0x18020c + 0x40 * c
abbrev F.GAL_TONE_ATTACK_VALUE (c : Nat) : Fld := ⟨R.GAL_TONE_ATTACK c, 0, 24⟩
abbrev R.GAL_TONE_DECAY (c : Nat) : Nat := 0x180210 + 0x40 * c
abbrev F.GAL_TONE_DECAY_VALUE (c : Nat) : Fld := ⟨R.GAL_TONE_DECAY c, 0, 24⟩
abbrev R.GAL_TONE_RELEASE (c : Nat) : Nat := 0x180214 + 0x40 * c
abbrev F.GAL_TONE_RELEASE_VALUE (c : Nat) : Fld := ⟨R.GAL_TONE_RELEASE c, 0, 24⟩
abbrev R.GAL_TONE_SUSTAIN (c : Nat) : Nat := 0x180218 + 0x40 * c
abbrev F.GAL_TONE_SUSTAIN_VALUE (c : Nat) : Fld := ⟨R.GAL_TONE_SUSTAIN c, 0, 24⟩
abbrev R.GAL_TONE_CTRL (c : Nat) : Nat := 0x18021c + 0x40 * c
abbrev F.GAL_TONE_CTRL_KEY_OFF (c : Nat) : Fld := ⟨R.GAL_TONE_CTRL c, 1, 1⟩
abbrev F.GAL_TONE_CTRL_KEY_ON (c : Nat) : Fld := ⟨R.GAL_TONE_CTRL c, 0, 1⟩
abbrev R.GAL_TONE_STATUS (c : Nat) : Nat := 0x180220 + 0x40 * c
abbrev F.GAL_TONE_STATUS_CAD_RUN (c : Nat) : Fld := ⟨R.GAL_TONE_STATUS c, 31, 1⟩
abbrev F.GAL_TONE_STATUS_CAD_STEP (c : Nat) : Fld := ⟨R.GAL_TONE_STATUS c, 28, 3⟩
abbrev F.GAL_TONE_STATUS_STATE (c : Nat) : Fld := ⟨R.GAL_TONE_STATUS c, 24, 3⟩
abbrev F.GAL_TONE_STATUS_ENV (c : Nat) : Fld := ⟨R.GAL_TONE_STATUS c, 0, 24⟩
abbrev R.GAL_TONE_CAD (c k : Nat) : Nat := 0x180a00 + 0x20 * c + 0x4 * k
abbrev F.GAL_TONE_CAD_KEY (c k : Nat) : Fld := ⟨R.GAL_TONE_CAD c k, 31, 1⟩
abbrev F.GAL_TONE_CAD_TONE_B (c k : Nat) : Fld := ⟨R.GAL_TONE_CAD c k, 30, 1⟩
abbrev F.GAL_TONE_CAD_DURATION (c k : Nat) : Fld := ⟨R.GAL_TONE_CAD c k, 0, 16⟩
abbrev R.GAL_OUT_CFG (o : Nat) : Nat := 0x181000 + 0x4 * o
abbrev F.GAL_OUT_CFG_EN (o : Nat) : Fld := ⟨R.GAL_OUT_CFG o, 7, 1⟩
abbrev F.GAL_OUT_CFG_PORT (o : Nat) : Fld := ⟨R.GAL_OUT_CFG o, 4, 2⟩
abbrev F.GAL_OUT_CFG_SLOT (o : Nat) : Fld := ⟨R.GAL_OUT_CFG o, 0, 4⟩
abbrev R.GAL_OUT_PEAK (o : Nat) : Nat := 0x181080 + 0x4 * o
abbrev F.GAL_OUT_PEAK_PEAK (o : Nat) : Fld := ⟨R.GAL_OUT_PEAK o, 0, 24⟩
abbrev R.GAL_XP (o i : Nat) : Nat := 0x182000 + 0x100 * o + 0x4 * i
abbrev F.GAL_XP_CURRENT (o i : Nat) : Fld := ⟨R.GAL_XP o i, 16, 16⟩
abbrev F.GAL_XP_TARGET (o i : Nat) : Fld := ⟨R.GAL_XP o i, 0, 16⟩
abbrev R.GAL_BQ_B0 (k : Nat) : Nat := 0x184000 + 0x20 * k
abbrev R.GAL_BQ_B1 (k : Nat) : Nat := 0x184004 + 0x20 * k
abbrev R.GAL_BQ_B2 (k : Nat) : Nat := 0x184008 + 0x20 * k
abbrev R.GAL_BQ_A1 (k : Nat) : Nat := 0x18400c + 0x20 * k
abbrev R.GAL_BQ_A2 (k : Nat) : Nat := 0x184010 + 0x20 * k
abbrev R.GAL_BQ_CTL (k : Nat) : Nat := 0x184014 + 0x20 * k
abbrev F.GAL_BQ_CTL_CLEAR (k : Nat) : Fld := ⟨R.GAL_BQ_CTL k, 1, 1⟩
abbrev F.GAL_BQ_CTL_BYPASS (k : Nat) : Fld := ⟨R.GAL_BQ_CTL k, 0, 1⟩
abbrev R.GAL_STR_BASE (s : Nat) : Nat := 0x186000 + 0x20 * s
abbrev F.GAL_STR_BASE_ADDR (s : Nat) : Fld := ⟨R.GAL_STR_BASE s, 6, 38⟩
abbrev R.GAL_STR_CFG (s : Nat) : Nat := 0x186008 + 0x20 * s
abbrev F.GAL_STR_CFG_QUEUE (s : Nat) : Fld := ⟨R.GAL_STR_CFG s, 16, 6⟩
abbrev F.GAL_STR_CFG_OWNER (s : Nat) : Fld := ⟨R.GAL_STR_CFG s, 12, 4⟩
abbrev F.GAL_STR_CFG_ATTR_S (s : Nat) : Fld := ⟨R.GAL_STR_CFG s, 11, 1⟩
abbrev F.GAL_STR_CFG_SIZE_LOG2 (s : Nat) : Fld := ⟨R.GAL_STR_CFG s, 4, 4⟩
abbrev F.GAL_STR_CFG_DB_ERR (s : Nat) : Fld := ⟨R.GAL_STR_CFG s, 3, 1⟩
abbrev F.GAL_STR_CFG_CANCEL (s : Nat) : Fld := ⟨R.GAL_STR_CFG s, 2, 1⟩
abbrev F.GAL_STR_CFG_BUSY (s : Nat) : Fld := ⟨R.GAL_STR_CFG s, 1, 1⟩
abbrev F.GAL_STR_CFG_ENABLE (s : Nat) : Fld := ⟨R.GAL_STR_CFG s, 0, 1⟩
abbrev R.GAL_STR_DB (s : Nat) : Nat := 0x18600c + 0x20 * s
abbrev F.GAL_STR_DB_PROD_IDX (s : Nat) : Fld := ⟨R.GAL_STR_DB s, 0, 16⟩
abbrev R.GAL_STR_CONS (s : Nat) : Nat := 0x186010 + 0x20 * s
abbrev F.GAL_STR_CONS_CONS_IDX (s : Nat) : Fld := ⟨R.GAL_STR_CONS s, 0, 16⟩
abbrev R.GAL_STR_FMT (s : Nat) : Nat := 0x186014 + 0x20 * s
abbrev F.GAL_STR_FMT_FMT (s : Nat) : Fld := ⟨R.GAL_STR_FMT s, 17, 1⟩
abbrev F.GAL_STR_FMT_DIR (s : Nat) : Fld := ⟨R.GAL_STR_FMT s, 16, 1⟩
abbrev F.GAL_STR_FMT_CHANNELS (s : Nat) : Fld := ⟨R.GAL_STR_FMT s, 8, 5⟩
abbrev F.GAL_STR_FMT_FIRST (s : Nat) : Fld := ⟨R.GAL_STR_FMT s, 0, 5⟩
abbrev R.GAL_STR_STATUS (s : Nat) : Nat := 0x186018 + 0x20 * s
abbrev F.GAL_STR_STATUS_HALTED (s : Nat) : Fld := ⟨R.GAL_STR_STATUS s, 2, 1⟩
abbrev F.GAL_STR_STATUS_LATE (s : Nat) : Fld := ⟨R.GAL_STR_STATUS s, 1, 1⟩
abbrev R.GAL_STR_GAP (s : Nat) : Nat := 0x18601c + 0x20 * s
abbrev R.GAL_WT (w i : Nat) : Nat := 0x188000 + 0x400 * w + 0x4 * i
abbrev F.GAL_WT_SAMPLE (w i : Nat) : Fld := ⟨R.GAL_WT w i, 0, 24⟩
abbrev R.HSE_CTRL : Nat := 0x190000
abbrev F.HSE_CTRL_RESTART : Fld := ⟨R.HSE_CTRL, 2, 1⟩
abbrev F.HSE_CTRL_ATTR_S : Fld := ⟨R.HSE_CTRL, 1, 1⟩
abbrev F.HSE_CTRL_ENABLE : Fld := ⟨R.HSE_CTRL, 0, 1⟩
abbrev R.HSE_STATUS : Nat := 0x190004
abbrev F.HSE_STATUS_NO_MODEL : Fld := ⟨R.HSE_STATUS, 6, 1⟩
abbrev F.HSE_STATUS_PARAM_PENDING : Fld := ⟨R.HSE_STATUS, 5, 1⟩
abbrev F.HSE_STATUS_OVERRUN : Fld := ⟨R.HSE_STATUS, 4, 1⟩
abbrev F.HSE_STATUS_PUBLISH_ERR : Fld := ⟨R.HSE_STATUS, 3, 1⟩
abbrev F.HSE_STATUS_BASE_ERR : Fld := ⟨R.HSE_STATUS, 2, 1⟩
abbrev F.HSE_STATUS_PUBLISHED : Fld := ⟨R.HSE_STATUS, 1, 1⟩
abbrev F.HSE_STATUS_RUNNING : Fld := ⟨R.HSE_STATUS, 0, 1⟩
abbrev R.HSE_RESULT_BASE : Nat := 0x190008
abbrev F.HSE_RESULT_BASE_ADDR : Fld := ⟨R.HSE_RESULT_BASE, 12, 20⟩
abbrev R.HSE_PARAM_RHO_LO : Nat := 0x190010
abbrev R.HSE_PARAM_RHO_HI : Nat := 0x190014
abbrev R.HSE_PARAM_SET : Nat := 0x190018
abbrev F.HSE_PARAM_SET_LIMIT_SET : Fld := ⟨R.HSE_PARAM_SET, 0, 1⟩
abbrev R.HSE_PARAM_EPOCH : Nat := 0x19001c
abbrev R.HSE_PARAM_CMD : Nat := 0x190020
abbrev F.HSE_PARAM_CMD_COMMIT : Fld := ⟨R.HSE_PARAM_CMD, 0, 1⟩
abbrev R.HSE_EPOCH_LO : Nat := 0x190024
abbrev R.HSE_EPOCH_HI : Nat := 0x190028
abbrev R.HSE_OVERRUN_COUNT : Nat := 0x19002c
abbrev R.HSE_LATENCY : Nat := 0x190030
abbrev F.HSE_LATENCY_MAX : Fld := ⟨R.HSE_LATENCY, 16, 16⟩
abbrev F.HSE_LATENCY_LAST : Fld := ⟨R.HSE_LATENCY, 0, 16⟩
abbrev R.HSE_INPUT_ERR_COUNT : Nat := 0x190034
abbrev R.HSE_INPUT_ERR_LAST : Nat := 0x190038
abbrev F.HSE_INPUT_ERR_LAST_CAUSE : Fld := ⟨R.HSE_INPUT_ERR_LAST, 16, 3⟩
abbrev F.HSE_INPUT_ERR_LAST_INPUT : Fld := ⟨R.HSE_INPUT_ERR_LAST, 12, 2⟩
abbrev F.HSE_INPUT_ERR_LAST_TANK : Fld := ⟨R.HSE_INPUT_ERR_LAST, 0, 9⟩
abbrev R.HSE_SWP_BASE (n : Nat) : Nat := 0x190100 + 0x20 * n
abbrev F.HSE_SWP_BASE_ADDR (n : Nat) : Fld := ⟨R.HSE_SWP_BASE n, 6, 38⟩
abbrev R.HSE_SWP_CFG (n : Nat) : Nat := 0x190108 + 0x20 * n
abbrev F.HSE_SWP_CFG_QUEUE (n : Nat) : Fld := ⟨R.HSE_SWP_CFG n, 16, 6⟩
abbrev F.HSE_SWP_CFG_OWNER (n : Nat) : Fld := ⟨R.HSE_SWP_CFG n, 12, 4⟩
abbrev F.HSE_SWP_CFG_ATTR_S (n : Nat) : Fld := ⟨R.HSE_SWP_CFG n, 11, 1⟩
abbrev F.HSE_SWP_CFG_SIZE_LOG2 (n : Nat) : Fld := ⟨R.HSE_SWP_CFG n, 4, 4⟩
abbrev F.HSE_SWP_CFG_DB_ERR (n : Nat) : Fld := ⟨R.HSE_SWP_CFG n, 3, 1⟩
abbrev F.HSE_SWP_CFG_CANCEL (n : Nat) : Fld := ⟨R.HSE_SWP_CFG n, 2, 1⟩
abbrev F.HSE_SWP_CFG_BUSY (n : Nat) : Fld := ⟨R.HSE_SWP_CFG n, 1, 1⟩
abbrev F.HSE_SWP_CFG_ENABLE (n : Nat) : Fld := ⟨R.HSE_SWP_CFG n, 0, 1⟩
abbrev R.HSE_SWP_DB (n : Nat) : Nat := 0x190110 + 0x20 * n
abbrev F.HSE_SWP_DB_PROD_IDX (n : Nat) : Fld := ⟨R.HSE_SWP_DB n, 0, 16⟩
abbrev R.HSE_SWP_CONS (n : Nat) : Nat := 0x190114 + 0x20 * n
abbrev F.HSE_SWP_CONS_CONS_IDX (n : Nat) : Fld := ⟨R.HSE_SWP_CONS n, 0, 16⟩
abbrev R.HSE_BASE_ADDR : Nat := 0x190200
abbrev F.HSE_BASE_ADDR_ADDR : Fld := ⟨R.HSE_BASE_ADDR, 15, 29⟩
abbrev R.HSE_BASE_CMD : Nat := 0x190208
abbrev F.HSE_BASE_CMD_VALID : Fld := ⟨R.HSE_BASE_CMD, 4, 4⟩
abbrev F.HSE_BASE_CMD_SLOT : Fld := ⟨R.HSE_BASE_CMD, 2, 2⟩
abbrev F.HSE_BASE_CMD_CLEAR : Fld := ⟨R.HSE_BASE_CMD, 1, 1⟩
abbrev F.HSE_BASE_CMD_CAPTURE : Fld := ⟨R.HSE_BASE_CMD, 0, 1⟩
abbrev R.HSE_BASE_EPOCH (n : Nat) : Nat := 0x190210 + 0x8 * n
abbrev R.HSE_ST_ADDR : Nat := 0x190300
abbrev F.HSE_ST_ADDR_ADDR : Fld := ⟨R.HSE_ST_ADDR, 6, 38⟩
abbrev R.HSE_ST_CMD : Nat := 0x190308
abbrev F.HSE_ST_CMD_START : Fld := ⟨R.HSE_ST_CMD, 0, 1⟩
abbrev R.HSE_ST_STATUS : Nat := 0x19030c
abbrev F.HSE_ST_STATUS_FIRST_FAIL : Fld := ⟨R.HSE_ST_STATUS, 24, 8⟩
abbrev F.HSE_ST_STATUS_PASSED : Fld := ⟨R.HSE_ST_STATUS, 16, 8⟩
abbrev F.HSE_ST_STATUS_RUN : Fld := ⟨R.HSE_ST_STATUS, 8, 8⟩
abbrev F.HSE_ST_STATUS_STATE : Fld := ⟨R.HSE_ST_STATUS, 0, 3⟩
abbrev R.HSE_ADOPT : Nat := 0x190400
abbrev F.HSE_ADOPT_STATE : Fld := ⟨R.HSE_ADOPT, 4, 3⟩
abbrev F.HSE_ADOPT_SOURCE : Fld := ⟨R.HSE_ADOPT, 2, 2⟩
abbrev F.HSE_ADOPT_ARM : Fld := ⟨R.HSE_ADOPT, 0, 1⟩
abbrev R.HSE_ADOPT_EPOCH : Nat := 0x190404
abbrev R.HSE_CTS_ACCESS : Nat := 0x190800
abbrev F.HSE_CTS_ACCESS_WRITE_S : Fld := ⟨R.HSE_CTS_ACCESS, 4, 1⟩
abbrev F.HSE_CTS_ACCESS_WRITE_OWNER : Fld := ⟨R.HSE_CTS_ACCESS, 0, 4⟩
abbrev R.HSE_CTS_ERR : Nat := 0x190808
abbrev F.HSE_CTS_ERR_LAST_CAUSE : Fld := ⟨R.HSE_CTS_ERR, 30, 2⟩
abbrev F.HSE_CTS_ERR_LAST_ENTRY : Fld := ⟨R.HSE_CTS_ERR, 0, 16⟩
abbrev R.HSE_CTS_ERR_COUNT : Nat := 0x19080c
abbrev R.HSE_MODEL_NEXT : Nat := 0x190810
abbrev F.HSE_MODEL_NEXT_BANK : Fld := ⟨R.HSE_MODEL_NEXT, 0, 9⟩
abbrev R.HSE_MODEL_CMD : Nat := 0x190814
abbrev F.HSE_MODEL_CMD_RELEASE_S : Fld := ⟨R.HSE_MODEL_CMD, 6, 1⟩
abbrev F.HSE_MODEL_CMD_RELEASE_OWNER : Fld := ⟨R.HSE_MODEL_CMD, 2, 4⟩
abbrev F.HSE_MODEL_CMD_RELEASE : Fld := ⟨R.HSE_MODEL_CMD, 1, 1⟩
abbrev F.HSE_MODEL_CMD_VALIDATE : Fld := ⟨R.HSE_MODEL_CMD, 0, 1⟩
abbrev R.HSE_MODEL_SWITCH : Nat := 0x190818
abbrev R.HSE_MODEL_ARM : Nat := 0x19081c
abbrev F.HSE_MODEL_ARM_DISARM : Fld := ⟨R.HSE_MODEL_ARM, 1, 1⟩
abbrev F.HSE_MODEL_ARM_ARM : Fld := ⟨R.HSE_MODEL_ARM, 0, 1⟩
abbrev R.HSE_MODEL_STATUS : Nat := 0x190820
abbrev F.HSE_MODEL_STATUS_MODEL_LOST : Fld := ⟨R.HSE_MODEL_STATUS, 31, 1⟩
abbrev F.HSE_MODEL_STATUS_ACTIVE_VALID : Fld := ⟨R.HSE_MODEL_STATUS, 30, 1⟩
abbrev F.HSE_MODEL_STATUS_VAL_STATE : Fld := ⟨R.HSE_MODEL_STATUS, 24, 3⟩
abbrev F.HSE_MODEL_STATUS_VAL_CODE : Fld := ⟨R.HSE_MODEL_STATUS, 16, 8⟩
abbrev F.HSE_MODEL_STATUS_ACTIVE_BANK : Fld := ⟨R.HSE_MODEL_STATUS, 0, 9⟩
abbrev R.HSE_MODEL_ID : Nat := 0x190824
abbrev R.HSE_MODEL_VAL_DETAIL : Nat := 0x190828
abbrev F.HSE_MODEL_VAL_DETAIL_ITEM : Fld := ⟨R.HSE_MODEL_VAL_DETAIL, 16, 16⟩
abbrev F.HSE_MODEL_VAL_DETAIL_ENTRY : Fld := ⟨R.HSE_MODEL_VAL_DETAIL, 0, 16⟩
abbrev R.POOL_BANK_OWN (n : Nat) : Nat := 0x1a0000 + 0x8 * n
abbrev F.POOL_BANK_OWN_HANDOVER (n : Nat) : Fld := ⟨R.POOL_BANK_OWN n, 31, 1⟩
abbrev F.POOL_BANK_OWN_RET_S (n : Nat) : Fld := ⟨R.POOL_BANK_OWN n, 9, 1⟩
abbrev F.POOL_BANK_OWN_RET_OWNER (n : Nat) : Fld := ⟨R.POOL_BANK_OWN n, 5, 4⟩
abbrev F.POOL_BANK_OWN_S (n : Nat) : Fld := ⟨R.POOL_BANK_OWN n, 4, 1⟩
abbrev F.POOL_BANK_OWN_OWNER (n : Nat) : Fld := ⟨R.POOL_BANK_OWN n, 0, 4⟩
abbrev R.POOL_BANK_GRANT (n : Nat) : Nat := 0x1a0004 + 0x8 * n
abbrev F.POOL_BANK_GRANT_READ_GRANT (n : Nat) : Fld := ⟨R.POOL_BANK_GRANT n, 16, 16⟩
abbrev F.POOL_BANK_GRANT_PEER_WR (n : Nat) : Fld := ⟨R.POOL_BANK_GRANT n, 12, 4⟩
abbrev F.POOL_BANK_GRANT_PEER_RD (n : Nat) : Fld := ⟨R.POOL_BANK_GRANT n, 8, 4⟩
abbrev R.POOL_BANK_STATE (n : Nat) : Nat := 0x1a1000 + 0x4 * n
abbrev F.POOL_BANK_STATE_CE_COUNT (n : Nat) : Fld := ⟨R.POOL_BANK_STATE n, 16, 16⟩
abbrev F.POOL_BANK_STATE_SPARE (n : Nat) : Fld := ⟨R.POOL_BANK_STATE n, 8, 3⟩
abbrev F.POOL_BANK_STATE_STATE (n : Nat) : Fld := ⟨R.POOL_BANK_STATE n, 0, 2⟩
abbrev R.POOL_CE_THRESH : Nat := 0x1a2000
abbrev F.POOL_CE_THRESH_THRESH : Fld := ⟨R.POOL_CE_THRESH, 0, 16⟩
abbrev R.POOL_SCRUB : Nat := 0x1a2004
abbrev F.POOL_SCRUB_ENABLE : Fld := ⟨R.POOL_SCRUB, 31, 1⟩
abbrev F.POOL_SCRUB_SCRUB_SLOW : Fld := ⟨R.POOL_SCRUB, 30, 1⟩
abbrev F.POOL_SCRUB_PASS_MS : Fld := ⟨R.POOL_SCRUB, 0, 16⟩
abbrev R.POOL_SPARE : Nat := 0x1a2008
abbrev F.POOL_SPARE_EXHAUSTED : Fld := ⟨R.POOL_SPARE, 8, 1⟩
abbrev F.POOL_SPARE_USED : Fld := ⟨R.POOL_SPARE, 0, 8⟩
abbrev R.POOL_VIOL_COUNT : Nat := 0x1a2010
abbrev R.POOL_VIOL_LAST : Nat := 0x1a2014
abbrev F.POOL_VIOL_LAST_WRITE : Fld := ⟨R.POOL_VIOL_LAST, 31, 1⟩
abbrev F.POOL_VIOL_LAST_S : Fld := ⟨R.POOL_VIOL_LAST, 30, 1⟩
abbrev F.POOL_VIOL_LAST_BANK : Fld := ⟨R.POOL_VIOL_LAST, 16, 9⟩
abbrev F.POOL_VIOL_LAST_TAG : Fld := ⟨R.POOL_VIOL_LAST, 0, 9⟩
abbrev R.POOL_BUSY : Nat := 0x1a2018
abbrev F.POOL_BUSY_BUSY : Fld := ⟨R.POOL_BUSY, 0, 16⟩
abbrev R.POOL_BUSY_LAST : Nat := 0x1a201c
abbrev F.POOL_BUSY_LAST_BANK : Fld := ⟨R.POOL_BUSY_LAST, 16, 9⟩
abbrev F.POOL_BUSY_LAST_WORD : Fld := ⟨R.POOL_BUSY_LAST, 0, 16⟩
abbrev R.POOL_ERR_LAST : Nat := 0x1a2020
abbrev F.POOL_ERR_LAST_KIND : Fld := ⟨R.POOL_ERR_LAST, 30, 2⟩
abbrev F.POOL_ERR_LAST_BANK : Fld := ⟨R.POOL_ERR_LAST, 16, 9⟩
abbrev F.POOL_ERR_LAST_WORD : Fld := ⟨R.POOL_ERR_LAST, 0, 16⟩
abbrev R.POOL_UE_COUNT : Nat := 0x1a2024
abbrev R.POOL_FAIL_LAST : Nat := 0x1a2028
abbrev F.POOL_FAIL_LAST_VALID : Fld := ⟨R.POOL_FAIL_LAST, 31, 1⟩
abbrev F.POOL_FAIL_LAST_BANK : Fld := ⟨R.POOL_FAIL_LAST, 16, 9⟩
abbrev F.POOL_FAIL_LAST_S : Fld := ⟨R.POOL_FAIL_LAST, 4, 1⟩
abbrev F.POOL_FAIL_LAST_OWNER : Fld := ⟨R.POOL_FAIL_LAST, 0, 4⟩
abbrev R.CST_ID : Nat := 0x1b0000
abbrev F.CST_ID_POS : Fld := ⟨R.CST_ID, 0, 2⟩
abbrev R.CST_GROUP : Nat := 0x1b0004
abbrev F.CST_GROUP_MEMBERS : Fld := ⟨R.CST_GROUP, 16, 4⟩
abbrev F.CST_GROUP_GROUP_ID : Fld := ⟨R.CST_GROUP, 0, 16⟩
abbrev R.CST_GROUP_CMD : Nat := 0x1b0008
abbrev F.CST_GROUP_CMD_LEAVE : Fld := ⟨R.CST_GROUP_CMD, 1, 1⟩
abbrev F.CST_GROUP_CMD_FORM : Fld := ⟨R.CST_GROUP_CMD, 0, 1⟩
abbrev R.CST_GROUP_STATUS : Nat := 0x1b000c
abbrev F.CST_GROUP_STATUS_OFFSET : Fld := ⟨R.CST_GROUP_STATUS, 16, 16⟩
abbrev F.CST_GROUP_STATUS_LIVE : Fld := ⟨R.CST_GROUP_STATUS, 12, 4⟩
abbrev F.CST_GROUP_STATUS_LEADER : Fld := ⟨R.CST_GROUP_STATUS, 10, 2⟩
abbrev F.CST_GROUP_STATUS_TIME_ALIGNED : Fld := ⟨R.CST_GROUP_STATUS, 9, 1⟩
abbrev F.CST_GROUP_STATUS_STATE : Fld := ⟨R.CST_GROUP_STATUS, 0, 3⟩
abbrev R.CST_TICK : Nat := 0x1b0010
abbrev F.CST_TICK_PERIOD_US : Fld := ⟨R.CST_TICK, 0, 20⟩
abbrev R.CST_TICK_AT : Nat := 0x1b0014
abbrev R.CST_EPOCH : Nat := 0x1b0018
abbrev R.CST_VOTE_LAST : Nat := 0x1b0020
abbrev F.CST_VOTE_LAST_EPOCH_LO : Fld := ⟨R.CST_VOTE_LAST, 32, 32⟩
abbrev F.CST_VOTE_LAST_VOTE : Fld := ⟨R.CST_VOTE_LAST, 0, 32⟩
abbrev R.CST_VOTE_DISCARD : Nat := 0x1b0028
abbrev R.CST_VOTE_FAIL_COUNT : Nat := 0x1b002c
abbrev R.CST_BAR_CFG (n : Nat) : Nat := 0x1b0100 + 0x4 * n
abbrev F.CST_BAR_CFG_TIMEOUT_US (n : Nat) : Fld := ⟨R.CST_BAR_CFG n, 24, 8⟩
abbrev F.CST_BAR_CFG_SCOPE (n : Nat) : Fld := ⟨R.CST_BAR_CFG n, 17, 2⟩
abbrev F.CST_BAR_CFG_CLUSTER (n : Nat) : Fld := ⟨R.CST_BAR_CFG n, 14, 3⟩
abbrev F.CST_BAR_CFG_EXPECT (n : Nat) : Fld := ⟨R.CST_BAR_CFG n, 0, 7⟩
abbrev R.CST_BCAST_DATA : Nat := 0x1b0200
abbrev R.CST_BCAST_ADDR : Nat := 0x1b0208
abbrev F.CST_BCAST_ADDR_ADDR : Fld := ⟨R.CST_BCAST_ADDR, 0, 44⟩
abbrev R.CST_BCAST_EPOCH : Nat := 0x1b0210
abbrev R.CST_BCAST_CMD : Nat := 0x1b0218
abbrev F.CST_BCAST_CMD_GROUP : Fld := ⟨R.CST_BCAST_CMD, 8, 1⟩
abbrev F.CST_BCAST_CMD_MAILBOX : Fld := ⟨R.CST_BCAST_CMD, 4, 4⟩
abbrev F.CST_BCAST_CMD_SIZE8 : Fld := ⟨R.CST_BCAST_CMD, 3, 1⟩
abbrev F.CST_BCAST_CMD_KIND : Fld := ⟨R.CST_BCAST_CMD, 2, 1⟩
abbrev F.CST_BCAST_CMD_GO : Fld := ⟨R.CST_BCAST_CMD, 0, 1⟩
abbrev R.CST_BCAST_STATUS : Nat := 0x1b021c
abbrev F.CST_BCAST_STATUS_LATE : Fld := ⟨R.CST_BCAST_STATUS, 9, 1⟩
abbrev F.CST_BCAST_STATUS_NACK : Fld := ⟨R.CST_BCAST_STATUS, 4, 4⟩
abbrev R.CST_BCAST_PENDING : Nat := 0x1b0220
abbrev F.CST_BCAST_PENDING_COUNT : Fld := ⟨R.CST_BCAST_PENDING, 0, 5⟩
abbrev R.CST_MAILBOX (m : Nat) : Nat := 0x1b0300 + 0x8 * m
abbrev R.CST_MAILBOX_SRC : Nat := 0x1b0380
abbrev R.CST_SNAP_SRC (n : Nat) : Nat := 0x1b0400 + 0x20 * n
abbrev F.CST_SNAP_SRC_ADDR (n : Nat) : Fld := ⟨R.CST_SNAP_SRC n, 6, 38⟩
abbrev R.CST_SNAP_DST (n : Nat) : Nat := 0x1b0408 + 0x20 * n
abbrev F.CST_SNAP_DST_ADDR (n : Nat) : Fld := ⟨R.CST_SNAP_DST n, 6, 38⟩
abbrev R.CST_SNAP_CFG (n : Nat) : Nat := 0x1b0410 + 0x20 * n
abbrev F.CST_SNAP_CFG_LEN (n : Nat) : Fld := ⟨R.CST_SNAP_CFG n, 10, 11⟩
abbrev F.CST_SNAP_CFG_OWNER (n : Nat) : Fld := ⟨R.CST_SNAP_CFG n, 6, 4⟩
abbrev F.CST_SNAP_CFG_ATTR_S (n : Nat) : Fld := ⟨R.CST_SNAP_CFG n, 5, 1⟩
abbrev F.CST_SNAP_CFG_GROUP (n : Nat) : Fld := ⟨R.CST_SNAP_CFG n, 4, 1⟩
abbrev F.CST_SNAP_CFG_MODE (n : Nat) : Fld := ⟨R.CST_SNAP_CFG n, 2, 2⟩
abbrev F.CST_SNAP_CFG_ARMED (n : Nat) : Fld := ⟨R.CST_SNAP_CFG n, 1, 1⟩
abbrev R.CST_SNAP_ARM : Nat := 0x1b0500
abbrev F.CST_SNAP_ARM_ARM : Fld := ⟨R.CST_SNAP_ARM, 0, 8⟩
abbrev R.CST_SNAP_LATE : Nat := 0x1b0504
abbrev R.CST_RESET_GRANT : Nat := 0x1b0600
abbrev F.CST_RESET_GRANT_LOCK : Fld := ⟨R.CST_RESET_GRANT, 16, 1⟩
abbrev F.CST_RESET_GRANT_QUORUM : Fld := ⟨R.CST_RESET_GRANT, 8, 2⟩
abbrev F.CST_RESET_GRANT_GRANT : Fld := ⟨R.CST_RESET_GRANT, 0, 4⟩
abbrev R.CST_RESET_CMD : Nat := 0x1b0604
abbrev F.CST_RESET_CMD_TARGET : Fld := ⟨R.CST_RESET_CMD, 4, 2⟩
abbrev F.CST_RESET_CMD_GO : Fld := ⟨R.CST_RESET_CMD, 0, 1⟩
abbrev R.CST_RESET_REFUSED : Nat := 0x1b0608
abbrev R.CXL_CTRL (h : Nat) : Nat := 0x200000 + 0x10000 * h
abbrev F.CXL_CTRL_IL_EN (h : Nat) : Fld := ⟨R.CXL_CTRL h, 3, 1⟩
abbrev F.CXL_CTRL_MEM_EN (h : Nat) : Fld := ⟨R.CXL_CTRL h, 2, 1⟩
abbrev F.CXL_CTRL_LINK_EN (h : Nat) : Fld := ⟨R.CXL_CTRL h, 1, 1⟩
abbrev F.CXL_CTRL_PERST (h : Nat) : Fld := ⟨R.CXL_CTRL h, 0, 1⟩
abbrev R.CXL_STATUS (h : Nat) : Nat := 0x200004 + 0x10000 * h
abbrev F.CXL_STATUS_CFG_ERR (h : Nat) : Fld := ⟨R.CXL_STATUS h, 10, 1⟩
abbrev F.CXL_STATUS_LINK_LOST (h : Nat) : Fld := ⟨R.CXL_STATUS h, 9, 1⟩
abbrev F.CXL_STATUS_POISON (h : Nat) : Fld := ⟨R.CXL_STATUS h, 8, 1⟩
abbrev F.CXL_STATUS_WIDTH (h : Nat) : Fld := ⟨R.CXL_STATUS h, 4, 2⟩
abbrev F.CXL_STATUS_LINK_STATE (h : Nat) : Fld := ⟨R.CXL_STATUS h, 0, 2⟩
abbrev R.CXL_HDM (h : Nat) : Nat := 0x200008 + 0x10000 * h
abbrev F.CXL_HDM_SIZE (h : Nat) : Fld := ⟨R.CXL_HDM h, 16, 12⟩
abbrev F.CXL_HDM_BASE (h : Nat) : Fld := ⟨R.CXL_HDM h, 0, 12⟩
abbrev R.CXL_ERR_COUNT (h : Nat) : Nat := 0x20000c + 0x10000 * h
abbrev R.ATS_CTRL (h : Nat) : Nat := 0x240000 + 0x10000 * h
abbrev F.ATS_CTRL_BUDGET (h : Nat) : Fld := ⟨R.ATS_CTRL h, 8, 16⟩
abbrev F.ATS_CTRL_RETRAIN (h : Nat) : Fld := ⟨R.ATS_CTRL h, 1, 1⟩
abbrev F.ATS_CTRL_EN (h : Nat) : Fld := ⟨R.ATS_CTRL h, 0, 1⟩
abbrev R.ATS_STATUS (h : Nat) : Nat := 0x240004 + 0x10000 * h
abbrev F.ATS_STATUS_LINK_LOST (h : Nat) : Fld := ⟨R.ATS_STATUS h, 17, 1⟩
abbrev F.ATS_STATUS_LANE_EVT (h : Nat) : Fld := ⟨R.ATS_STATUS h, 16, 1⟩
abbrev F.ATS_STATUS_FAILED (h : Nat) : Fld := ⟨R.ATS_STATUS h, 8, 5⟩
abbrev F.ATS_STATUS_ACTIVE (h : Nat) : Fld := ⟨R.ATS_STATUS h, 2, 2⟩
abbrev F.ATS_STATUS_STATE (h : Nat) : Fld := ⟨R.ATS_STATUS h, 0, 2⟩
abbrev R.ATS_FEC_CE (h : Nat) : Nat := 0x240008 + 0x10000 * h
abbrev R.ATS_FEC_UE (h : Nat) : Nat := 0x24000c + 0x10000 * h
abbrev R.ETH_CTRL (h : Nat) : Nat := 0x280000 + 0x10000 * h
abbrev F.ETH_CTRL_LINK_UP (h : Nat) : Fld := ⟨R.ETH_CTRL h, 7, 1⟩
abbrev F.ETH_CTRL_FEC (h : Nat) : Fld := ⟨R.ETH_CTRL h, 2, 2⟩
abbrev F.ETH_CTRL_SPEED (h : Nat) : Fld := ⟨R.ETH_CTRL h, 1, 1⟩
abbrev F.ETH_CTRL_EN (h : Nat) : Fld := ⟨R.ETH_CTRL h, 0, 1⟩
abbrev R.ETH_RX_ERR (h : Nat) : Nat := 0x280004 + 0x10000 * h
abbrev F.ETH_RX_ERR_DROP (h : Nat) : Fld := ⟨R.ETH_RX_ERR h, 16, 16⟩
abbrev F.ETH_RX_ERR_FCS (h : Nat) : Fld := ⟨R.ETH_RX_ERR h, 0, 16⟩
abbrev R.ETH_PPS_AT (h : Nat) : Nat := 0x280008 + 0x10000 * h
abbrev R.ETH_PPS_CFG (h : Nat) : Nat := 0x280010 + 0x10000 * h
abbrev F.ETH_PPS_CFG_PPS_EN (h : Nat) : Fld := ⟨R.ETH_PPS_CFG h, 31, 1⟩
abbrev F.ETH_PPS_CFG_PERIOD (h : Nat) : Fld := ⟨R.ETH_PPS_CFG h, 0, 27⟩
abbrev R.ETH_RULE_OWN (h : Nat) : Nat := 0x280014 + 0x10000 * h
abbrev F.ETH_RULE_OWN_S (h : Nat) : Fld := ⟨R.ETH_RULE_OWN h, 4, 1⟩
abbrev F.ETH_RULE_OWN_OWNER (h : Nat) : Fld := ⟨R.ETH_RULE_OWN h, 0, 4⟩
abbrev R.ETH_MDIO (h : Nat) : Nat := 0x280040 + 0x10000 * h
abbrev F.ETH_MDIO_GO (h : Nat) : Fld := ⟨R.ETH_MDIO h, 31, 1⟩
abbrev F.ETH_MDIO_C45 (h : Nat) : Fld := ⟨R.ETH_MDIO h, 30, 1⟩
abbrev F.ETH_MDIO_OP (h : Nat) : Fld := ⟨R.ETH_MDIO h, 28, 2⟩
abbrev F.ETH_MDIO_PHYAD (h : Nat) : Fld := ⟨R.ETH_MDIO h, 23, 5⟩
abbrev F.ETH_MDIO_REGAD (h : Nat) : Fld := ⟨R.ETH_MDIO h, 18, 5⟩
abbrev F.ETH_MDIO_DATA (h : Nat) : Fld := ⟨R.ETH_MDIO h, 0, 16⟩
abbrev R.ETH_TX_BASE (h : Nat) : Nat := 0x280100 + 0x10000 * h
abbrev F.ETH_TX_BASE_ADDR (h : Nat) : Fld := ⟨R.ETH_TX_BASE h, 6, 38⟩
abbrev R.ETH_TX_CFG (h : Nat) : Nat := 0x280108 + 0x10000 * h
abbrev F.ETH_TX_CFG_QUEUE (h : Nat) : Fld := ⟨R.ETH_TX_CFG h, 16, 6⟩
abbrev F.ETH_TX_CFG_OWNER (h : Nat) : Fld := ⟨R.ETH_TX_CFG h, 12, 4⟩
abbrev F.ETH_TX_CFG_ATTR_S (h : Nat) : Fld := ⟨R.ETH_TX_CFG h, 11, 1⟩
abbrev F.ETH_TX_CFG_SIZE_LOG2 (h : Nat) : Fld := ⟨R.ETH_TX_CFG h, 4, 4⟩
abbrev F.ETH_TX_CFG_DB_ERR (h : Nat) : Fld := ⟨R.ETH_TX_CFG h, 3, 1⟩
abbrev F.ETH_TX_CFG_CANCEL (h : Nat) : Fld := ⟨R.ETH_TX_CFG h, 2, 1⟩
abbrev F.ETH_TX_CFG_BUSY (h : Nat) : Fld := ⟨R.ETH_TX_CFG h, 1, 1⟩
abbrev F.ETH_TX_CFG_ENABLE (h : Nat) : Fld := ⟨R.ETH_TX_CFG h, 0, 1⟩
abbrev R.ETH_TX_DB (h : Nat) : Nat := 0x28010c + 0x10000 * h
abbrev F.ETH_TX_DB_PROD_IDX (h : Nat) : Fld := ⟨R.ETH_TX_DB h, 0, 16⟩
abbrev R.ETH_TX_CONS (h : Nat) : Nat := 0x280110 + 0x10000 * h
abbrev F.ETH_TX_CONS_CONS_IDX (h : Nat) : Fld := ⟨R.ETH_TX_CONS h, 0, 16⟩
abbrev R.ETH_TX_STATUS (h : Nat) : Nat := 0x280114 + 0x10000 * h
abbrev F.ETH_TX_STATUS_HALTED (h : Nat) : Fld := ⟨R.ETH_TX_STATUS h, 0, 1⟩
abbrev R.ETH_RX_BASE (h : Nat) : Nat := 0x280120 + 0x10000 * h
abbrev F.ETH_RX_BASE_ADDR (h : Nat) : Fld := ⟨R.ETH_RX_BASE h, 6, 38⟩
abbrev R.ETH_RX_CFG (h : Nat) : Nat := 0x280128 + 0x10000 * h
abbrev F.ETH_RX_CFG_QUEUE (h : Nat) : Fld := ⟨R.ETH_RX_CFG h, 16, 6⟩
abbrev F.ETH_RX_CFG_OWNER (h : Nat) : Fld := ⟨R.ETH_RX_CFG h, 12, 4⟩
abbrev F.ETH_RX_CFG_ATTR_S (h : Nat) : Fld := ⟨R.ETH_RX_CFG h, 11, 1⟩
abbrev F.ETH_RX_CFG_SIZE_LOG2 (h : Nat) : Fld := ⟨R.ETH_RX_CFG h, 4, 4⟩
abbrev F.ETH_RX_CFG_DB_ERR (h : Nat) : Fld := ⟨R.ETH_RX_CFG h, 3, 1⟩
abbrev F.ETH_RX_CFG_CANCEL (h : Nat) : Fld := ⟨R.ETH_RX_CFG h, 2, 1⟩
abbrev F.ETH_RX_CFG_BUSY (h : Nat) : Fld := ⟨R.ETH_RX_CFG h, 1, 1⟩
abbrev F.ETH_RX_CFG_ENABLE (h : Nat) : Fld := ⟨R.ETH_RX_CFG h, 0, 1⟩
abbrev R.ETH_RX_DB (h : Nat) : Nat := 0x28012c + 0x10000 * h
abbrev F.ETH_RX_DB_PROD_IDX (h : Nat) : Fld := ⟨R.ETH_RX_DB h, 0, 16⟩
abbrev R.ETH_RX_CONS (h : Nat) : Nat := 0x280130 + 0x10000 * h
abbrev F.ETH_RX_CONS_CONS_IDX (h : Nat) : Fld := ⟨R.ETH_RX_CONS h, 0, 16⟩
abbrev R.ETH_RX_STATUS (h : Nat) : Nat := 0x280134 + 0x10000 * h
abbrev F.ETH_RX_STATUS_HALTED (h : Nat) : Fld := ⟨R.ETH_RX_STATUS h, 0, 1⟩
abbrev R.ETH_RULE_MATCH (h r : Nat) : Nat := 0x280200 + 0x10000 * h + 0x20 * r
abbrev F.ETH_RULE_MATCH_ETYPE (h r : Nat) : Fld := ⟨R.ETH_RULE_MATCH h r, 16, 16⟩
abbrev F.ETH_RULE_MATCH_KEY (h r : Nat) : Fld := ⟨R.ETH_RULE_MATCH h r, 0, 16⟩
abbrev R.ETH_RULE_CFG (h r : Nat) : Nat := 0x280204 + 0x10000 * h + 0x20 * r
abbrev F.ETH_RULE_CFG_EN (h r : Nat) : Fld := ⟨R.ETH_RULE_CFG h r, 31, 1⟩
abbrev F.ETH_RULE_CFG_PASS (h r : Nat) : Fld := ⟨R.ETH_RULE_CFG h r, 30, 1⟩
abbrev F.ETH_RULE_CFG_KIND (h r : Nat) : Fld := ⟨R.ETH_RULE_CFG h r, 28, 2⟩
abbrev F.ETH_RULE_CFG_WIDTH (h r : Nat) : Fld := ⟨R.ETH_RULE_CFG h r, 26, 2⟩
abbrev F.ETH_RULE_CFG_BE (h r : Nat) : Fld := ⟨R.ETH_RULE_CFG h r, 25, 1⟩
abbrev F.ETH_RULE_CFG_VAL_OFF (h r : Nat) : Fld := ⟨R.ETH_RULE_CFG h r, 16, 9⟩
abbrev F.ETH_RULE_CFG_KEY_OFF (h r : Nat) : Fld := ⟨R.ETH_RULE_CFG h r, 7, 9⟩
abbrev F.ETH_RULE_CFG_COUNT_LOG2 (h r : Nat) : Fld := ⟨R.ETH_RULE_CFG h r, 4, 3⟩
abbrev R.ETH_RULE_ADDR (h r : Nat) : Nat := 0x280208 + 0x10000 * h + 0x20 * r
abbrev F.ETH_RULE_ADDR_ADDR (h r : Nat) : Fld := ⟨R.ETH_RULE_ADDR h r, 4, 40⟩
abbrev R.ETH_RULE_SRC (h r : Nat) : Nat := 0x280210 + 0x10000 * h + 0x20 * r
abbrev F.ETH_RULE_SRC_KEY_MASK (h r : Nat) : Fld := ⟨R.ETH_RULE_SRC h r, 16, 16⟩
abbrev F.ETH_RULE_SRC_SOURCE_ID (h r : Nat) : Fld := ⟨R.ETH_RULE_SRC h r, 0, 16⟩
abbrev R.XSPI_CFG : Nat := 0x2c0000
abbrev F.XSPI_CFG_RST : Fld := ⟨R.XSPI_CFG, 8, 1⟩
abbrev F.XSPI_CFG_OCTAL : Fld := ⟨R.XSPI_CFG, 7, 1⟩
abbrev F.XSPI_CFG_DIV : Fld := ⟨R.XSPI_CFG, 0, 6⟩
abbrev R.XSPI_CMD : Nat := 0x2c0004
abbrev F.XSPI_CMD_GO : Fld := ⟨R.XSPI_CMD, 31, 1⟩
abbrev F.XSPI_CMD_WRITE : Fld := ⟨R.XSPI_CMD, 30, 1⟩
abbrev F.XSPI_CMD_LEN : Fld := ⟨R.XSPI_CMD, 16, 9⟩
abbrev F.XSPI_CMD_DUMMY : Fld := ⟨R.XSPI_CMD, 10, 6⟩
abbrev F.XSPI_CMD_ADDR_BYTES : Fld := ⟨R.XSPI_CMD, 8, 2⟩
abbrev F.XSPI_CMD_OPCODE : Fld := ⟨R.XSPI_CMD, 0, 8⟩
abbrev R.XSPI_ADDR : Nat := 0x2c0008
abbrev R.XSPI_STATUS : Nat := 0x2c000c
abbrev F.XSPI_STATUS_TIMEOUT : Fld := ⟨R.XSPI_STATUS, 0, 1⟩
abbrev R.XSPI_DATA (i : Nat) : Nat := 0x2c0100 + 0x4 * i
abbrev R.BMI_CFG (n : Nat) : Nat := 0x2d0000 + 0x100 * n
abbrev F.BMI_CFG_STRETCH_MS (n : Nat) : Fld := ⟨R.BMI_CFG n, 8, 8⟩
abbrev F.BMI_CFG_FAST (n : Nat) : Fld := ⟨R.BMI_CFG n, 1, 1⟩
abbrev F.BMI_CFG_EN (n : Nat) : Fld := ⟨R.BMI_CFG n, 0, 1⟩
abbrev R.BMI_CMD (n : Nat) : Nat := 0x2d0004 + 0x100 * n
abbrev F.BMI_CMD_GO (n : Nat) : Fld := ⟨R.BMI_CMD n, 31, 1⟩
abbrev F.BMI_CMD_RLEN (n : Nat) : Fld := ⟨R.BMI_CMD n, 24, 5⟩
abbrev F.BMI_CMD_WLEN (n : Nat) : Fld := ⟨R.BMI_CMD n, 16, 5⟩
abbrev F.BMI_CMD_ADDR (n : Nat) : Fld := ⟨R.BMI_CMD n, 0, 7⟩
abbrev R.BMI_STATUS (n : Nat) : Nat := 0x2d0008 + 0x100 * n
abbrev F.BMI_STATUS_ACKED (n : Nat) : Fld := ⟨R.BMI_STATUS n, 8, 5⟩
abbrev F.BMI_STATUS_RECOVERED (n : Nat) : Fld := ⟨R.BMI_STATUS n, 4, 1⟩
abbrev F.BMI_STATUS_TIMEOUT (n : Nat) : Fld := ⟨R.BMI_STATUS n, 3, 1⟩
abbrev F.BMI_STATUS_ARB_LOST (n : Nat) : Fld := ⟨R.BMI_STATUS n, 2, 1⟩
abbrev F.BMI_STATUS_NACK_DATA (n : Nat) : Fld := ⟨R.BMI_STATUS n, 1, 1⟩
abbrev F.BMI_STATUS_NACK_ADDR (n : Nat) : Fld := ⟨R.BMI_STATUS n, 0, 1⟩
abbrev R.BMI_DATA (n k : Nat) : Nat := 0x2d0010 + 0x100 * n + 0x4 * k
abbrev R.DBGU_CFG : Nat := 0x2e0000
abbrev F.DBGU_CFG_EN : Fld := ⟨R.DBGU_CFG, 17, 1⟩
abbrev F.DBGU_CFG_FLOW : Fld := ⟨R.DBGU_CFG, 16, 1⟩
abbrev F.DBGU_CFG_DIV : Fld := ⟨R.DBGU_CFG, 0, 16⟩
abbrev R.DBGU_DATA : Nat := 0x2e0004
abbrev F.DBGU_DATA_FRAME_ERR : Fld := ⟨R.DBGU_DATA, 9, 1⟩
abbrev F.DBGU_DATA_VALID : Fld := ⟨R.DBGU_DATA, 8, 1⟩
abbrev F.DBGU_DATA_DATA : Fld := ⟨R.DBGU_DATA, 0, 8⟩
abbrev R.DBGU_STATUS : Nat := 0x2e0008
abbrev F.DBGU_STATUS_RX_OVER : Fld := ⟨R.DBGU_STATUS, 14, 1⟩
abbrev F.DBGU_STATUS_TX_OVER : Fld := ⟨R.DBGU_STATUS, 13, 1⟩
abbrev F.DBGU_STATUS_RX_LEVEL : Fld := ⟨R.DBGU_STATUS, 8, 5⟩
abbrev F.DBGU_STATUS_TX_LEVEL : Fld := ⟨R.DBGU_STATUS, 0, 5⟩
abbrev R.CORE_CL_CTRL (c : Nat) : Nat := 0x300000 + 0x10 * c
abbrev F.CORE_CL_CTRL_FLUSH (c : Nat) : Fld := ⟨R.CORE_CL_CTRL c, 0, 1⟩
abbrev R.CORE_TH_CTRL (t : Nat) : Nat := 0x301000 + 0x40 * t
abbrev F.CORE_TH_CTRL_DF_CODE (t : Nat) : Fld := ⟨R.CORE_TH_CTRL t, 24, 8⟩
abbrev F.CORE_TH_CTRL_STATE (t : Nat) : Fld := ⟨R.CORE_TH_CTRL t, 16, 3⟩
abbrev F.CORE_TH_CTRL_START_ERR (t : Nat) : Fld := ⟨R.CORE_TH_CTRL t, 3, 1⟩
abbrev F.CORE_TH_CTRL_SATTR (t : Nat) : Fld := ⟨R.CORE_TH_CTRL t, 2, 1⟩
abbrev F.CORE_TH_CTRL_STOP (t : Nat) : Fld := ⟨R.CORE_TH_CTRL t, 1, 1⟩
abbrev F.CORE_TH_CTRL_START (t : Nat) : Fld := ⟨R.CORE_TH_CTRL t, 0, 1⟩
abbrev R.CORE_TH_PC (t : Nat) : Nat := 0x301008 + 0x40 * t
abbrev R.CORE_TH_SG0_B (t : Nat) : Nat := 0x301010 + 0x40 * t
abbrev R.CORE_TH_SG0_L (t : Nat) : Nat := 0x301018 + 0x40 * t
abbrev R.CORE_TH_SG7_B (t : Nat) : Nat := 0x301020 + 0x40 * t
abbrev R.CORE_TH_SG7_L (t : Nat) : Nat := 0x301028 + 0x40 * t
abbrev R.CORE_TH_SP (t : Nat) : Nat := 0x301030 + 0x40 * t
abbrev R.DBG_ADDR_LO : Nat := 0x3f0000
abbrev R.DBG_ADDR_HI : Nat := 0x3f0004
abbrev R.DBG_DATA_LO : Nat := 0x3f0008
abbrev R.DBG_DATA_HI : Nat := 0x3f000c
abbrev R.DBG_CMD : Nat := 0x3f0010
abbrev F.DBG_CMD_INC : Fld := ⟨R.DBG_CMD, 5, 1⟩
abbrev F.DBG_CMD_WRITE : Fld := ⟨R.DBG_CMD, 4, 1⟩
abbrev F.DBG_CMD_SIZE : Fld := ⟨R.DBG_CMD, 2, 2⟩
abbrev F.DBG_CMD_GO : Fld := ⟨R.DBG_CMD, 0, 1⟩
abbrev R.DBG_STATUS : Nat := 0x3f0014
abbrev F.DBG_STATUS_MISALIGNED : Fld := ⟨R.DBG_STATUS, 1, 1⟩
abbrev F.DBG_STATUS_ERR : Fld := ⟨R.DBG_STATUS, 0, 1⟩

/-! ### Rows, block by block -/

def rowsSys : List RegRow :=
  [
  ⟨0x000100, [], 4, 0, 0, 0, 0, 0⟩,
  ⟨0x000104, [], 4, 0, 0, 0, 0, 0⟩,
  ⟨0x000108, [], 4, 0, 0xffffffff, 0, 0, 0⟩,
  ⟨0x00010c, [], 4, 0, 0xffffffff, 0, 0, 0⟩,
  ⟨0x000110, [], 4, 0, 0, 0, 0, 1⟩,
  ⟨0x000200, [], 4, 0x80000000, 0xffff0000, 0, 0, 0⟩,
  ⟨0x000300, [], 4, 8, 0, 0, 0, 0⟩,
  ⟨0x000310, [], 4, 0, 0xffffffff, 0, 0, 0⟩,
  ⟨0x000314, [], 4, 0, 0, 0, 0, 0⟩]

def rowsClk : List RegRow :=
  [
  ⟨0x010000, [(8, 0x4)], 4, 0x200020, 0x7f, 0, 0, 0⟩,
  ⟨0x010100, [(6, 0x4)], 4, 0x11558, 0x800fffff, 0, 0, 0⟩,
  ⟨0x010200, [], 4, 0, 0, 0, 0, 0⟩,
  ⟨0x010204, [], 4, 0, 0, 0x3f, 0, 0⟩]

def rowsPwr : List RegRow :=
  [
  ⟨0x020000, [(150, 0x4)], 4, 0, 1, 0, 0, 0⟩,
  ⟨0x020400, [(150, 0x4)], 4, 0, 0, 0, 0, 0⟩,
  ⟨0x020800, [(5, 0x4)], 4, 0, 0, 0, 0, 0⟩,
  ⟨0x021000, [(32, 0x4)], 4, 0, 7, 0, 0, 0⟩,
  ⟨0x022000, [], 4, 0, 0, 0, 1, 0⟩,
  ⟨0x022004, [], 4, 0, 0, 0, 0, 0xffff⟩,
  ⟨0x022008, [], 4, 0, 0, 0, 0, 0⟩,
  ⟨0x02200c, [], 4, 0, 0, 0x80000000, 0, 0⟩,
  ⟨0x02f800, [], 4, 7, 0x71f, 0, 0x80000000, 0⟩,
  ⟨0x02f804, [], 4, 0, 0, 0, 0, 0x80000000⟩,
  ⟨0x02f810, [(8, 0x8)], 8, 0, 0, 0, 0, 0⟩]

def rowsSec : List RegRow :=
  [
  ⟨0x030000, [], 4, 0, 0, 0x800, 0, 0⟩,
  ⟨0x030004, [], 4, 0, 0xf0, 0x200, 0, 1⟩,
  ⟨0x030008, [], 8, 0, 0xfffffffffc0, 0, 0, 0⟩,
  ⟨0x030010, [], 4, 0, 0, 0, 0, 0⟩,
  ⟨0x030014, [], 4, 0, 1, 0, 0, 0⟩,
  ⟨0x030020, [(8, 0x4)], 4, 0, 0, 0, 0, 0⟩,
  ⟨0x030040, [], 4, 0, 0, 0, 0, 0xffff⟩]

def rowsOtp : List RegRow :=
  [
  ⟨0x040000, [], 4, 0, 0, 0, 0, 0⟩,
  ⟨0x040004, [], 4, 0, 0, 0, 0, 0⟩,
  ⟨0x040008, [], 4, 0, 0, 0, 0, 0⟩,
  ⟨0x04000c, [], 4, 0, 0, 0, 0, 0⟩,
  ⟨0x040010, [(4, 0x4)], 4, 0, 0, 0, 0, 0⟩,
  ⟨0x040400, [(16, 0x40), (16, 0x4)], 4, 0, 0, 0, 0, 0⟩]

def rowsLul : List RegRow :=
  [
  ⟨0x050000, [(64, 0x20)], 8, 0, 0xfffffffffc0, 0, 0, 0⟩,
  ⟨0x050008, [(64, 0x20)], 4, 0xf840, 0x73ff8f0, 0, 0, 0x8000000⟩,
  ⟨0x05000c, [(64, 0x20)], 4, 0x100000, 0xffffffff, 0, 0, 0⟩,
  ⟨0x050010, [(64, 0x20)], 4, 0, 0, 0, 0, 0⟩,
  ⟨0x050014, [(64, 0x20)], 4, 0, 0xffff, 0, 0, 0⟩,
  ⟨0x050018, [(64, 0x20)], 4, 0, 0, 0x70, 0, 0⟩,
  ⟨0x050800, [(64, 0x4)], 4, 0, 0x13f, 0, 0, 0⟩,
  ⟨0x050900, [], 8, 0, 0, 0, 0, 0⟩,
  ⟨0x050908, [], 4, 0, 0xffffffff, 0, 0, 0⟩]

def rowsBrz : List RegRow :=
  [
  ⟨0x060000, [(256, 0x10)], 4, 0, 0x7bff03ff, 0, 0, 0⟩,
  ⟨0x060004, [(256, 0x10)], 4, 0x1f, 0x1f, 0, 0, 0⟩,
  ⟨0x060008, [(256, 0x10)], 4, 0, 0xffff, 0, 0, 0⟩,
  ⟨0x06000c, [(256, 0x10)], 4, 0, 0, 3, 0, 0⟩,
  ⟨0x061000, [(256, 0x8)], 4, 0, 0x80ff80ff, 0, 0, 0⟩,
  ⟨0x061004, [(256, 0x8)], 4, 0x1f, 0x1f, 0x300, 0, 0⟩,
  ⟨0x062000, [], 4, 0, 0, 0, 0, 0xff⟩,
  ⟨0x062004, [], 4, 0, 0xffffffff, 0, 0, 0⟩]

def rowsGpio : List RegRow :=
  [
  ⟨0x070000, [(256, 0x4)], 4, 0x180, 0xbcf, 0, 0, 0⟩,
  ⟨0x070400, [(256, 0x4)], 4, 0, 7, 0, 0, 0⟩,
  ⟨0x070800, [(256, 0x4)], 4, 0x1f, 0x1f, 0, 0, 0⟩,
  ⟨0x070c00, [(256, 0x4)], 4, 0, 0, 0, 0, 0xffff⟩,
  ⟨0x071000, [(8, 0x8)], 4, 0, 0xffff, 0, 0, 0xffff0000⟩,
  ⟨0x071004, [(8, 0x8)], 4, 0, 0xffff, 0, 0, 0xffff0000⟩,
  ⟨0x071040, [(8, 0x8)], 4, 0, 0xffff, 0, 0, 0xffff0000⟩,
  ⟨0x071044, [(8, 0x8)], 4, 0, 0xffff, 0, 0, 0xffff0000⟩,
  ⟨0x071080, [(8, 0x4)], 4, 0, 0, 0, 0, 0⟩,
  ⟨0x0710a0, [(8, 0x4)], 4, 0, 0, 0xffffffff, 0, 0⟩,
  ⟨0x0710c0, [(8, 0x4)], 4, 0, 0, 0, 0, 0⟩,
  ⟨0x071100, [(8, 0x4)], 4, 2, 3, 0, 0, 0⟩,
  ⟨0x071200, [], 4, 0, 0, 3, 0, 0⟩,
  ⟨0x071204, [], 4, 0, 0xffffffff, 0, 0, 0⟩]

def rowsTim : List RegRow :=
  [
  ⟨0x080000, [(32, 0x20)], 4, 0, 0xffff7c01, 0, 0, 0⟩,
  ⟨0x080004, [(32, 0x20)], 4, 0, 0x10, 0, 0, 7⟩,
  ⟨0x080008, [(32, 0x20)], 4, 0, 0, 6, 0, 0⟩,
  ⟨0x08000c, [(32, 0x20)], 4, 0xffffffff, 0xffffffff, 0, 0, 0⟩,
  ⟨0x080010, [(32, 0x20)], 4, 0, 0xffffffff, 0, 0, 0⟩,
  ⟨0x080014, [(32, 0x20)], 4, 0, 0, 0, 0, 0⟩,
  ⟨0x080018, [(32, 0x20)], 4, 0, 0, 0, 0, 0⟩,
  ⟨0x08001c, [(32, 0x20)], 4, 0x1f, 0x1f, 0, 0, 0⟩]

def rowsGst : List RegRow :=
  [
  ⟨0x090000, [], 8, 0, 0, 0, 0, 0xffffffffffffffff⟩,
  ⟨0x090008, [], 8, 0, 0, 0, 0, 0xffffffffffffffff⟩,
  ⟨0x090010, [], 4, 0, 0xffffffff, 0, 0, 0⟩,
  ⟨0x091000, [(16, 0x400)], 4, 0x1f, 0x1f, 0, 0, 0⟩,
  ⟨0x091100, [(16, 0x400), (64, 0x4)], 4, 0, 0xffffffff, 0, 0, 0⟩,
  ⟨0x091200, [(16, 0x400), (4, 0x80)], 4, 0, 1, 0, 0, 0xe⟩,
  ⟨0x091204, [(16, 0x400), (4, 0x80)], 4, 0x100, 0xffffff, 0, 0, 0⟩,
  ⟨0x091208, [(16, 0x400), (4, 0x80)], 4, 0x3f0000, 0x3f3f3f, 0, 0, 0⟩,
  ⟨0x09120c, [(16, 0x400), (4, 0x80)], 4, 0, 0x1f1f3fff, 0, 0, 0⟩,
  ⟨0x091210, [(16, 0x400), (4, 0x80)], 4, 0x220, 0xffffffe0, 0, 0, 0⟩,
  ⟨0x091214, [(16, 0x400), (4, 0x80)], 4, 0, 0xffff, 0, 0, 0⟩,
  ⟨0x091218, [(16, 0x400), (4, 0x80)], 4, 0, 0, 0x3e, 0, 0⟩,
  ⟨0x09121c, [(16, 0x400), (4, 0x80)], 4, 0, 0xffffffff, 0, 0, 0⟩,
  ⟨0x091220, [(16, 0x400), (4, 0x80)], 4, 0, 0, 0, 0, 0⟩,
  ⟨0x091224, [(16, 0x400), (4, 0x80)], 4, 0, 0, 0, 0, 0⟩,
  ⟨0x091228, [(16, 0x400), (4, 0x80)], 4, 0, 0xffffffff, 0, 0, 0⟩,
  ⟨0x09122c, [(16, 0x400), (4, 0x80)], 4, 0, 0xffffffff, 0, 0, 0⟩,
  ⟨0x091230, [(16, 0x400), (4, 0x80), (4, 0x4)], 4, 0, 0, 0, 0, 0xffffffff⟩,
  ⟨0x091240, [(16, 0x400), (4, 0x80), (4, 0x4)], 4, 0, 0, 0, 0, 0⟩,
  ⟨0x091250, [(16, 0x400), (4, 0x80), (4, 0x4)], 4, 0, 0xffffffff, 0, 0, 0⟩,
  ⟨0x091260, [(16, 0x400), (4, 0x80)], 4, 0, 0, 0, 0, 0⟩]

def rowsTwd : List RegRow :=
  [
  ⟨0x0a0000, [(32, 0x20)], 8, 0, 0xfffffffffc0, 0, 0, 0⟩,
  ⟨0x0a0008, [(32, 0x20)], 4, 0xf840, 0x3ff8f1, 8, 0, 4⟩,
  ⟨0x0a000c, [(32, 0x20)], 4, 0, 0xffff, 0, 0, 0⟩,
  ⟨0x0a0010, [(32, 0x20)], 4, 0, 0, 0, 0, 0⟩,
  ⟨0x0a0014, [(32, 0x20)], 4, 0, 0, 8, 0, 0⟩,
  ⟨0x0a0018, [(32, 0x20)], 4, 0, 0, 0, 0, 3⟩,
  ⟨0x0a001c, [(32, 0x20)], 4, 0, 0, 0, 0, 0⟩,
  ⟨0x0a0800, [], 4, 0xf800, 0x3ff800, 0, 0, 0⟩,
  ⟨0x0a0808, [], 8, 0, 0, 0, 0, 0⟩,
  ⟨0x0a0810, [], 4, 0, 0xffff0000, 0, 0, 0⟩,
  ⟨0x0a0814, [], 4, 0, 0, 0, 0, 0⟩]

def rowsSql : List RegRow :=
  [
  ⟨0x0b0000, [], 4, 0, 0, 2, 0, 0⟩,
  ⟨0x0b0100, [(4, 0x20)], 8, 0, 0xfffffffffc0, 0, 0, 0⟩,
  ⟨0x0b0108, [(4, 0x20)], 4, 0xf840, 0x3ff8f1, 8, 0, 4⟩,
  ⟨0x0b0110, [(4, 0x20)], 4, 0, 0xffff, 0, 0, 0⟩,
  ⟨0x0b0114, [(4, 0x20)], 4, 0, 0, 0, 0, 0⟩,
  ⟨0x0b0200, [], 8, 0, 0, 0, 0, 0⟩,
  ⟨0x0b0208, [], 4, 0, 0, 0, 0, 0⟩]

def rowsCmp : List RegRow :=
  [
  ⟨0x0c0000, [], 4, 0, 0x80ff01ff, 0, 0, 0⟩,
  ⟨0x0c0004, [], 4, 0, 0, 6, 0, 0⟩,
  ⟨0x0c0100, [(6, 0x40)], 4, 0x10, 0xff, 0, 0, 0⟩,
  ⟨0x0c0104, [(6, 0x40)], 4, 0, 0xffffffff, 0, 0, 0⟩,
  ⟨0x0c0108, [(6, 0x40)], 4, 0, 0, 0xe, 0, 0⟩,
  ⟨0x0c0110, [(6, 0x40)], 8, 0, 0xfffffffffc0, 0, 0, 0⟩,
  ⟨0x0c0118, [(6, 0x40)], 4, 0x100f840, 0xff3ff8f1, 8, 0, 0⟩,
  ⟨0x0c011c, [(6, 0x40)], 4, 0, 0xffff, 0, 0, 0⟩,
  ⟨0x0c0120, [(6, 0x40)], 4, 0, 0, 0, 0, 0⟩,
  ⟨0x0c0124, [(6, 0x40)], 4, 0, 0xffffffff, 0, 0, 0⟩]

def rowsHead : List RegRow :=
  [
  ⟨0x100000, [(6, 0x10000)], 4, 0, 1, 0, 0, 2⟩,
  ⟨0x100004, [(6, 0x10000)], 4, 0, 0, 0x80, 0, 0⟩,
  ⟨0x100008, [(6, 0x10000)], 4, 0, 0, 0, 0, 0⟩,
  ⟨0x10000c, [(6, 0x10000)], 4, 0, 0, 0, 0, 0⟩,
  ⟨0x100040, [(6, 0x10000)], 4, 0x300500, 0xffffffff, 0, 0, 0⟩,
  ⟨0x100044, [(6, 0x10000)], 4, 0x500020, 0xffffffff, 0, 0, 0⟩,
  ⟨0x100048, [(6, 0x10000)], 4, 0x30320, 0xffffffff, 0, 0, 0⟩,
  ⟨0x10004c, [(6, 0x10000)], 4, 0xe0006, 0xffffffff, 0, 0, 0⟩,
  ⟨0x100050, [(6, 0x10000)], 4, 0x11, 0x33, 0, 0, 0⟩,
  ⟨0x100054, [(6, 0x10000)], 4, 0xf000000, 0xffff11ff, 0, 0, 0⟩,
  ⟨0x100058, [(6, 0x10000)], 4, 0x3ff003ff, 0x3fffffff, 0, 0, 0⟩,
  ⟨0x100100, [(6, 0x10000), (4, 0x20)], 4, 0, 0xcf31, 0, 0, 0⟩,
  ⟨0x100104, [(6, 0x10000), (4, 0x20)], 4, 0, 0xffffc00, 0, 0, 0⟩,
  ⟨0x100108, [(6, 0x10000), (4, 0x20)], 4, 0, 0xfffffc0, 0, 0, 0⟩,
  ⟨0x10010c, [(6, 0x10000), (4, 0x20)], 4, 0, 0xfffffc0, 0, 0, 0⟩,
  ⟨0x100180, [(6, 0x10000)], 4, 0x10, 0x37f, 0, 0, 0⟩,
  ⟨0x100188, [(6, 0x10000)], 8, 0, 0xfffffffffc0, 0, 0, 0⟩,
  ⟨0x100190, [(6, 0x10000)], 8, 0, 0xfffffffffc0, 0, 0, 0⟩,
  ⟨0x100198, [(6, 0x10000)], 4, 0, 0xffffffff, 0, 0, 0⟩,
  ⟨0x10019c, [(6, 0x10000)], 4, 0, 0xffffffff, 0, 0, 0⟩,
  ⟨0x1001a0, [(6, 0x10000)], 4, 0, 0xffffffff, 0, 0, 0⟩,
  ⟨0x1001a4, [(6, 0x10000)], 4, 0, 0xffffffff, 0, 0, 0⟩,
  ⟨0x1001a8, [(6, 0x10000)], 4, 0x10000, 0x7ffff, 0, 0, 0⟩,
  ⟨0x1001ac, [(6, 0x10000)], 4, 0x10000, 0x7ffff, 0, 0, 0⟩,
  ⟨0x100200, [(6, 0x10000), (16, 0x8)], 8, 0, 0xfff0fff0fff0fff, 0, 0, 0⟩,
  ⟨0x100280, [(6, 0x10000), (16, 0x8)], 8, 0, 0xfff0fff0fff0fff, 0, 0, 0⟩,
  ⟨0x100300, [(6, 0x10000)], 4, 0, 0x3ff, 0, 0, 0⟩,
  ⟨0x100304, [(6, 0x10000)], 4, 0, 0xfffffc0, 0, 0, 0⟩,
  ⟨0x100308, [(6, 0x10000)], 4, 0, 0xfffffc0, 0, 0, 0⟩,
  ⟨0x100380, [(6, 0x10000)], 4, 0, 0xffff11, 0, 0, 0⟩] ++
  [
  ⟨0x100384, [(6, 0x10000)], 4, 0, 0xffffc00, 0, 0, 0⟩,
  ⟨0x100388, [(6, 0x10000)], 4, 0, 0xfffffc0, 0, 0, 0⟩,
  ⟨0x100400, [(6, 0x10000), (4, 0x20)], 4, 0, 0xfffc1, 0, 0, 0⟩,
  ⟨0x100404, [(6, 0x10000), (4, 0x20)], 4, 0, 0xfffffc0, 0, 0, 0⟩,
  ⟨0x100408, [(6, 0x10000), (4, 0x20)], 4, 0, 0xffffffff, 0, 0, 0⟩,
  ⟨0x10040c, [(6, 0x10000), (4, 0x20)], 4, 0, 0xffffffff, 0, 0, 0⟩,
  ⟨0x100800, [(6, 0x10000), (256, 0x4)], 4, 0, 0xffffffff, 0, 0, 0⟩,
  ⟨0x100c00, [(6, 0x10000), (256, 0x4)], 4, 0, 0xffffffff, 0, 0, 0⟩,
  ⟨0x101000, [(6, 0x10000), (1024, 0x4)], 4, 0, 0xffffffff, 0, 0, 0⟩,
  ⟨0x102000, [(6, 0x10000), (4, 0x10)], 4, 0xff000000, 0xff000001, 0, 0, 0⟩,
  ⟨0x102004, [(6, 0x10000), (4, 0x10)], 4, 0, 0xffffffff, 0, 0, 0⟩,
  ⟨0x102008, [(6, 0x10000), (4, 0x10)], 4, 0xffff0000, 0xffffffff, 0, 0, 0⟩,
  ⟨0x10200c, [(6, 0x10000), (4, 0x10)], 4, 0xffff0000, 0xffffffff, 0, 0, 0⟩,
  ⟨0x102040, [(6, 0x10000)], 4, 0xff000000, 0xff000001, 0, 0, 0⟩,
  ⟨0x102048, [(6, 0x10000)], 4, 0xffff0000, 0xffffffff, 0, 0, 0⟩,
  ⟨0x10204c, [(6, 0x10000)], 4, 0xffff0000, 0xffffffff, 0, 0, 0⟩,
  ⟨0x102050, [(6, 0x10000)], 4, 0xff000000, 0xff000001, 0, 0, 0⟩,
  ⟨0x102058, [(6, 0x10000)], 4, 0xffff0000, 0xffffffff, 0, 0, 0⟩,
  ⟨0x10205c, [(6, 0x10000)], 4, 0xffff0000, 0xffffffff, 0, 0, 0⟩,
  ⟨0x102060, [(6, 0x10000)], 4, 0, 0x3fffffff, 0, 0, 0⟩,
  ⟨0x102f00, [(6, 0x10000)], 4, 0, 3, 0, 0, 0⟩,
  ⟨0x102f04, [(6, 0x10000), (2, 0x4)], 4, 0, 0xfffffc0, 0, 0, 0⟩,
  ⟨0x102f0c, [(6, 0x10000)], 4, 0, 0, 0x1f, 0, 0⟩,
  ⟨0x102f40, [(6, 0x10000)], 4, 0, 0, 3, 0, 0⟩,
  ⟨0x102f44, [(6, 0x10000)], 4, 0, 0xffffffff, 0, 0, 0⟩,
  ⟨0x102f48, [(6, 0x10000)], 4, 0, 0xffffffff, 0, 0, 0⟩,
  ⟨0x103000, [(6, 0x10000), (16, 0x10)], 4, 0, 0xffffffff, 0, 0, 0⟩,
  ⟨0x103004, [(6, 0x10000), (16, 0x10)], 4, 0, 0xffffffff, 0, 0, 0⟩,
  ⟨0x103008, [(6, 0x10000), (16, 0x10)], 4, 0x100, 0xf03, 0, 0, 0⟩,
  ⟨0x10300c, [(6, 0x10000), (16, 0x10)], 4, 0, 0xffffffff, 0, 0, 0⟩] ++
  [
  ⟨0x103100, [(6, 0x10000), (16, 0x4)], 4, 0, 0, 0, 0, 0⟩,
  ⟨0x103140, [(6, 0x10000)], 4, 0, 0, 0xffffffff, 0, 0⟩,
  ⟨0x103144, [(6, 0x10000)], 4, 0, 0, 0, 0xffff, 0⟩,
  ⟨0x103148, [(6, 0x10000)], 4, 0, 0, 0, 0, 0⟩,
  ⟨0x103150, [(6, 0x10000)], 4, 0, 0, 3, 0, 0⟩,
  ⟨0x103154, [(6, 0x10000)], 4, 0, 0, 0, 0, 0⟩,
  ⟨0x103158, [(6, 0x10000)], 4, 0, 0, 0, 0, 0⟩,
  ⟨0x10315c, [(6, 0x10000)], 4, 0, 0xffffffff, 0, 0, 0⟩,
  ⟨0x104000, [(6, 0x10000)], 4, 0x100, 0x3ff, 0, 0, 0⟩,
  ⟨0x104004, [(6, 0x10000)], 4, 0, 0, 0, 0, 1⟩,
  ⟨0x104008, [(6, 0x10000)], 4, 0, 0, 0x9c, 0, 0⟩,
  ⟨0x104010, [(6, 0x10000)], 4, 0x90000000, 0xfffffff2, 0, 0, 1⟩,
  ⟨0x104014, [(6, 0x10000), (4, 0x4)], 4, 0, 0xffffffff, 0, 0, 0⟩,
  ⟨0x104024, [(6, 0x10000)], 4, 0, 0, 0, 0, 0⟩]

def rowsGal : List RegRow :=
  [
  ⟨0x180000, [], 4, 0, 5, 0, 0, 0⟩,
  ⟨0x180008, [], 4, 0, 0, 0, 0, 0⟩,
  ⟨0x18000c, [], 4, 0x1f, 0x1f, 0, 0, 0⟩,
  ⟨0x180010, [], 4, 0, 0, 0xffffffff, 0, 0⟩,
  ⟨0x180100, [(4, 0x10)], 4, 0, 0x7f, 0, 0, 0⟩,
  ⟨0x180180, [(16, 0x4)], 4, 0, 0xbf, 0, 0, 0⟩,
  ⟨0x180200, [(32, 0x40)], 4, 0, 0xfffff3c7, 0, 0, 0⟩,
  ⟨0x180204, [(32, 0x40)], 4, 0, 0xffffffff, 0, 0, 0⟩,
  ⟨0x180208, [(32, 0x40)], 4, 0, 0xffffffff, 0, 0, 0⟩,
  ⟨0x18020c, [(32, 0x40)], 4, 0, 0xffffff, 0, 0, 0⟩,
  ⟨0x180210, [(32, 0x40)], 4, 0, 0xffffff, 0, 0, 0⟩,
  ⟨0x180214, [(32, 0x40)], 4, 0, 0xffffff, 0, 0, 0⟩,
  ⟨0x180218, [(32, 0x40)], 4, 0, 0xffffff, 0, 0, 0⟩,
  ⟨0x18021c, [(32, 0x40)], 4, 0, 0, 0, 0, 3⟩,
  ⟨0x180220, [(32, 0x40)], 4, 0, 0, 0, 0, 0⟩,
  ⟨0x180a00, [(32, 0x20), (8, 0x4)], 4, 0, 0xc000ffff, 0, 0, 0⟩,
  ⟨0x181000, [(32, 0x4)], 4, 0, 0xbf, 0, 0, 0⟩,
  ⟨0x181080, [(32, 0x4)], 4, 0, 0xffffff, 0, 0, 0⟩,
  ⟨0x182000, [(32, 0x100), (64, 0x4)], 4, 0, 0xffff, 0, 0, 0⟩,
  ⟨0x184000, [(256, 0x20)], 4, 0x40000000, 0xffffffff, 0, 0, 0⟩,
  ⟨0x184004, [(256, 0x20)], 4, 0, 0xffffffff, 0, 0, 0⟩,
  ⟨0x184008, [(256, 0x20)], 4, 0, 0xffffffff, 0, 0, 0⟩,
  ⟨0x18400c, [(256, 0x20)], 4, 0, 0xffffffff, 0, 0, 0⟩,
  ⟨0x184010, [(256, 0x20)], 4, 0, 0xffffffff, 0, 0, 0⟩,
  ⟨0x184014, [(256, 0x20)], 4, 1, 1, 0, 0, 2⟩,
  ⟨0x186000, [(16, 0x20)], 8, 0, 0xfffffffffc0, 0, 0, 0⟩,
  ⟨0x186008, [(16, 0x20)], 4, 0xf840, 0x3ff8f1, 8, 0, 4⟩,
  ⟨0x18600c, [(16, 0x20)], 4, 0, 0xffff, 0, 0, 0⟩,
  ⟨0x186010, [(16, 0x20)], 4, 0, 0, 0, 0, 0⟩,
  ⟨0x186014, [(16, 0x20)], 4, 0x100, 0x31f1f, 0, 0, 0⟩] ++
  [
  ⟨0x186018, [(16, 0x20)], 4, 0, 0, 2, 0, 0⟩,
  ⟨0x18601c, [(16, 0x20)], 4, 0, 0xffffffff, 0, 0, 0⟩,
  ⟨0x188000, [(16, 0x400), (256, 0x4)], 4, 0, 0xffffff, 0, 0, 0⟩]

def rowsHse : List RegRow :=
  [
  ⟨0x190000, [], 4, 2, 3, 0, 0, 4⟩,
  ⟨0x190004, [], 4, 0, 0, 0x18, 0, 0⟩,
  ⟨0x190008, [], 4, 0, 0xfffff000, 0, 0, 0⟩,
  ⟨0x190010, [], 4, 0x66666666, 0xffffffff, 0, 0, 0⟩,
  ⟨0x190014, [], 4, 0x3ff06666, 0xffffffff, 0, 0, 0⟩,
  ⟨0x190018, [], 4, 0, 1, 0, 0, 0⟩,
  ⟨0x19001c, [], 4, 0, 0xffffffff, 0, 0, 0⟩,
  ⟨0x190020, [], 4, 0, 0, 0, 0, 1⟩,
  ⟨0x190024, [], 4, 0, 0, 0, 0, 0⟩,
  ⟨0x190028, [], 4, 0, 0, 0, 0, 0⟩,
  ⟨0x19002c, [], 4, 0, 0xffffffff, 0, 0, 0⟩,
  ⟨0x190030, [], 4, 0, 0xffff0000, 0, 0, 0⟩,
  ⟨0x190034, [], 4, 0, 0xffffffff, 0, 0, 0⟩,
  ⟨0x190038, [], 4, 0, 0, 0, 0, 0⟩,
  ⟨0x190100, [(4, 0x20)], 8, 0, 0xfffffffffc0, 0, 0, 0⟩,
  ⟨0x190108, [(4, 0x20)], 4, 0xf840, 0x3ff8f1, 8, 0, 4⟩,
  ⟨0x190110, [(4, 0x20)], 4, 0, 0xffff, 0, 0, 0⟩,
  ⟨0x190114, [(4, 0x20)], 4, 0, 0, 0, 0, 0⟩,
  ⟨0x190200, [], 8, 0, 0xfffffff8000, 0, 0, 0⟩,
  ⟨0x190208, [], 4, 0, 0xc, 0, 0, 3⟩,
  ⟨0x190210, [(4, 0x8)], 8, 0, 0, 0, 0, 0⟩,
  ⟨0x190300, [], 8, 0, 0xfffffffffc0, 0, 0, 0⟩,
  ⟨0x190308, [], 4, 0, 0, 0, 0, 1⟩,
  ⟨0x19030c, [], 4, 0xff000000, 0, 0, 0, 0⟩,
  ⟨0x190400, [], 4, 0, 0xc, 0, 0, 1⟩,
  ⟨0x190404, [], 4, 0, 0xffffffff, 0, 0, 0⟩,
  ⟨0x190800, [], 4, 0x1f, 0x1f, 0, 0, 0⟩,
  ⟨0x190808, [], 4, 0, 0, 0, 0, 0⟩,
  ⟨0x19080c, [], 4, 0, 0xffffffff, 0, 0, 0⟩,
  ⟨0x190810, [], 4, 0, 0x1ff, 0, 0, 0⟩] ++
  [
  ⟨0x190814, [], 4, 0, 0x7c, 0, 0, 3⟩,
  ⟨0x190818, [], 4, 0, 0xffffffff, 0, 0, 0⟩,
  ⟨0x19081c, [], 4, 0, 0, 0, 0, 3⟩,
  ⟨0x190820, [], 4, 0, 0, 0, 0, 0⟩,
  ⟨0x190824, [], 4, 0, 0, 0, 0, 0⟩,
  ⟨0x190828, [], 4, 0, 0, 0, 0, 0⟩]

def rowsPool : List RegRow :=
  [
  ⟨0x1a0000, [(288, 0x8)], 4, 0x3ff, 0x1f, 0, 0, 0⟩,
  ⟨0x1a0004, [(288, 0x8)], 4, 0, 0xffffff00, 0, 0, 0⟩,
  ⟨0x1a1000, [(288, 0x4)], 4, 0, 0xffff0000, 0, 0, 0⟩,
  ⟨0x1a2000, [], 4, 0x10, 0xffff, 0, 0, 0⟩,
  ⟨0x1a2004, [], 4, 0x800003e8, 0x8000ffff, 0x40000000, 0, 0⟩,
  ⟨0x1a2008, [], 4, 0, 0, 0, 0, 0⟩,
  ⟨0x1a2010, [], 4, 0, 0xffffffff, 0, 0, 0⟩,
  ⟨0x1a2014, [], 4, 0, 0, 0, 0, 0⟩,
  ⟨0x1a2018, [], 4, 0, 0, 0xffff, 0, 0⟩,
  ⟨0x1a201c, [], 4, 0, 0, 0, 0, 0⟩,
  ⟨0x1a2020, [], 4, 0, 0, 0, 0, 0⟩,
  ⟨0x1a2024, [], 4, 0, 0xffffffff, 0, 0, 0⟩,
  ⟨0x1a2028, [], 4, 0, 0, 0, 0, 0⟩]

def rowsCst : List RegRow :=
  [
  ⟨0x1b0000, [], 4, 0, 0, 0, 0, 0⟩,
  ⟨0x1b0004, [], 4, 0, 0xfffff, 0, 0, 0⟩,
  ⟨0x1b0008, [], 4, 0, 0, 0, 0, 3⟩,
  ⟨0x1b000c, [], 4, 0, 0, 0, 0, 0⟩,
  ⟨0x1b0010, [], 4, 0x1388, 0xfffff, 0, 0, 0⟩,
  ⟨0x1b0014, [], 4, 0, 0xffffffff, 0, 0, 0⟩,
  ⟨0x1b0018, [], 8, 0, 0, 0, 0, 0⟩,
  ⟨0x1b0020, [], 8, 0, 0, 0, 0, 0⟩,
  ⟨0x1b0028, [], 4, 0, 0xffffffff, 0, 0, 0⟩,
  ⟨0x1b002c, [], 4, 0, 0xffffffff, 0, 0, 0⟩,
  ⟨0x1b0100, [(32, 0x4)], 4, 0, 0xff07c07f, 0, 0, 0⟩,
  ⟨0x1b0200, [], 8, 0, 0xffffffffffffffff, 0, 0, 0⟩,
  ⟨0x1b0208, [], 8, 0, 0xfffffffffff, 0, 0, 0⟩,
  ⟨0x1b0210, [], 8, 0, 0xffffffffffffffff, 0, 0, 0⟩,
  ⟨0x1b0218, [], 4, 0, 0x1fc, 0, 0, 1⟩,
  ⟨0x1b021c, [], 4, 0, 0, 0x2f0, 0, 0⟩,
  ⟨0x1b0220, [], 4, 0, 0, 0, 0, 0⟩,
  ⟨0x1b0300, [(16, 0x8)], 8, 0, 0, 0, 0, 0⟩,
  ⟨0x1b0380, [], 4, 0, 0, 0, 0, 0⟩,
  ⟨0x1b0400, [(8, 0x20)], 8, 0, 0xfffffffffc0, 0, 0, 0⟩,
  ⟨0x1b0408, [(8, 0x20)], 8, 0, 0xfffffffffc0, 0, 0, 0⟩,
  ⟨0x1b0410, [(8, 0x20)], 4, 0, 0x1ffffc, 0, 0, 0⟩,
  ⟨0x1b0500, [], 4, 0, 0, 0, 0xff, 0⟩,
  ⟨0x1b0504, [], 4, 0, 0xffffffff, 0, 0, 0⟩,
  ⟨0x1b0600, [], 4, 0, 0x30f, 0, 0x10000, 0⟩,
  ⟨0x1b0604, [], 4, 0, 0x30, 0, 0, 1⟩,
  ⟨0x1b0608, [], 4, 0, 0xffffffff, 0, 0, 0⟩]

def rowsCxl : List RegRow :=
  [
  ⟨0x200000, [(2, 0x10000)], 4, 1, 0xf, 0, 0, 0⟩,
  ⟨0x200004, [(2, 0x10000)], 4, 0, 0, 0x700, 0, 0⟩,
  ⟨0x200008, [(2, 0x10000)], 4, 0, 0xfff0fff, 0, 0, 0⟩,
  ⟨0x20000c, [(2, 0x10000)], 4, 0, 0xffffffff, 0, 0, 0⟩]

def rowsAts : List RegRow :=
  [
  ⟨0x240000, [(4, 0x10000)], 4, 0x100000, 0xffff01, 0, 0, 2⟩,
  ⟨0x240004, [(4, 0x10000)], 4, 0, 0, 0x30000, 0, 0⟩,
  ⟨0x240008, [(4, 0x10000)], 4, 0, 0xffffffff, 0, 0, 0⟩,
  ⟨0x24000c, [(4, 0x10000)], 4, 0, 0xffffffff, 0, 0, 0⟩]

def rowsEth : List RegRow :=
  [
  ⟨0x280000, [(2, 0x10000)], 4, 0, 0xf, 0, 0, 0⟩,
  ⟨0x280004, [(2, 0x10000)], 4, 0, 0xffffffff, 0, 0, 0⟩,
  ⟨0x280008, [(2, 0x10000)], 8, 0, 0xffffffffffffffff, 0, 0, 0⟩,
  ⟨0x280010, [(2, 0x10000)], 4, 0x5f5e100, 0x87ffffff, 0, 0, 0⟩,
  ⟨0x280014, [(2, 0x10000)], 4, 0x1f, 0x1f, 0, 0, 0⟩,
  ⟨0x280040, [(2, 0x10000)], 4, 0, 0x7ffcffff, 0, 0, 0x80000000⟩,
  ⟨0x280100, [(2, 0x10000)], 8, 0, 0xfffffffffc0, 0, 0, 0⟩,
  ⟨0x280108, [(2, 0x10000)], 4, 0xf840, 0x3ff8f1, 8, 0, 4⟩,
  ⟨0x28010c, [(2, 0x10000)], 4, 0, 0xffff, 0, 0, 0⟩,
  ⟨0x280110, [(2, 0x10000)], 4, 0, 0, 0, 0, 0⟩,
  ⟨0x280114, [(2, 0x10000)], 4, 0, 0, 0, 0, 0⟩,
  ⟨0x280120, [(2, 0x10000)], 8, 0, 0xfffffffffc0, 0, 0, 0⟩,
  ⟨0x280128, [(2, 0x10000)], 4, 0xf840, 0x3ff8f1, 8, 0, 4⟩,
  ⟨0x28012c, [(2, 0x10000)], 4, 0, 0xffff, 0, 0, 0⟩,
  ⟨0x280130, [(2, 0x10000)], 4, 0, 0, 0, 0, 0⟩,
  ⟨0x280134, [(2, 0x10000)], 4, 0, 0, 0, 0, 0⟩,
  ⟨0x280200, [(2, 0x10000), (32, 0x20)], 4, 0, 0xffffffff, 0, 0, 0⟩,
  ⟨0x280204, [(2, 0x10000), (32, 0x20)], 4, 0, 0xfffffff0, 0, 0, 0⟩,
  ⟨0x280208, [(2, 0x10000), (32, 0x20)], 8, 0, 0xffffffffff0, 0, 0, 0⟩,
  ⟨0x280210, [(2, 0x10000), (32, 0x20)], 4, 0, 0xffffffff, 0, 0, 0⟩]

def rowsXspi : List RegRow :=
  [
  ⟨0x2c0000, [], 4, 0x1e, 0x1bf, 0, 0, 0⟩,
  ⟨0x2c0004, [], 4, 0, 0x41ffffff, 0, 0, 0x80000000⟩,
  ⟨0x2c0008, [], 4, 0, 0xffffffff, 0, 0, 0⟩,
  ⟨0x2c000c, [], 4, 0, 0, 1, 0, 0⟩,
  ⟨0x2c0100, [(64, 0x4)], 4, 0, 0xffffffff, 0, 0, 0⟩]

def rowsBmi : List RegRow :=
  [
  ⟨0x2d0000, [(2, 0x100)], 4, 0x1900, 0xff03, 0, 0, 0⟩,
  ⟨0x2d0004, [(2, 0x100)], 4, 0, 0x1f1f007f, 0, 0, 0x80000000⟩,
  ⟨0x2d0008, [(2, 0x100)], 4, 0, 0, 0x1f, 0, 0⟩,
  ⟨0x2d0010, [(2, 0x100), (4, 0x4)], 4, 0, 0xffffffff, 0, 0, 0⟩]

def rowsDbgu : List RegRow :=
  [
  ⟨0x2e0000, [], 4, 0x36, 0x3ffff, 0, 0, 0⟩,
  ⟨0x2e0004, [], 4, 0, 0xff, 0, 0, 0⟩,
  ⟨0x2e0008, [], 4, 0, 0, 0x6000, 0, 0⟩]

def rowsCore : List RegRow :=
  [
  ⟨0x300000, [(8, 0x10)], 4, 0, 0, 0, 0, 1⟩,
  ⟨0x301000, [(64, 0x40)], 4, 4, 4, 8, 0, 3⟩,
  ⟨0x301008, [(64, 0x40)], 8, 0, 0xffffffffffffffff, 0, 0, 0⟩,
  ⟨0x301010, [(64, 0x40)], 8, 0, 0xffffffffffffffff, 0, 0, 0⟩,
  ⟨0x301018, [(64, 0x40)], 8, 0, 0xffffffffffffffff, 0, 0, 0⟩,
  ⟨0x301020, [(64, 0x40)], 8, 0, 0xffffffffffffffff, 0, 0, 0⟩,
  ⟨0x301028, [(64, 0x40)], 8, 0, 0xffffffffffffffff, 0, 0, 0⟩,
  ⟨0x301030, [(64, 0x40)], 8, 0, 0xffffffffffffffff, 0, 0, 0⟩]

def rowsDbg : List RegRow :=
  [
  ⟨0x3f0000, [], 4, 0, 0xffffffff, 0, 0, 0⟩,
  ⟨0x3f0004, [], 4, 0, 0xffffffff, 0, 0, 0⟩,
  ⟨0x3f0008, [], 4, 0, 0xffffffff, 0, 0, 0⟩,
  ⟨0x3f000c, [], 4, 0, 0xffffffff, 0, 0, 0⟩,
  ⟨0x3f0010, [], 4, 0, 0x3c, 0, 0, 1⟩,
  ⟨0x3f0014, [], 4, 0, 0, 3, 0, 0⟩]

/-- The block index that holds the rows of block `b`: the instances of a block share one list (R21). -/
def blockHome (b : Nat) : Option Nat :=
  if b ≤ 0xC then some b
  else if 0x10 ≤ b ∧ b ≤ 0x15 then some 0x10
  else if 0x18 ≤ b ∧ b ≤ 0x1B then some b
  else if b = 0x20 ∨ b = 0x21 then some 0x20
  else if 0x24 ≤ b ∧ b ≤ 0x27 then some 0x24
  else if b = 0x28 ∨ b = 0x29 then some 0x28
  else if 0x2C ≤ b ∧ b ≤ 0x2E then some b
  else if b = 0x30 ∨ b = 0x3F then some b
  else none

/-- The rows of the block whose list is at home index `h`. -/
def rowsOf (h : Nat) : List RegRow :=
  match h with
  | 0x0 => rowsSys
  | 0x1 => rowsClk
  | 0x2 => rowsPwr
  | 0x3 => rowsSec
  | 0x4 => rowsOtp
  | 0x5 => rowsLul
  | 0x6 => rowsBrz
  | 0x7 => rowsGpio
  | 0x8 => rowsTim
  | 0x9 => rowsGst
  | 0xa => rowsTwd
  | 0xb => rowsSql
  | 0xc => rowsCmp
  | 0x10 => rowsHead
  | 0x18 => rowsGal
  | 0x19 => rowsHse
  | 0x1a => rowsPool
  | 0x1b => rowsCst
  | 0x20 => rowsCxl
  | 0x24 => rowsAts
  | 0x28 => rowsEth
  | 0x2c => rowsXspi
  | 0x2d => rowsBmi
  | 0x2e => rowsDbgu
  | 0x30 => rowsCore
  | 0x3f => rowsDbg
  | _ => []

/-- The offset of `d` inside its register, if the instances `dims` of a register of `bytes` bytes cover `d`. -/
def dimsOffset : List (Nat × Nat) → Nat → Nat → Option Nat
  | [], bytes, d => if d < bytes then some d else none
  | (n, st) :: rest, bytes, d => if d / st < n then dimsOffset rest bytes (d % st) else none

/-- The row and base key of the register that covers key `k`, within one block's rows. -/
def findRow : List RegRow → Nat → Option (RegRow × Nat)
  | [], _ => none
  | r :: rs, k =>
    if r.key ≤ k then
      match dimsOffset r.dims r.bytes (k - r.key) with
      | some o => some (r, k - o)
      | none => findRow rs k
    else findRow rs k

/-- The register that covers key `k`: its row and its base key; none at an unassigned block or offset (R18). -/
def regAt (k : Nat) : Option (RegRow × Nat) :=
  match blockHome (k / 0x10000) with
  | none => none
  | some h => findRow (rowsOf h) k

/-- The switched domains that are on at cold reset: those of R496 and SECURE (R484). -/
def coldDomains : List Nat :=
  0 :: 32 :: (List.range 72).map (· + 40) ++ (List.range 16).map (· + 125) ++ [149]

/-- The reset value of the register at key `k` (its table; 0 where nothing is assigned). The filter coefficients of the
video plane (R177) depend on their index, and PWR_DOM_CTRL on its domain. A reset the spec takes from a strap, OTP or a
level outside the register reads 0 here: log entry 3 names each. -/
def regReset (k : Nat) : Nat :=
  match regAt k with
  | none => 0
  | some (r, b) =>
    if r.key = R.HEAD_VP_HCOEF 0 0 ∨ r.key = R.HEAD_VP_VCOEF 0 0 then
      let p := (b - r.key) % 0x10000 / 8
      (0x40 * p) * 2 ^ 32 + (0x400 - 0x40 * p) * 2 ^ 16
    else if r.key = R.PWR_DOM_CTRL 0 then
      if coldDomains.contains ((b - r.key) / 4) then 1 else 0
    else if r.key = R.PWR_RESET_CAUSE then 1
    else if r.key = R.GPIO_PIN_CFG 0 then
      let p := (b - r.key) / 4
      if p = 254 ∨ p = 255 then 0x149 else if 224 ≤ p ∧ p ≤ 231 then 0x140 else 0x180
    else r.rst

end Sys2Proof.Machine
end

