-- ==== Sys2Proof/Machine/State.lean ====
section
/-! DEFINITION. The state of the device as plain data: every register (State.regs), every memory (State.mem), and the
state the spec gives its blocks beside their registers; the queue of waiting commands; why a step can stop. -/

namespace Sys2Proof.Machine

/-! ### Accesses, memory and what leaves the device -/

/-- The answer to the last access command: its status and the bytes it read. -/
structure Resp where
  status : Status := .ok
  data   : List Byte := []
  deriving DecidableEq, Repr

/-- The SEC-DED state of a pool or vault word (R299, R300). An unlisted word is clean. -/
inductive Ecc where
  | clean
  | single
  | double
  | poisoned
  deriving DecidableEq, Repr

/-- What leaves the device, in order: the kind, its numbers and its bytes. -/
inductive OutKind where
  | helloToken | timeToken | barrierToken | digest | broadcast | epochStore | snapshotData | carriedState
  | resetRequest | answer
  | frame | uartByte | scanLine | msa | vbId | aux | linkTrain | laneIdle
  | mdio | xspi | bmi | peerRequest | peerResponse | cxlRequest | codewordReplay
  | tdmWords | tap | wakeRequest
  deriving DecidableEq, Repr

/-- One thing the device sends. -/
structure Out where
  kind : OutKind
  args : List Nat := []
  data : List Byte := []
  deriving DecidableEq, Repr

/-- The rings of R28, by engine and number. -/
inductive Ring where
  | hse (n : Nat)
  | sql (n : Nat)
  | wb (n : Nat)
  | twd (n : Nat)
  | gal (n : Nat)
  | ethTx (n : Nat)
  | ethRx (n : Nat)
  deriving DecidableEq, Repr

/-- A ring beside its registers (R532, R121, R238, R404, R427): the PROD_IDX up to which CANCEL reaches while it
reads 1, whether a stop is requested, the memory whose change taints a covered index (index, address, bytes: its slot and
its lists; a Tradewind list counts as index + 65,536), and the indices so tainted (U-09, U-10). -/
structure RingSt where
  cancelTo : Option Nat := none
  stopping : Bool := false
  watch    : List (Nat × Nat × Nat) := []
  tainted  : List Nat := []
  deriving DecidableEq, Repr

/-! ### Pool (chapter 11) -/

/-- The running spare copy (R302): the bank, its spare, the next word, and the spare's words written poisoned. -/
structure SpareCopy where
  bank     : Nat
  spare    : Nat
  next     : Nat
  poisoned : List Nat := []
  deriving DecidableEq, Repr

/-- The pool beside its registers. `old` holds, for a bank whose handover is pending, the OWN and GRANT words still in
force (R295); `queue` the banks whose remap waits (R302); `scrub` the scrubber's next word, bank × 65,536 + word. -/
structure Pool where
  old   : List (Nat × (Nat × Nat)) := []
  queue : List Nat := []
  copy  : Option SpareCopy := none
  scrub : Nat := 0
  deriving DecidableEq, Repr

/-! ### Knarn threads (chapters 9 and 10) -/

/-- What a waiting thread waits for (R290): an interrupt; a beam target, with the head's frame at issue and whether the
beam was before the target then; a barrier generation. -/
inductive Wait where
  | wfi
  | beam (head line pixel : Nat) (scan next before : Bool) (frame rd : Nat)
  | barrier (rd : Nat)
  deriving DecidableEq, Repr

/-- A thread's pending arrival (R270): barrier, generation, and the result once that generation has ended (R136). -/
structure Arrival where
  bar : Nat
  gen : Nat
  res : Option Nat := none
  deriving DecidableEq, Repr

/-- Where the bytes of a load go: a general register, sign-extended or not, the f or v register, w31 and the register of
a POP, or the PC (RET). -/
inductive LoadDest where
  | gpr (rd : Nat) (signed : Bool)
  | vec (rd : Nat)
  | fld (rd : Nat)
  | pop (rd : Nat)
  | ret
  deriving DecidableEq, Repr

/-- A load of a thread that has begun: its destination, address and size, the bytes of its 8-byte pieces (R286) that
have come, and the addresses of those that got an error response. -/
structure Load where
  dest : LoadDest
  addr : Nat
  size : Nat
  got  : List (Nat × List Byte) := []
  bad  : List Nat := []
  deriving DecidableEq, Repr

/-- The answer of a fetch that left the device (R245, R263): the address, the status and the bytes. -/
structure FetchGot where
  addr : Nat
  st   : Status
  data : List Byte
  deriving DecidableEq, Repr

/-- One thread (R240): general registers, PC, segments, system registers, coprocessor files, the cp1 latch, the pending
barrier arrival (R270), what it waits for, its outstanding load, and the addresses of stores whose error response has
not yet been taken (R263), and the answer of a fetch from outside the device that no instruction has used yet (R263). -/
structure Thread where
  w       : AMap Word := []
  pc      : Word := 0
  sgB     : AMap Word := []
  sgL     : AMap Word := []
  sys     : AMap Word := []
  v       : AMap Word := []
  vstat   : Nat := 0
  f       : AMap Nat := []
  hqL     : Word := 0
  stale   : Bool := false
  range   : Bool := false
  arrived : Option Arrival := none
  wait    : Option Wait := none
  load    : Option Load := none
  badSt   : List Nat := []
  fetched : Option FetchGot := none
  deriving DecidableEq, Repr

/-- A word written by a core to cacheable memory whose line is not known to be written back: its cluster, the core whose
L1D may hold it alone, and its earlier values, newest first (R284, R497). -/
structure Dirty where
  addr    : Nat
  cluster : Nat
  core    : Option Nat
  olds    : List Nat
  deriving DecidableEq, Repr

/-! ### Requests outstanding at a port -/

/-- Who waits for the answer of an outstanding request: a thread, for a piece of its load or for its fetch, the sender of an
access command, the debug port, or nobody. -/
inductive Waiter where
  | thread (t piece : Nat)
  | fetch (t : Nat)
  | sender
  | dbg
  | nobody
  deriving DecidableEq, Repr

/-- A request sent over an Atsobry port (`port` 0 to 3) or a CXL port (4, 5) whose answer has not come. -/
structure Outst where
  port   : Nat
  kind   : ReqKind
  req    : Req
  addr   : Nat
  size   : Nat
  data   : List Byte := []
  waiter : Waiter
  deriving DecidableEq, Repr

/-- A write to register space that an engine has sent (R21): the requester, the offset in register space, the bytes. -/
structure Posted where
  req  : Req
  at_  : Nat
  data : List Byte
  deriving DecidableEq, Repr

/-! ### Breeze (chapter 14) -/

/-- A channel beside its registers: the cycles of passed events whose pulse is due; the cycle of the last pulse emitted or
due (R353, R357); the cycle in which an event last arrived, the sources of its parts (0 a direct fire) and whether it passed
(R358); the cycle in which SRC or GATE last changed (R355). -/
structure BrzCh where
  due  : List Nat := []
  last : Option Nat := none
  at_  : Option Nat := none
  srcs : List Nat := []
  went : Bool := false
  chg  : Option Nat := none
  deriving DecidableEq, Repr

/-! ### Lull (chapter 16) -/

/-- A record offered to or accepted by a queue: KIND, STATUS, UNIT, INDEX and the payload; the ring whose CONS_IDX it
advances when written (R30); the queue and the owner and attribute it is offered under (R379). -/
structure LRec where
  kind   : Nat
  status : Nat
  unit   : Nat
  index  : Nat
  w1     : Nat
  w2     : Nat
  w3     : Nat
  ring   : Option Ring
  queue  : Nat
  owner  : Nat
  s      : Bool
  deriving DecidableEq, Repr

/-- What waits in a queue for its turn (R378): an accepted record, or the pending record of an event input (R385). -/
inductive LItem where
  | record (r : LRec)
  | evt (i : Nat)
  deriving DecidableEq, Repr

/-- A queue beside its registers: what waits, the record whose write failed (R384) and the ring it was for, and the
timer T of R387 while it runs. -/
structure LQueue where
  items   : List LItem := []
  failed  : Option (Nat × Nat × Nat × Nat) := none
  failRing : Option Ring := none
  t       : Option Nat := none
  deriving DecidableEq, Repr

/-- An event input (R385): its merged count, 0 when no record is pending, and the stamp of the first event. -/
structure LEvt where
  count : Nat := 0
  stamp : Nat := 0
  deriving DecidableEq, Repr

/-- Lull beside its registers: queues, event inputs, and the completions and error records that producers offer or hold
(R383). -/
structure Lull where
  q      : AMap LQueue := []
  evt    : AMap LEvt := []
  offers : List LRec := []
  deriving DecidableEq, Repr

/-! ### Timers (chapter 15) -/

/-- A timer channel beside its registers: PRESC as taken at the last ARM and the GUST cycle of the next tick (R365); the
last edge on which it acted, and the phase of R366 in which it did: 0 STOP, 1 ARM, 2 a tick, 3 CAPTURE. -/
structure TimCh where
  presc : Nat := 0
  next  : Nat := 0
  edge  : Option (Nat × Nat) := none
  deriving DecidableEq, Repr

/-! ### Hydrostatic engine (chapters 2 to 4) -/

/-- The inputs of a tank as step 3 uses them, and for each of sounding, temperature and density the cause of a failure
(0 none) of the record it was reused for (R85, R110). -/
structure TankIn where
  snd : Option Nat := none
  tmp : Option Nat := none
  den : Option Nat := none
  c0  : Nat := 0
  c1  : Nat := 0
  c2  : Nat := 0
  deriving DecidableEq, Repr

/-- A base slot (R110): the inputs by tank, the starting solution, the published RATE, AGE and FLAGS by tank, the
record's TICK_STAMP, POINT_STALE and FIRST. -/
structure BaseSlot where
  ins   : List TankIn := []
  start : Nat × Nat × Nat := (0, 0, 0)
  rate  : List Nat := []
  age   : List Nat := []
  flags : List Nat := []
  stamp : Nat := 0
  pointStale : Bool := false
  first : Bool := false
  deriving DecidableEq, Repr

/-- A live cycle between step 10 and its publication: epoch and scheduled time, the model's bank and MODEL_ID, FLAGS,
record bytes 64 to 4,095 and tank block as computed, counts of INVALID and STALE tanks, the tanks' kept values for the
next cycle, the base it offers (R110), RHO_SEA, whether a lookup of HYDRO, KN and SECTION failed, the channels of its
model's criteria and of its strength limits; whether the HSE was put to first use meanwhile, and then the criterion and
strength state that was current (R100). -/
structure Cycle where
  epoch   : Nat
  sched   : Nat
  bank    : Nat
  modelId : Nat
  flags   : Nat
  body    : List Byte
  block   : List Byte
  inv     : Nat
  stale   : Nat
  tanks   : AMap Tank
  base    : BaseSlot
  rho     : Nat := 0
  failed  : Bool × Bool × Bool := (false, false, false)
  chans   : List Nat := []
  strength : Nat := 0
  orphan  : Bool := false
  was     : Nat × Nat × Nat := (0, 0, 0)
  deriving DecidableEq, Repr

/-- A sweep job in progress on a ring (R112, R119); `last` holds the record and tank block of the last candidate when
its mode has not yet selected it, `code` the job code once it has ended. -/
structure SweepJob where
  ring    : Nat
  control : Nat
  count   : Nat
  list    : Nat
  stride  : Nat
  tag     : Nat
  result  : Nat
  limit   : Nat
  next    : Nat := 0
  written : Nat := 0
  last    : Option (List Byte) := none
  code    : Option Nat := none
  deriving DecidableEq, Repr

/-- The self-test in progress (R122 to R124): its next candidate, its set, the model it began with and how often a
model had been switched or lost by then. -/
structure SelfTest where
  next    : Nat := 0
  set     : List Byte := []
  bank    : Nat := 0
  id      : Nat := 0
  switches : Nat := 0
  deriving DecidableEq, Repr

/-- The HSE beside its registers: the parameters in use (R107), what the live cycle keeps (R85, R88, R91, R100, R67),
the result buffer in use, a tick that waits for its cycle (epoch, scheduled time, period), the cycle in progress,
whether the next cycle is the first with its model, whether the last cycle had STALE or INVALID tanks (R100), base
slots, the sweep job, the ring that ran last, the self-test, the adopted state that arrived (R131), the bank under
validation or armed and whether it left code 8 since, the slots latched by CAPTURE and CLEAR, and the number of model
switches and losses; the earliest starts of the next sweep and self-test candidate (R109). -/
structure Hse where
  rho      : Nat := 0x3FF0666666666666
  set      : Nat := 0
  tanks    : AMap Tank := []
  sol      : Option (Nat × Nat × Nat) := none
  prev     : Option (List Byte) := none
  fails    : Nat := 0
  sfOver   : Nat := 0
  bmOver   : Nat := 0
  pts      : Option (List Byte) := none
  result   : Nat := 0
  tick     : Option (Nat × Nat × Nat) := none
  cycle    : Option Cycle := none
  switched : Bool := false
  bad      : Bool := false
  slots    : AMap BaseSlot := []
  job      : Option SweepJob := none
  lastRing : Option Nat := none
  st       : SelfTest := {}
  arrived  : Option Carried := none
  valBank  : Nat := 0
  valLost  : Bool := false
  capSlot  : Nat := 0
  clrSlot  : Nat := 0
  switches : Nat := 0
  candAt   : Nat := 0
  stAt     : Nat := 0
  deriving DecidableEq, Repr

/-! ### Constellation unit (chapter 4) -/

/-- A barrier (R136): the number of its generation, the arrivals counted in it by position, and the GUST time of the first
of them, from which TIMEOUT_US runs (log entry 47). -/
structure Barrier where
  gen    : Nat := 0
  counts : AMap Nat := []
  since  : Nat := 0
  deriving DecidableEq, Repr

/-- An open vote, or one that has closed and whose outcome is not yet recorded (R133): the digests present. -/
structure Vote where
  epoch   : Nat
  digests : AMap Nat
  closed  : Bool := false
  deriving DecidableEq, Repr

/-- A pending epoch store (R138): its issuer, epoch, address, bytes, and requester tag and attribute. -/
structure EStore where
  issuer : Nat
  epoch  : Nat
  addr   : Nat
  data   : List Byte
  req    : Req
  deriving DecidableEq, Repr

/-- A snapshot copy that is due (R139): the registers it started with, the epoch, and whether a publication began it. -/
structure SnapJob where
  region : Nat
  src    : Nat
  dst    : Nat
  units  : Nat
  owner  : Nat
  s      : Bool
  group  : Bool
  epoch  : Nat
  onPublish : Bool
  deriving DecidableEq, Repr

/-- The Constellation unit beside its registers: its leader unless it is its own (R128); the scheduled times of the latest
tick and of the one before, the time of the next tick, and the PERIOD_US of the present interval (R129, R500); the
leader's PERIOD_US and CST_TICK_AT; the tick that has not reached the HSE (epoch, time, period) and the latest that has
(R130); votes and the epochs whose vote has closed (R133); barriers; pending epoch stores; snapshot registers in force and
copies due (R139); the positions that have not answered GO and whether it sent a store (R138); recent reset requests
(R140); the time of FORM (R126); the SYS edges slewed lately, and what the next SYS edge adds beside 1: 1, −1 or nothing
(R372); when the port of each position last received a token, and the GUST time up to which this device's own tokens have
been sent (R126, R127); the epoch whose carried state each position asks for (R131). -/
structure Cst where
  leader  : Option Nat := none
  sched   : Nat := 0
  prev    : Nat := 0
  next    : Nat := 10000000
  period  : Nat := 5000
  lead    : Option (Nat × Nat) := none
  due     : Option (Nat × Nat × Nat) := none
  reached : Nat := 0
  votes   : List Vote := []
  done    : List Nat := []
  bars    : AMap Barrier := []
  stores  : List EStore := []
  snap    : AMap (Nat × Nat × Nat) := []
  jobs    : List SnapJob := []
  go      : List Nat := []
  goStore : Bool := false
  resets  : List (Nat × Nat) := []
  formAt  : Nat := 0
  slews   : List Nat := []
  skew    : Int := 0
  heard   : AMap Nat := []
  sentTo  : Nat := 0
  asks    : AMap Nat := []
  deriving DecidableEq, Repr

/-! ### Heads, composer and Meridian (chapters 5 to 7) -/

/-- A composed pixel: three 10-bit components. -/
structure Px where
  r : Nat
  g : Nat
  b : Nat
  deriving DecidableEq, Repr

/-- A base pixel: A8 and its 8-bit components, premultiplied (R209). -/
structure BasePx where
  a : Nat := 0
  r : Nat := 0
  g : Nat := 0
  b : Nat := 0
  deriving DecidableEq, Repr

/-- A write-back capture in progress (R216 to R218): its descriptor, the frame, the counts, whether a write failed, whether
scan-out has stopped, and whether before its end, and the queue of lines on their way to the buffer. -/
structure Capture where
  addr    : Nat
  pitch   : Nat
  fmt     : Nat
  tag     : Nat
  frame   : Nat
  late    : Nat := 0
  dropped : Nat := 0
  failed  : Bool := false
  ended   : Bool := false
  stopped : Bool := false
  queue   : List (Nat × List Byte) := []
  deriving DecidableEq, Repr

/-- Link training under way (R158): whether it is past clock recovery, the drive levels by lane (swing, pre-emphasis), the
failed attempts of clock recovery by swing level and of equalisation, and the TRAIN_STATE it has come to. -/
structure Training where
  eq    : Bool := false
  drive : List (Nat × Nat) := [(0, 0), (0, 0), (0, 0), (0, 0)]
  tries : AMap Nat := []
  eqs   : Nat := 0
  done  : Option Nat := none
  deriving DecidableEq, Repr

/-- A head beside its registers. `act` is the active copy of the shadowed registers by key (R145). Scan-out: the GUST
cycle of the last start of vertical blanking, whether a write of 0 to ENABLE waits for the next one (R150), the GUST cycle
at which COMMIT was armed, the next line to fetch, the frame it belongs to, the regions whose check of the frame is done,
the GUST cycle at which LEARN was armed by region (R224), running CRCs by region, the last CRC and the still count by
region (R223), the running AL_CRC, and whether the alarm check of the frame is done. Composition: whether a frame is
composed, whether it is one composed wholly live (R211), its number, the next line and pixel, the line buffer, the line's
line-scroll words and sprites, the sprite table, LEAD, the first line not yet late, the late lines, the running AL_EXP,
the alarm cells committed with each line, and the flatten tiles that are EMPTY (1) or VALID (slot + 2). Meridian: whether
the frame boundary is to be sampled, the program in use, its next word, the prefetch buffer (its first index and its
words, none where a read failed), the stamp, the words run in the group, the WAIT target, the SYNC channel and whether its
pulse came, the bits of raster-time registers that it has written for a pixel not yet produced (R197), and the mark of
U-06. The capture, and at a qualifying frame boundary whether a descriptor was there (R216); link training under way. -/
structure HeadSt where
  act     : AMap Word := []
  t0      : Nat := 0
  stopping : Bool := false
  commitAt : Nat := 0
  fetch   : Nat := 0
  frame   : Nat := 0
  checked : List Nat := []
  learn   : AMap Nat := []
  crc     : AMap Nat := []
  prev    : AMap (Option Nat) := []
  still   : AMap Nat := []
  alCrc   : Nat := 0
  alDone  : Bool := false
  comp    : Bool := false
  live    : Bool := false
  cFrame  : Nat := 0
  cLine   : Nat := 0
  cPix    : Nat := 0
  buf     : List Px := []
  mask    : Nat := 0
  ls      : List Nat := []
  spr     : Option (List (List Byte)) := none
  lineSpr : List Nat := []
  lead    : Nat := 0
  lateTo  : Nat := 0
  late    : List Nat := []
  alExp   : Nat := 0
  masks   : AMap Nat := []
  tiles   : AMap Nat := []
  merNew  : Bool := false
  prog    : Option Nat := none
  pc      : Nat := 0
  pre     : Nat × List (Option Nat) := (0, [])
  stamp   : Nat × Nat := (0, 0)
  words   : Nat := 0
  target  : Option (Nat × Nat) := none
  sync    : Option Nat := none
  pulse   : Bool := false
  merW    : AMap Nat := []
  u06     : Bool := false
  wbNew   : Option Bool := none
  cap     : Option Capture := none
  train   : Option Training := none
  deriving DecidableEq, Repr

/-- The composer beside its registers: the flatten tile to look at next (head × 4,096 + tile), the banks in which it
allocates no slot (R214), and the base pixels that each slot in use holds, row by row of 64 (R211). -/
structure Cmp where
  fcNext : Nat := 0
  banned : List Nat := []
  base   : AMap (List BasePx) := []
  deriving DecidableEq, Repr

/-! ### Squall (chapter 8) -/

/-- A command list that runs on a ring (R227): its descriptor, the index of its next command, and its status once it has
ended. -/
structure SqlList where
  addr  : Nat
  count : Nat
  tag   : Nat
  next  : Nat := 0
  code  : Option Nat := none
  deriving DecidableEq, Repr

/-- Squall beside its registers: the lists that run, by ring, and the ring that ran last (R228). -/
structure Sql where
  lists : AMap (Option SqlList) := []
  last  : Nat := 3
  deriving DecidableEq, Repr

/-! ### Gust (chapter 12) -/

/-- A Gust engine beside its registers (the table of chapter 12): shift registers and bit counts, LINE_CRC,
STAMP_LATCH, the FIFOs (oldest first); the step counter and the GUST cycle of the next step (R308); the latched word of
a stall, the delay steps left, whether the instruction at PC has completed and the branch target it took (R309, R310);
the edge on which an awaited Breeze pulse arrived (R316), the edge of the last step and the words that it pushed to the RX
FIFO (R329). -/
structure GstEng where
  sa    : Nat := 0
  ca    : Nat := 0
  sb    : Nat := 0
  cb    : Nat := 0
  crc   : Nat := 0xFFFF
  stamp : Option Nat := none
  txf   : List Nat := []
  rxf   : List Nat := []
  k     : Nat := 0
  next  : Nat := 0
  word  : Option Nat := none
  delay : Nat := 0
  done  : Bool := false
  taken : Option Nat := none
  pulse : Option Nat := none
  stepAt : Option Nat := none
  put   : Nat := 0
  deriving DecidableEq, Repr

/-! ### Pins (chapter 13) -/

/-- What drives a pad (R333, R337): value, enable, open-drain; `wave` where the value is a waveform that the model does not
hold, and `turn` where the enable is part of it. -/
structure Drive where
  v    : Bool := false
  en   : Bool := false
  od   : Bool := false
  wave : Bool := false
  turn : Bool := false
  deriving DecidableEq, Repr

/-- The level that a drive puts on its pad; none where the pad is not driven, or with a waveform (R337). -/
def Drive.level (d : Drive) : Option Bool := if d.en && !d.wave && !(d.od && d.v) then some d.v else none

/-- The pins beside their registers: the drive held in a pad latch (R347) and the pins whose last
admitted KEY was 0xC3A5 (R342). -/
structure Pins where
  held  : AMap Drive := []
  armed : List Nat := []
  deriving DecidableEq, Repr

/-! ### Tradewind (chapter 17) -/

/-- A Tradewind descriptor (R391). -/
structure TwdDesc where
  src     : Nat
  dst     : Nat
  nSrc    : Nat
  nDst    : Nat
  control : Nat
  tag     : Nat
  deriving DecidableEq, Repr

/-- The place of a transfer: element, use and offset of each list, the bytes moved, bytes read and not yet written, and
whether a paced use is in progress (R393, R400). -/
structure TwdPos where
  srcE   : Nat := 0
  srcUse : Nat := 0
  srcOff : Nat := 0
  dstE   : Nat := 0
  dstUse : Nat := 0
  dstOff : Nat := 0
  moved  : Nat := 0
  buf    : List Byte := []
  use    : Bool := false
  deriving DecidableEq, Repr

/-- A channel beside its registers: its descriptor, its place, the place of the last element boundary, the bytes counted
for W2 (R403), the GUST cycle from which a request line may be sampled (R402), and the status once it has ended. -/
structure TwdCh where
  desc    : Option TwdDesc := none
  pos     : TwdPos := {}
  bound   : TwdPos := {}
  counted : Nat := 0
  ready   : Nat := 0
  code    : Option Nat := none
  deriving DecidableEq, Repr

/-- Tradewind beside its registers: channels, the channel served last (R397), and the halts whose error record is due:
first failed address, cause, TWD_HALTED mask (R405, R406). -/
structure Twd where
  ch    : AMap TwdCh := []
  last  : Nat := 31
  halts : List (Nat × Nat × Nat) := []
  deriving DecidableEq, Repr

/-! ### Gale (chapter 18) -/

/-- A tone channel beside its registers (R411, R414): phase, noise register, the next cadence step, the frames until it
starts, and whether a step with TONE_B is in force. -/
structure Tone where
  phi   : Nat := 0
  l     : Nat := 1
  next  : Nat := 0
  left  : Nat := 0
  toneB : Bool := false
  deriving DecidableEq, Repr

/-- A crosspoint node beside its registers (R416): its endpoint, the ramp's endpoint and start gain, the frames of the
ramp that are done. -/
structure XpNode where
  endp : Nat := 0
  gt   : Nat := 0
  g0   : Nat := 0
  k    : Nat := 64
  deriving DecidableEq, Repr

/-- A biquad section's state (R418), and the undefined frames left after a coefficient write (R419, U-16). -/
structure Bq where
  x1   : Int := 0
  x2   : Int := 0
  y1   : Int := 0
  y2   : Int := 0
  free : Nat := 0
  deriving DecidableEq, Repr

/-- A stream's buffer in progress (R424): its descriptor, the GAL_FRAME of its frame 0, the frames processed; once it
has ended, KIND, STATUS and failed address of its record; the answers to the reads of its next frame, sent a frame ahead
(status, value, address). -/
structure GalBuf where
  addr   : Nat
  frames : Nat
  tag    : Nat
  first  : Nat
  k      : Nat := 0
  code   : Option (Nat × Nat × Nat) := none
  ahead  : Option (List (Status × Nat × Nat)) := none
  deriving DecidableEq, Repr

/-- A key action that waits for its frame (R411, R413): its channel, 0 start, 1 stop or 2 an event (ACT says what), and the
GUST cycle of the register write, or the one in which the event reached the task input. -/
structure Key where
  ch  : Nat
  act : Nat
  at_ : Nat
  deriving DecidableEq, Repr

/-- Gale beside its registers: tone channels, key actions that wait, nodes, sections, buffers, the buffers read ahead
(index, buffer), accepted doorbells by stream (PROD_IDX, GUST cycle), whether frame 0 has begun, and the start of the next
frame in thirds of a GUST cycle. -/
structure Gale where
  tones : AMap Tone := []
  keys  : List Key := []
  xp    : AMap XpNode := []
  bq    : AMap Bq := []
  bufs  : AMap (Option GalBuf) := []
  next  : AMap (Option (Nat × GalBuf)) := []
  bells : AMap (List (Nat × Nat)) := []
  begun : Bool := false
  t3    : Nat := 0
  deriving DecidableEq, Repr

/-! ### Ports (chapter 19) -/

/-- An Atsobry port beside its registers: the active lanes, the spare, and BUDGET as the last training took it (R437,
R438). -/
structure AtsPort where
  active : List Nat := []
  spare  : Option Nat := none
  budget : Nat := 0
  deriving DecidableEq, Repr

/-- A MAC beside its registers: records written by rule (R448), the system time at which the present pulse ends and
whether the one pulse of PERIOD 0 has been given (R449), the MDIO frame that runs (R450). -/
structure EthMac where
  counts : AMap Nat := []
  pps    : Option Nat := none
  once   : Bool := false
  mdio   : Nat := 0
  deriving DecidableEq, Repr

/-- The ports beside their registers: Atsobry ports, MACs, and the FIFOs of the debug UART, oldest first (a received
byte without its stop bit has bit 8 set). -/
structure Ports where
  ats : AMap AtsPort := []
  eth : AMap EthMac := []
  tx  : List Nat := []
  rx  : List Nat := []
  deriving DecidableEq, Repr

/-! ### Security controller and debug port (chapter 20) -/

/-- The security controller beside its registers. OTP: the identity scalar once burned, and the bits of it that failed
burns have set (R458, R459; the other fields are the OTP registers). The life cycle that the boot procedure takes (R468),
the measurement M, its count, the SVN of the last image that passed (R464, R472); the command that runs (operation,
argument address) and its status once its work is done; whether the scrap sequence stands after its first value (R473);
whether a boot procedure is due (R465); the tamper conditions that stand and whether one came since cold reset (R474,
R476); whether the wipe ends in a warm reset (R476); the TAP's instruction code and the data of the last read (R480,
R481). -/
structure Sec where
  identity : Option Nat := none
  idBits   : Nat := 0
  bootLc   : Nat := 0
  m        : List Byte := []
  count    : Nat := 0
  lastSvn  : Option Nat := none
  cmd      : Option (Nat × Nat) := none
  done     : Option Nat := none
  scrap    : Bool := false
  boot     : Bool := false
  conds    : Nat := 0
  tampered : Bool := false
  reset    : Bool := false
  ir       : Nat := 2
  dr       : Nat := 0
  deriving DecidableEq, Repr

/-! ### Power, clocks and reset (chapter 21) -/

/-- PWR and CLK beside their registers: the domains whose wake has started (at most 8, R485); the cores being woken by
Lull's wake requests and the START bits of their threads (R490); the CLK_CORE writes remembered (R492); whether the
reset sequence stands after its first value (R497); whether the reference is lost (R494). -/
structure Pwr where
  ramp  : List Nat := []
  auto  : List Nat := []
  freq  : AMap Nat := []
  armed : Bool := false
  noRef : Bool := false
  deriving DecidableEq, Repr

/-! ### The machine -/

/-- The whole state. `regs` holds every register that differs from its reset value and `mem` every byte that is not 0 (log
entry 4). `free` counts the free values read (log entry 5). `clk` counts the CORE cycles of each cluster in twentieths,
and `clk0` holds what it was when each core last woke (R241, R291). `held` says that the device is held in reset: PORST_N
is low, or the reference is lost. `busy` is BUSY of the answer to the last POOL_ACCESS (R297), `violAt` the SYS cycle of
the last refusal counted in SYS (R15), `posted` the register writes that engines have sent and that have not crossed into
their islands (R21). `tasks` lists the events that have reached task inputs, with their cycles; `hops` the cycles in which
pulses reach their consumers, with their channels; `here` the channels whose pulse reaches them in the present cycle
(R353); `pads` the drives that the multiplexers selected in the last three GUST cycles, newest first (R325). The default
of each field is its value at reset. -/
structure State where
  regs    : AMap Word := []
  mem     : AMap Byte := []
  ecc     : AMap Ecc := []
  now     : Nat := 0
  clk     : AMap Nat := []
  clk0    : AMap Nat := []
  stc     : Nat := 0
  free    : Nat := 0
  held    : Bool := true
  resp    : Resp := {}
  busy    : Bool := false
  out     : List Out := []
  fired   : List (Nat × Nat) := []
  tasks   : List (Nat × Nat) := []
  hops    : List (Nat × Nat) := []
  here    : List Nat := []
  pads    : List (AMap Drive) := []
  rings   : AMap RingSt := []
  pool    : Pool := {}
  threads : AMap Thread := []
  dirty   : List Dirty := []
  outst   : List Outst := []
  brz     : AMap BrzCh := []
  flash   : List Nat := []
  tim     : AMap TimCh := []
  lull    : Lull := {}
  hse     : Hse := {}
  cst     : Cst := {}
  heads   : AMap HeadSt := []
  cmp     : Cmp := {}
  sql     : Sql := {}
  gst     : AMap GstEng := []
  pins    : Pins := {}
  twd     : Twd := {}
  gal     : Gale := {}
  ports   : Ports := {}
  sec     : Sec := {}
  pwr     : Pwr := {}
  cxlTaint : Bool := false
  cxlFresh : AMap Nat := []
  ctsHits : List Nat := []
  valHits : List Nat := []
  violAt  : Option Nat := none
  posted  : List Posted := []
  pending : List Instr := []
  deriving DecidableEq, Repr

/-- The machine right after cold reset has begun (R496): PORST_N is low, every register holds its reset value, memory
lists nothing, no command waits. -/
def State.reset : State := {}

/-- Why the machine stops. -/
inductive Fault where
  /-- Raised by every command on a head's Meridian sequencer after a write to the program that the head scans, until
  that head is reset: U-06 is unpredictable and the spec gives no effect (R4). Safe: the machine stops. -/
  | meridianUnpredictable (head : Nat)
  deriving DecidableEq, Repr

/-- Why the machine gives no meaning. -/
inductive Refusal where
  /-- Raised by Dispatch for a command that has no meaning in this model. Safe: the machine stops. -/
  | notModelled (mnemonic : String)
  deriving DecidableEq, Repr

end Sys2Proof.Machine
end

