-- ==== Sys2Proof/Machine/Ops.lean ====
section
/-! DEFINITION. The named operations over State that every family uses: registers and their fields, memory bytes, free
values, what is sent, events into Breeze, refusals (R14, R15), power domains, admission, and the clocks. -/

namespace Sys2Proof.Machine

/-- The outcome of a step of this machine. -/
abbrev Result := Host.Outcome State Fault Refusal

/-! ### Registers -/

/-- The register at key `k`. -/
def State.reg (s : State) (k : Nat) : Nat := (AMap.get s.regs k (BitVec.ofNat 64 (regReset k))).toNat

/-- The registers with the one at key `k` set to `v`. -/
def setRegs (m : AMap Word) (k v : Nat) : AMap Word :=
  AMap.set m k (BitVec.ofNat 64 v) (BitVec.ofNat 64 (regReset k))

/-- The register at key `k` set to `v`. -/
def State.setReg (s : State) (k v : Nat) : State := { s with regs := setRegs s.regs k v }

/-- A field of a register. -/
def State.fld (s : State) (f : Fld) : Nat := bits (s.reg f.key) f.lo f.w

/-- A one-bit field of a register. -/
def State.flag (s : State) (f : Fld) : Bool := decide (s.fld f ≠ 0)

/-- A field set to `x`. -/
def State.setFld (s : State) (f : Fld) (x : Nat) : State := s.setReg f.key (putBits (s.reg f.key) f.lo f.w x)

/-- The field plus `n`, saturating. -/
def State.bumpFld (s : State) (f : Fld) (n : Nat := 1) : State := s.setFld f (satU f.w (s.fld f + n))

/-- A whole 32-bit counter register. -/
def cnt32 (k : Nat) : Fld := ⟨k, 0, 32⟩

/-- A saturating 32-bit counter register plus one. -/
def State.bump (s : State) (k : Nat) : State := s.bumpFld (cnt32 k)

/-- Bits of a register set. -/
def State.orReg (s : State) (k m : Nat) : State := s.setReg k (Nat.lor (s.reg k) m)

/-- Bits of a register cleared. -/
def State.clrReg (s : State) (k m : Nat) : State := s.setReg k (s.reg k - Nat.land (s.reg k) m)

/-- Several registers set, in order. -/
def State.setAll (s : State) (l : List (Nat × Nat)) : State := l.foldl (fun s e => s.setReg e.1 e.2) s

/-- Every register whose key satisfies `p` back at its reset value. -/
def State.resetRegs (s : State) (p : Nat → Bool) : State := { s with regs := s.regs.dropKeys p }

/-! ### Memory bytes (R6) -/

/-- The byte at physical address `a`. -/
def State.byte (s : State) (a : Nat) : Byte := AMap.get s.mem a 0

/-- The `n` bytes from `a` upward. -/
def State.bytes (s : State) : Nat → Nat → List Byte
  | _, 0 => []
  | a, n + 1 => s.byte a :: State.bytes s (a + 1) n

/-- A memory with `bs` stored from `a` upward. -/
def putBytes (m : AMap Byte) : Nat → List Byte → AMap Byte
  | _, [] => m
  | a, b :: bs => putBytes (AMap.set m a b 0) (a + 1) bs

/-- The bytes `bs` stored from `a` upward. -/
def State.poke (s : State) (a : Nat) (bs : List Byte) : State := { s with mem := putBytes s.mem a bs }

/-- The bytes from `a` up to `a + n - 1` zero. -/
def State.zero (s : State) (a n : Nat) : State :=
  { s with mem := s.mem.dropKeys (fun k => decide (a ≤ k) && decide (k < a + n)) }

/-- The `n`-byte number at `a`. -/
def State.num (s : State) (a n : Nat) : Nat := ofBytes (s.bytes a n)

/-! ### Free values and what is sent -/

/-- The next free value. -/
def State.freeVal (s : State) : Nat := (Config.freeValue s.free).toNat

/-- The machine after `n` free values have been read. -/
def State.skipFree (s : State) (n : Nat := 1) : State := { s with free := s.free + n }

/-- `n` free bytes, from counter value `c` on. -/
def freeBytes (c : Nat) : Nat → List Byte
  | 0 => []
  | n + 1 => BitVec.ofNat 8 (Config.freeValue c).toNat :: freeBytes (c + 1) n

/-- Something sent by the device. -/
def State.emit (s : State) (o : Out) : State := { s with out := s.out ++ [o] }

/-- Nothing acts while the device is held in reset (R494, R496). -/
def State.outOfReset (s : State) (f : State → State) : State := if s.held then s else f s

/-- The answer to the current access command. -/
def State.answer (s : State) (st : Status) (bs : List Byte := []) : State := { s with resp := ⟨st, bs⟩ }

/-! ### Pins as other blocks see them (R336, R339) -/

/-- The function of pin `p`. -/
def State.pinFunc (s : State) (p : Nat) : Nat := s.fld (F.GPIO_PIN_CFG_FUNC p)

/-- The supply of the bank of pin `p` is good (R339). -/
def State.pinPg (s : State) (p : Nat) : Bool := s.flag (F.GPIO_BANK_CFG_PG (p / 32))

/-- The level that the device itself drove on pad `p` two GUST cycles ago, which the input shows now (R325): a drive
selected in the cycle before that. -/
def State.padSeen (s : State) (p : Nat) : Option Bool :=
  if s.pinPg p then (AMap.get (s.pads.getD 2 []) p {}).level else none

/-- The synchronised input of pin `p` (R325, R336): the device's own drive, or the last sample of a pad that it does not
drive. -/
def State.pinIn (s : State) (p : Nat) : Bool := (s.padSeen p).getD (bit (s.reg (R.GPIO_IN (p / 32))) (p % 32))

/-- The attribute of pin `p`. -/
def State.pinS (s : State) (p : Nat) : Bool := bit (s.reg (R.GPIO_PIN_OWN p)) 4

/-- A signal of functions 4 to 9 receives what comes in at its pin `p` (R336). -/
def State.pinTo (s : State) (p f : Nat) : Bool := decide (s.pinFunc p = f) && s.pinPg p

/-- The level that a signal of function `f` on pin `p` sees: the idle one while the pin does not select the function (R336),
and otherwise the pin's input, which reads 0 while the supply is bad (R339). -/
def State.pinSig (s : State) (p f : Nat) (idle : Bool) : Bool :=
  if s.pinFunc p = f then s.pinPg p && s.pinIn p else idle

/-! ### Breeze sources (R351) -/

/-- The channels whose SRC is `src`. A channel whose CFG register is not listed has SRC 0. -/
def State.listeners (s : State) (src : Nat) : List Nat :=
  s.regs.filterMap (fun e =>
    if R.BRZ_CH_CFG 0 ≤ e.1 ∧ e.1 < R.BRZ_CH_CFG 256 ∧ (e.1 - R.BRZ_CH_CFG 0) % 16 = 0 ∧ bits e.2.toNat 0 10 = src
    then some ((e.1 - R.BRZ_CH_CFG 0) / 16) else none)

/-- A pulse of source `src` sets out for every channel that selects it (R352). -/
def State.fire (s : State) (src : Nat) : State :=
  { s with fired := s.fired ++ (s.listeners src).map (fun c => (src, c)) }

abbrev Src.HSE_PUBLISH : Nat := 0x300
abbrev Src.HSE_OVERRUN : Nat := 0x301
abbrev Src.HSE_PUBLISH_ERR : Nat := 0x302
abbrev Src.HSE_TABLE_ERR : Nat := 0x303
abbrev Src.HSE_MODEL_SWITCH : Nat := 0x304
abbrev Src.HSE_INPUT : Nat := 0x305
abbrev Src.HSE_SELFTEST : Nat := 0x306
abbrev Src.CST_MEMBER : Nat := 0x310
abbrev Src.CST_TIME : Nat := 0x311
abbrev Src.CST_VOTE : Nat := 0x312
abbrev Src.CST_VOTE_DISSENT : Nat := 0x313
abbrev Src.CST_MAILBOX : Nat := 0x314
abbrev Src.CST_RESET_REFUSED : Nat := 0x315
abbrev Src.CST_TICK : Nat := 0x316
/-- Event `k` of head `n`: 0 VBLANK, 1 COMMIT, 2 LINK, 3 HPD, 4 LAYER_ERR, 5 SPR_OVERFLOW, 6 MER_ERR, 7 LATE, 8 STARFIX. -/
abbrev Src.HEAD (n k : Nat) : Nat := 0x320 + 0x10 * n + k
abbrev Src.CMP_FC_ERR : Nat := 0x380
abbrev Src.SQL_ERR : Nat := 0x381
abbrev Src.CORE_DFAULT : Nat := 0x382
abbrev Src.POOL_VIOLATION : Nat := 0x384
abbrev Src.POOL_UE : Nat := 0x385
abbrev Src.POOL_REMAP : Nat := 0x386
abbrev Src.POOL_FAILED : Nat := 0x387
abbrev Src.GST_FAULT : Nat := 0x388
abbrev Src.GST_LINE_ERR : Nat := 0x389
abbrev Src.GST_VIOLATION : Nat := 0x38A
abbrev Src.GPIO_VIOLATION : Nat := 0x38B
abbrev Src.BRZ_VIOLATION : Nat := 0x38C
abbrev Src.LUL_VIOLATION : Nat := 0x38D
abbrev Src.SYS_VIOLATION : Nat := 0x38E
abbrev Src.RING_DB_ERR : Nat := 0x38F
abbrev Src.TIM_TERM (c : Nat) : Nat := 0x3A0 + c
abbrev Src.TIM_MATCH (c : Nat) : Nat := 0x3C0 + c
abbrev Src.CH (c : Nat) : Nat := 0x100 + c
abbrev Src.PIN (p : Nat) : Nat := 0x200 + p

/-! ### Requesters and admission (R10 to R13) -/

/-- The device position in the tag. -/
def posOf (q : Req) : Nat := bits q.tag.toNat 6 2

/-- The owner code (R10, R11). -/
def ownerOf (q : Req) : Nat := if bit q.tag.toNat 8 then bits q.tag.toNat 0 4 else bits q.tag.toNat 3 3

/-- The device's own group position. -/
def State.pos (s : State) : Nat := s.fld F.CST_ID_POS

/-- The requester is the secure controller: an engine of this device with owner code 15. -/
def State.secure (s : State) (q : Req) : Bool :=
  bit q.tag.toNat 8 && decide (ownerOf q = 15) && decide (posOf q = s.pos) && q.s

/-- An engine of this device with owner code `c` and attribute `a`. -/
def State.engine (s : State) (c : Nat) (a : Bool) : Req := ⟨BitVec.ofNat 9 (256 + 64 * s.pos + c), a⟩

/-- Thread `t` of this device with attribute `a`. -/
def State.threadReq (s : State) (t : Nat) (a : Bool) : Req := ⟨BitVec.ofNat 9 (64 * s.pos + t), a⟩

/-- The attribute check of R13. -/
def attrOk (targetS : Bool) (q : Req) : Bool := !targetS || q.s

/-- The admission of R341: the secure controller, or owner code `o` (any when 14) with an attribute that passes. -/
def State.admits (s : State) (q : Req) (o : Nat) (targetS : Bool) : Bool :=
  s.secure q || ((decide (o = 14) || decide (ownerOf q = o)) && attrOk targetS q)

/-- The block index of a register key. -/
def blockOf (k : Nat) : Nat := k / 0x10000

/-! ### Refusals (R14, R15) -/

/-- Where a refusal is counted and signalled (the table of R15). -/
inductive Target where
  | pool (bank : Nat)
  | gst
  | gpio
  | brz
  | lul
  | sys (block : Nat)
  deriving DecidableEq, Repr

/-- The word that names a refused request: WRITE, S, the target and the tag. -/
def violWord (q : Req) (write : Bool) (where_ : Nat) : Nat :=
  b2n write * 2 ^ 31 + b2n q.s * 2 ^ 30 + where_ * 2 ^ 16 + q.tag.toNat

/-- The word in SYS_VIOL_LAST after a refusal at block `b` (R15): of several in one SYS cycle the highest block stays. -/
def State.sysViolLast (s : State) (q : Req) (write : Bool) (b : Nat) : Nat :=
  if s.violAt = some (s.now / 5) ∧ b < bits (s.reg R.SYS_VIOL_LAST) 16 7 then s.reg R.SYS_VIOL_LAST
  else violWord q write b

/-- A refused request is counted and signalled at its target's place. -/
def State.refuse (s : State) (q : Req) (write : Bool) : Target → State
  | .pool b => ((s.bump R.POOL_VIOL_COUNT).setReg R.POOL_VIOL_LAST (violWord q write b)).fire Src.POOL_VIOLATION
  | .gst => (s.bump R.GST_VIOL_COUNT).fire Src.GST_VIOLATION
  | .gpio => (s.bump R.GPIO_VIOL_COUNT).fire Src.GPIO_VIOLATION
  | .brz => (s.bump R.BRZ_VIOL_COUNT).fire Src.BRZ_VIOLATION
  | .lul => (s.bump R.LUL_VIOL_COUNT).fire Src.LUL_VIOLATION
  | .sys b =>
    { ((s.bump R.SYS_VIOL_COUNT).setReg R.SYS_VIOL_LAST (s.sysViolLast q write b)).fire Src.SYS_VIOLATION with
      violAt := some (s.now / 5) }

/-! ### Power domains (R484, R489) -/

/-- Domain `d` reads on. While PORST_N is low nothing is on (R496). -/
def State.domOn (s : State) (d : Nat) : Bool := !s.held && decide (s.fld (F.PWR_DOM_STATUS_STATE d) = 2)

/-- The HSE and the CTS are on: all four lane groups are (R489). -/
def State.hseOn (s : State) : Bool := s.domOn 120 && s.domOn 121 && s.domOn 122 && s.domOn 123

/-- Pool bank `b`'s group is on. -/
def State.bankOn (s : State) (b : Nat) : Bool := s.domOn (40 + b / 4)

/-- Domain `d`, a pool group or SECURE, takes accesses to its memory: on, or waking, when an access waits for the clearing
(R305, R306). The clearing shows at the start of the wake, so the access finds it done (log entry 44). -/
def State.domTakes (s : State) (d : Nat) : Bool :=
  !s.held && (decide (s.fld (F.PWR_DOM_STATUS_STATE d) = 2) || decide (s.fld (F.PWR_DOM_STATUS_STATE d) = 1))

/-- Pool bank `b`'s group takes accesses. -/
def State.bankTakes (s : State) (b : Nat) : Bool := s.domTakes (40 + b / 4)

/-- Head `n` is on. -/
def State.headOn (s : State) (n : Nat) : Bool := s.domOn (112 + n)

/-- The block at index `b` is powered: its switched domain is on, or it has none. -/
def State.blockOn (s : State) (b : Nat) : Bool :=
  if s.held then false
  else if b = 0x03 ∨ b = 0x04 then s.domOn 149
  else if b = 0x0B then s.domOn 119
  else if b = 0x0C then s.domOn 118
  else if 0x10 ≤ b ∧ b ≤ 0x15 then s.domOn (112 + (b - 0x10))
  else if b = 0x18 then s.domOn 124
  else if b = 0x19 then s.hseOn
  else if b = 0x20 ∨ b = 0x21 then s.domOn (141 + (b - 0x20))
  else if 0x24 ≤ b ∧ b ≤ 0x27 then s.domOn (143 + (b - 0x24))
  else if b = 0x28 ∨ b = 0x29 then s.domOn (147 + (b - 0x28))
  else true

/-! ### The group (R128) -/

/-- The unit is ALONE. -/
def State.alone (s : State) : Bool := decide (s.fld F.CST_GROUP_STATUS_STATE = 0)

/-- MEMBERS. -/
def State.members (s : State) : Nat := s.fld F.CST_GROUP_MEMBERS

/-- Votes are held (R133). -/
def State.votes (s : State) : Bool := !s.alone && decide (s.members - Nat.land s.members (2 ^ s.pos) ≠ 0)

/-- The leader's position: the device's own when it follows no one (R128). -/
def State.leaderPos (s : State) : Nat := s.cst.leader.getD s.pos

/-- The device follows no leader. -/
def State.leads (s : State) : Bool := decide (s.leaderPos = s.pos)

/-- TIME_ALIGNED (R128). -/
def State.aligned (s : State) : Bool := s.alone || s.leads || s.flag F.CST_GROUP_STATUS_TIME_ALIGNED

/-! ### Threads -/

/-- Thread `t`. -/
def State.th (s : State) (t : Nat) : Thread := AMap.get s.threads t {}

/-- Thread `t` replaced. -/
def State.setTh (s : State) (t : Nat) (x : Thread) : State := { s with threads := AMap.set s.threads t x {} }

/-- The STATE of thread `t`: 0 off, 1 running, 2 waiting, 3 halted, 4 double fault (R291). -/
def State.thState (s : State) (t : Nat) : Nat := s.fld (F.CORE_TH_CTRL_STATE t)

end Sys2Proof.Machine
end

