-- ==== Sys2Proof/Machine/Time.lean ====
section
/-! DEFINITION. The passing of time (log entry 1): the drive of every pad through its stages (R325, R333 to R338, R346), the
pulses on their way to their consumers (R353), and the counters that run. -/

namespace Sys2Proof.Machine

/-- Pin `p` is in hold (R347). -/
def State.pinHeld (s : State) (p : Nat) : Bool := bit (s.reg (R.GPIO_HOLD (p / 32))) (p % 32)

/-- The attribute of channel `c`. -/
def State.chS (s : State) (c : Nat) : Bool := s.flag (F.BRZ_CH_OWN_S c)

/-- The group's domain is on (R332). -/
def State.gstOn (s : State) (g : Nat) : Bool := s.domOn (125 + g)

/-- The group's attribute. -/
def State.gstS (s : State) (g : Nat) : Bool := s.flag (F.GST_GROUP_OWN_S g)

/-! ### Drive (R333, R334, R337, R338) -/

/-- The Gust drive of pin `p` (R323, R324, R332): value, enable. -/
def State.gstDriveOf (s : State) (p : Nat) : Bool × Bool :=
  (List.range 64).foldl (fun (a : Bool × Bool) e =>
    let b := s.fld (F.GST_ENG_WIN_WIN_BASE e)
    if s.gstOn (e / 4) && decide (b ≤ p) && decide (p < b + s.fld (F.GST_ENG_WIN_WIN_COUNT e)) &&
       (s.gstS (e / 4) || !s.pinS p) then
      (a.1 || bit (s.reg (R.GST_ENG_OUTV e)) (p - b), a.2 || bit (s.reg (R.GST_ENG_OUTE e)) (p - b))
    else a) (false, false)

/-- The life cycle in SEC_STATUS encoding (R458). -/
def State.lifeCycle (s : State) : Nat :=
  match s.reg R.OTP_LC % 16 with
  | 0 => 0
  | 1 => 1
  | 3 => 2
  | 7 => 3
  | _ => 4

/-- The debug UART is open in the present life cycle (R478). -/
def State.uartOpen (s : State) : Bool :=
  match s.lifeCycle with
  | 2 => s.flag F.SEC_DEBUG_UART_EN || bit (s.fld F.SEC_DEBUG_SCOPE) 2
  | 4 => false
  | _ => true

/-- An output that shows `v`, or a waveform while `wave`. -/
def outDrive (v : Bool) (wave : Bool := false) : Drive := { v := v, en := true, wave := wave }

/-- The drive of TDM pin `p` (R420): low while its port does not run; DIN is an input. -/
def State.tdmDrive (s : State) (p : Nat) : Drive :=
  let q := (p - 192) / 5
  let j := (p - 192) % 5
  if j = 3 ∨ ¬ s.domOn 124 then {}
  else outDrive false (if j = 4 then s.flag (F.GAL_TDM_CFG_MCLK_EN q) else s.flag (F.GAL_TDM_CFG_EN q))

/-- The drive of a fixed-function signal at pin `p` (R334, R420, R436, R449, R450, R453, R455, R478). A block that is off
supplies value 0 and enable 0 (R347). -/
def State.fixedDrive (s : State) (p : Nat) : Drive :=
  if p < 212 then s.tdmDrive p
  else if p < 228 then outDrive true (s.flag (F.BMI_CMD_GO ((p - 224) / 2)))
  else if p = 228 then outDrive true (s.flag F.DBGU_CFG_EN && s.uartOpen && !s.ports.tx.isEmpty)
  else if p = 230 then outDrive (!(s.flag F.DBGU_CFG_FLOW && decide (s.ports.rx.length ≤ 12)))
  else if p = 238 ∨ p = 239 then (if s.domOn (141 + (p - 238)) then outDrive (!s.flag (F.CXL_CTRL_PERST (p - 238))) else {})
  else if p = 240 ∨ p = 241 then (if s.domOn (141 + (p - 240)) then outDrive (!s.flag (F.CXL_CTRL_LINK_EN (p - 240))) else {})
  else if p = 242 then (if s.domOn 147 then outDrive false (s.flag (F.ETH_MDIO_GO 0)) else {})
  else if p = 243 then
    (if s.domOn 147 && s.flag (F.ETH_MDIO_GO 0) then { outDrive false true with turn := true } else {})
  else if p = 244 ∨ p = 245 then
    (if s.domOn (147 + (p - 244)) then outDrive (AMap.get s.ports.eth (p - 244) {}).pps.isSome else {})
  else {}

/-- Function 5, and CXL_CLKREQ_N, are open-drain whatever OD holds (R337). -/
def State.pinOd (s : State) (p : Nat) : Bool :=
  s.flag (F.GPIO_PIN_CFG_OD p) || decide (s.pinFunc p = 5) || (decide (s.pinFunc p = 7) && decide (240 ≤ p))

/-- The drive that the multiplexer of pin `p` selects (R333, R338). -/
def State.pinDrive (s : State) (p : Nat) : Drive :=
  let of (d : Bool × Bool) : Drive := { v := d.1, en := d.2 }
  let d := match s.pinFunc p with
    | 0 =>
      let o := if p % 32 < 16 then R.GPIO_OUT_LO (p / 32) else R.GPIO_OUT_HI (p / 32)
      let e := if p % 32 < 16 then R.GPIO_OE_LO (p / 32) else R.GPIO_OE_HI (p / 32)
      of (bit (s.reg o) (p % 16), bit (s.reg e) (p % 16))
    | 1 => of (s.gstDriveOf p)
    | 2 =>
      let c := p % 32
      if s.pinS p && !s.flag (F.TIM_OWN_S c) then {} else of (s.flag (F.TIM_CTRL_LEVEL c), s.flag (F.TIM_CFG_PIN_EN c))
    | 3 =>
      if s.fld (F.BRZ_CH_CFG_PIN_ACT p) = 0 ∨ (s.pinS p && !s.chS p) = true then {}
      else of (s.flag (F.BRZ_CH_STATUS_PIN_LEVEL p), true)
    | _ => s.fixedDrive p
  { d with od := s.pinOd p }

/-- The drive of pad `p`: the held one in hold (R347), the selected one otherwise. -/
def State.padDrive (s : State) (p : Nat) : Drive := if s.pinHeld p then AMap.get s.pins.held p {} else s.pinDrive p

/-- The pads' drives that are enabled in the present cycle. -/
def State.drives (s : State) : AMap Drive :=
  (List.range 256).filterMap (fun p => if (s.padDrive p).en then some (p, s.padDrive p) else none)

/-- The drive that pad `p` shows: the one of the cycle before (R325, R346). -/
def State.padShown (s : State) (p : Nat) : Drive := AMap.get (s.pads.headD []) p {}

/-! ### Pulses that reach their consumers (R353) -/

/-- The task inputs that a pulse of channel `c` reaches (R359, R360). -/
def State.tasksOf (s : State) (c : Nat) : List Nat :=
  (List.range 224).filter (fun t =>
    ((s.flag (F.BRZ_TASK_A_EN t) && decide (s.fld (F.BRZ_TASK_A_CH t) = c)) ||
     (s.flag (F.BRZ_TASK_B_EN t) && decide (s.fld (F.BRZ_TASK_B_CH t) = c))) &&
    (s.flag (F.BRZ_TASK_CTL_S t) == s.chS c))

/-- The pin output of channel `c` after a pulse (R362). -/
def State.brzPin (s : State) (c : Nat) : State :=
  let f := F.BRZ_CH_STATUS_PIN_LEVEL c
  match s.fld (F.BRZ_CH_CFG_PIN_ACT c) with
  | 1 => s.setFld f 1
  | 2 => s.setFld f 0
  | 3 => s.setFld f (1 - s.fld f)
  | 4 => { s.setFld f 1 with flash := c :: s.flash }
  | _ => s

/-- Gust engine `x`, number `e`, awaits a pulse of channel `c` and may see it (R316, R359). -/
def State.gstAwaits (s : State) (e : Nat) (x : GstEng) (c : Nat) : Bool :=
  match x.word with
  | some w => decide (bits w 28 4 = 3) && decide (bits w 17 2 = 1) && decide (bits w 8 8 = c) && (s.gstS (e / 4) || !s.chS c)
  | none => false

/-- A pulse reaches task input `t` in the present cycle; two in one cycle are one event (R358). -/
def State.taskReach (s : State) (t : Nat) : State :=
  if s.tasks.contains (t, s.now) then s.setFld (F.BRZ_TASK_CTL_COINCIDENT t) 1
  else { s with tasks := s.tasks ++ [(t, s.now)] }

/-- A pulse of channel `c` reaches its consumers: its pin output, the Gust engines and Meridian sequencers that await it,
its task inputs (R353). -/
def State.reach (s : State) (c : Nat) : State :=
  let s := s.brzPin c
  let s : State := { s with
    here := c :: s.here,
    gst := s.gst.map (fun (e : Nat × GstEng) =>
      (e.1, if s.gstAwaits e.1 e.2 c && e.2.pulse.isNone then { e.2 with pulse := some s.now } else e.2)),
    heads := s.heads.map (fun (e : Nat × HeadSt) => (e.1, if e.2.sync = some c then { e.2 with pulse := true } else e.2)) }
  (s.tasksOf c).foldl State.taskReach s

/-! ### Time -/

/-- The running coalescing timers advance by `n` SYS cycles (R387). -/
def State.passLull (s : State) (n : Nat) : State :=
  if n = 0 then s else
  { s with lull := { s.lull with q := s.lull.q.map (fun e => (e.1, { e.2 with t := e.2.t.map (· + n) })) } }

/-- Pin outputs of Breeze channels with PIN_ACT 4 fall back to 0 after one GUST cycle (R362). -/
def State.unflash (s : State) : State :=
  match s.flash with
  | [] => s
  | l => { l.foldl (fun s c => s.setFld (F.BRZ_CH_STATUS_PIN_LEVEL c) 0) s with flash := [] }

/-- The system time counter after `n` SYS edges, the first of which may skip its advance or advance by 2 (R372). -/
def State.stcAfter (s : State) (n : Nat) : Nat :=
  if n = 0 then s.stc else ((s.stc : Int) + (n : Int) + s.cst.skew).toNat % 2 ^ 64

/-- The CORE clock of cluster `c` runs: FAB is locked, and a core of it is on (R492). -/
def State.clusterClock (s : State) (c : Nat) : Bool :=
  s.flag F.CLK_STATUS_FAB_LOCKED && (List.range 4).any (fun k => s.domOn (c * 4 + k))

/-- The clusters' cycle counts after `n` GUST cycles (500 MHz) at their effective frequencies (multiples of 25 MHz). -/
def State.clkAfter (s : State) (n : Nat) : AMap Nat :=
  (List.range 8).foldl (fun (m : AMap Nat) c =>
    if s.clusterClock c then AMap.set m c (AMap.get m c 0 + n * s.fld (F.CLK_CORE_EFFECTIVE c)) 0 else m) s.clk

/-- The drives selected in the last three cycles after `n` more cycles, in the first of which PIN_ACT 4 outputs still show
1. -/
def State.padsAfter (s : State) (n : Nat) : List (AMap Drive) :=
  (List.replicate (min (n - 1) 3) s.unflash.drives ++ s.drives :: s.pads).take 3

/-- `n` GUST cycles pass in which no pulse reaches a consumer: the GUST clock counts them, each running CORE clock its own
cycles, and the system time counter the SYS cycles among them. -/
def State.passQuiet (s : State) (n : Nat) : State :=
  if n = 0 then s else
  let sys := (s.now + n) / 5 - s.now / 5
  { (s.unflash).passLull sys with
    now := s.now + n, clk := s.clkAfter n, stc := s.stcAfter sys, pads := s.padsAfter n, here := [],
    cst := { s.cst with skew := if sys = 0 then s.cst.skew else 0 } }

/-- `n` GUST cycles pass; the pulses on their way reach their consumers in their cycles (R353). -/
def State.pass (s : State) (n : Nat) : State :=
  let t := s.now + n
  let s := (s.hops.filter (fun (e : Nat × Nat) => Nat.ble e.1 t)).foldl
    (fun (s : State) e => (s.passQuiet (e.1 - s.now)).reach e.2)
    { s with hops := s.hops.filter (fun (e : Nat × Nat) => !Nat.ble e.1 t) }
  s.passQuiet (t - s.now)

/-- Time passes until the GUST clock reads at least `t`. -/
def State.until (s : State) (t : Nat) : State := s.pass (t - s.now)

/-- `n` SYS cycles pass. -/
def State.passSys (s : State) (n : Nat) : State := s.pass (5 * n)

/-- Time passes until the system time counter has advanced by `d`. -/
def State.advance (s : State) (d : Nat) : State :=
  if d = 0 then s else s.passSys (max 1 ((d : Int) - s.cst.skew).toNat)

/-- Time passes until the system time counter has reached `t`, unless `t` lies behind it: 64-bit times up to 2^63 apart. -/
def State.untilStc (s : State) (t : Nat) : State :=
  let d := (t + 2 ^ 64 - s.stc) % 2 ^ 64
  s.advance (if d < 2 ^ 63 then d else 0)

end Sys2Proof.Machine
end

