-- ==== Sys2Proof/Machine/Watch.lean ====
section
/-! DEFINITION. What a write to memory touches beyond its bytes: ring slots (R32), the words other caches hold (R282),
the flatten tiles whose static sources it changes (R212), and Meridian programs in use (R198). -/

namespace Sys2Proof.Machine

abbrev poolBase : Nat := 0x10000000

/-! ### Heads -/

/-- Head `n` beside its registers. -/
def State.head (s : State) (n : Nat) : HeadSt := AMap.get s.heads n {}

def State.setHead (s : State) (n : Nat) (x : HeadSt) : State := { s with heads := AMap.set s.heads n x {} }

/-- The active copy of the shadowed register at key `k` of a head (R145). -/
def HeadSt.areg (x : HeadSt) (k : Nat) : Nat := (AMap.get x.act k (BitVec.ofNat 64 (regReset k))).toNat

/-- A field of an active copy. -/
def HeadSt.afld (x : HeadSt) (f : Fld) : Nat := bits (x.areg f.key) f.lo f.w

/-- The active H_ACTIVE and V_ACTIVE of head `n`. -/
def State.hActive (s : State) (n : Nat) : Nat := (s.head n).afld (F.HEAD_HTIM_A_H_ACTIVE n)
def State.vActive (s : State) (n : Nat) : Nat := (s.head n).afld (F.HEAD_VTIM_A_V_ACTIVE n)

/-- SCANNING of head `n`. -/
def State.scanning (s : State) (n : Nat) : Bool := s.headOn n && s.flag (F.HEAD_STATUS_SCANNING n)

/-- The tiles of a map code (R171): 32, 64, 128 or 256. -/
def mapDim (c : Nat) : Nat := 32 * 2 ^ c

/-- Two ranges of bytes meet. -/
def meets (a n b m : Nat) : Bool := decide (a < b + m) && decide (b < a + n)

/-! ### Invalidation of flatten tiles (R212) -/

/-- The flatten tiles (row × 64 + column) of the screen columns `x0` to `x1` and rows `y0` to `y1`. -/
def tilesOf (x0 x1 y0 y1 : Nat) : List Nat :=
  (List.range (y1 / 64 + 1 - y0 / 64)).flatMap (fun j =>
    (List.range (x1 / 64 + 1 - x0 / 64)).map (fun i => (y0 / 64 + j) * 64 + (x0 / 64 + i)))

/-- The tiles that show entry (`mx`, `my`) of a map of `pw` × `ph` pixels with tiles of `t`, at every repetition. -/
def tilesOfEntry (h v pw ph t mx my : Nat) : List Nat :=
  (List.range (h / pw + 1)).flatMap (fun i => (List.range (v / ph + 1)).flatMap (fun j =>
    let x := i * pw + mx * t
    let y := j * ph + my * t
    if x < h ∧ y < v then tilesOf x (min (x + t) h - 1) y (min (y + t) v - 1) else []))

/-- The tiles of head `n` that a write of the 64-byte line at pool offset `a` affects through plane `p`. -/
def HeadSt.planeHits (x : HeadSt) (n p a h v : Nat) : List Nat :=
  let t := if x.afld (F.HEAD_TP_CFG_TILE16 n p) = 1 then 16 else 8
  let w := mapDim (x.afld (F.HEAD_TP_CFG_MAP_W n p))
  let hh := mapDim (x.afld (F.HEAD_TP_CFG_MAP_H n p))
  let map := x.afld (F.HEAD_TP_MAP_OFFSET n p) * 1024
  let pat := x.afld (F.HEAD_TP_PAT_OFFSET n p) * 64
  let size := t * t * (4 * 2 ^ x.afld (F.HEAD_TP_CFG_BPP n p)) / 8
  if x.afld (F.HEAD_TP_CFG_STATIC_EN n p) = 0 then []
  else
    (if meets a 64 pat (65536 * size) then x.tiles.map (fun (e : Nat × Nat) => e.1) else []) ++
    (if meets a 64 map (4 * w * hh) then
      (List.range 16).flatMap (fun j =>
        let k := (a + 4 * j - map) / 4
        if map ≤ a + 4 * j ∧ k < w * hh then tilesOfEntry h v (w * t) (hh * t) t (k % w) (k / w) else [])
     else [])

/-- The tiles of head `n` that a write of the 64-byte line at pool offset `a` affects through static bitmap `b`. -/
def HeadSt.bitmapHits (x : HeadSt) (n b a h v : Nat) : List Nat :=
  let off := x.afld (F.HEAD_SB_PIX_OFFSET n b) * 64
  let pitch := x.afld (F.HEAD_SB_CFG_PITCH n b) * 64
  let w := x.afld (F.HEAD_SB_SIZE_LOW n b)
  let hh := x.afld (F.HEAD_SB_SIZE_HIGH n b)
  let x0 := x.afld (F.HEAD_SB_POS_LOW n b)
  let y0 := x.afld (F.HEAD_SB_POS_HIGH n b)
  if x.afld (F.HEAD_SB_CFG_ENABLE n b) = 0 then []
  else
    (List.range hh).flatMap (fun j =>
      let row := off + j * pitch
      (List.range 16).flatMap (fun i =>
        let k := (a + 4 * i - row) / 4
        if row ≤ a + 4 * i ∧ k < w ∧ x0 + k < h ∧ y0 + j < v then [(y0 + j) / 64 * 64 + (x0 + k) / 64] else []))

/-- The tiles of head `n` that a write of the line at pool offset `a` affects. -/
def HeadSt.lineHits (x : HeadSt) (n a : Nat) : List Nat :=
  let h := x.afld (F.HEAD_HTIM_A_H_ACTIVE n)
  let v := x.afld (F.HEAD_VTIM_A_V_ACTIVE n)
  (List.range 4).flatMap (fun p => x.planeHits n p a h v) ++ (List.range 4).flatMap (fun b => x.bitmapHits n b a h v)

/-- A write of `n` bytes at pool offset `a` seen by head `h`: affected tiles become INVALID; a program in use that it
touches while `scan` is marked (U-06). -/
def HeadSt.noteWrite (x : HeadSt) (h a n : Nat) (scan : Bool) : HeadSt :=
  let hits := if x.tiles.isEmpty then [] else
    (List.range ((a + n - 1) / 64 + 1 - a / 64)).flatMap (fun j => x.lineHits h ((a / 64 + j) * 64))
  let bad := match x.prog with
    | some p => scan && meets a n p 16384
    | none => false
  { x with tiles := x.tiles.filter (fun (e : Nat × Nat) => !hits.contains e.1), u06 := x.u06 || bad }

/-! ### Rings and caches -/

/-- A change of `n` bytes at `a` taints the ring indices whose memory it touches (U-09, U-10). -/
def RingSt.noteWrite (x : RingSt) (a n : Nat) : RingSt :=
  { x with tainted := x.tainted ++ (x.watch.filter (fun (e : Nat × Nat × Nat) =>
      meets a n e.2.1 e.2.2 && !x.tainted.contains e.1)).map (fun (e : Nat × Nat × Nat) => e.1) }

/-- What a write to the pool or CXL memory at `a`, `n` bytes, does beside storing: ring slots are watched (R32); every
copy another cluster's caches hold is written back and invalidated first (R282), so none of its words is dirty any
more; heads see what they watch in the pool. -/
def State.cleanLines (s : State) (a n : Nat) : State :=
  let s := match s.rings with
    | [] => s
    | _ => { s with rings := s.rings.map (fun (e : Nat × RingSt) => (e.1, RingSt.noteWrite e.2 a n)) }
  let s := match s.heads with
    | [] => s
    | _ => if a < poolBase then s else
      { s with heads := s.heads.map (fun (e : Nat × HeadSt) =>
          (e.1, HeadSt.noteWrite e.2 e.1 (a - poolBase) n (s.scanning e.1))) }
  match s.dirty with
  | [] => s
  | _ => { s with dirty := s.dirty.filter (fun d => !(decide (a / 64 ≤ d.addr / 64) && decide (d.addr / 64 ≤ (a + n - 1) / 64))) }

end Sys2Proof.Machine
end

