-- ==== Sys2Proof/Machine/Pool.lean ====
section
/-! DEFINITION. The memory map (R17, R18), the pool banks with their checks, error correction and spares (chapter 11),
the vault, the CTS window, the boot ROM and CXL memory: every access to plain memory. -/

namespace Sys2Proof.Machine

/-! ### The memory map (R17) -/

/-- A region of R17 and an offset in it. -/
inductive Region where
  | rom (o : Nat)
  | pool (o : Nat)
  | rot (o : Nat)
  | cts (o : Nat)
  | vault (o : Nat)
  | reg (o : Nat)
  | peer (n o : Nat)
  | cxlCfg (o : Nat)
  | cxl (o : Nat)
  deriving DecidableEq, Repr

abbrev romBase : Nat := 0x0
abbrev rotBase : Nat := 0x20000000
abbrev ctsBase : Nat := 0x30000000
abbrev vaultBase : Nat := 0x31000000
abbrev regBase : Nat := 0x40000000
abbrev peerBase : Nat := 0x80000000
abbrev cxlCfgBase : Nat := 0xC0000000
abbrev cxlBase : Nat := 0x10000000000
abbrev romSize : Nat := 0x40000
abbrev poolSize : Nat := 0x9000000
abbrev ctsSize : Nat := 0x200000
abbrev vaultSize : Nat := 0x40000
abbrev bankSize : Nat := 0x80000

/-- The offset of an access of `n` bytes at `a` in the window of `size` bytes at `base`, if all its bytes lie there. -/
def within (a n base size : Nat) : Option Nat :=
  if base ≤ a ∧ a + n ≤ base + size then some (a - base) else none

/-- The region that holds every byte of an access of `n` bytes at `a` (R18). Register space counts block by block,
and only assigned blocks. An access at the rotated window reaches bytes of the one word at its address (R298). -/
def regionOf (a n : Nat) : Option Region :=
  match within a n romBase romSize with
  | some o => some (.rom o)
  | none =>
  match within a n poolBase poolSize with
  | some o => some (.pool o)
  | none =>
  if rotBase ≤ a ∧ a < rotBase + poolSize then some (.rot (a - rotBase)) else
  match within a n ctsBase ctsSize with
  | some o => some (.cts o)
  | none =>
  match within a n vaultBase vaultSize with
  | some o => some (.vault o)
  | none =>
  if regBase ≤ a ∧ a < regBase + 0x10000000 then
    let o := a - regBase
    if (blockHome (o / 0x10000)).isSome ∧ o % 0x10000 + n ≤ 0x10000 then some (.reg o) else none
  else if peerBase ≤ a ∧ a < peerBase + 0x40000000 then
    let o := a - peerBase
    if o % 0x10000000 + n ≤ poolSize then some (.peer (o / 0x10000000) (o % 0x10000000)) else none
  else
  match within a n cxlCfgBase 0x10000000 with
  | some o => some (.cxlCfg o)
  | none =>
  match within a n cxlBase 0x10000000000 with
  | some o => some (.cxl o)
  | none => none

/-- The outcome of one access: its status, the bytes read, and the machine after it. -/
structure Acc where
  st   : Status
  data : List Byte
  s    : State

/-- An error response (R18). -/
def errAcc (s : State) : Acc := ⟨.error, [], s⟩

/-- A refusal (R14): counted, and a read returns zeros. -/
def refAcc (s : State) (q : Req) (write : Bool) (t : Target) (n : Nat) : Acc :=
  ⟨.refused, List.replicate n 0, s.refuse q write t⟩

/-- An access to a domain that is off (R27, U-02): a read of `n` bytes returns undefined data, a write has no effect. -/
def offAcc (s : State) (write : Bool) (n : Nat) : Acc :=
  if write then ⟨.ok, [], s⟩ else ⟨.ok, freeBytes s.free n, s.skipFree n⟩

/-! ### Ownership (R293) -/

/-- The OWN word that bank `b` checks against: the old one while a handover is pending (R295). -/
def State.ownInForce (s : State) (b : Nat) : Nat :=
  match s.pool.old.find? (fun e => e.1 == b) with
  | some e => e.2.1
  | none => s.reg (R.POOL_BANK_OWN b)

/-- The GRANT word that bank `b` checks against. -/
def State.grantInForce (s : State) (b : Nat) : Nat :=
  match s.pool.old.find? (fun e => e.1 == b) with
  | some e => e.2.2
  | none => s.reg (R.POOL_BANK_GRANT b)

/-- Whether bank `b` admits an access of requester `q` (R293): peer, attribute, owner. -/
def State.bankAdmits (s : State) (q : Req) (write : Bool) (b : Nat) : Bool :=
  let own := s.ownInForce b
  let grant := s.grantInForce b
  let c := ownerOf q
  (decide (posOf q = s.pos) || bit grant ((if write then 12 else 8) + posOf q)) &&
  attrOk (bit own 4) q &&
  (decide (bits own 0 4 = c) || (!write && (bit grant (16 + c) || bit grant 30)))

/-! ### Error correction (R299, R300) -/

/-- The SEC-DED state of the aligned word at `a`. -/
def State.eccAt (s : State) (a : Nat) : Ecc := AMap.get s.ecc a .clean

/-- The SEC-DED state of a word set. -/
def State.setEcc (s : State) (a : Nat) (e : Ecc) : State := { s with ecc := AMap.set s.ecc a e .clean }

/-- The bank field of the pool's error registers for a word address: 0x1FF for the vault. -/
def eccBank (a : Nat) : Nat := if a < vaultBase then (a - poolBase) / bankSize else 0x1FF

/-- The word index of a word address in its bank or in the vault. -/
def eccWord (a : Nat) : Nat := if a < vaultBase then (a - poolBase) % bankSize / 8 else (a - vaultBase) / 8

/-- A trigger of a remap (R302): the bank joins the queue unless it is copied, off, failed or already waits. -/
def State.remapTrigger (s : State) (b : Nat) : State :=
  if b = 0x1FF ∨ s.fld (F.POOL_BANK_STATE_STATE b) = 1 ∨ s.fld (F.POOL_BANK_STATE_STATE b) = 3 ∨ ¬ s.bankOn b ∨
     s.pool.queue.contains b then s
  else { s with pool := { s.pool with queue := s.pool.queue ++ [b] } }

/-- An uncorrectable or poisoned word met (R300): counted, recorded with KIND `k`, signalled. -/
def State.noteUe (s : State) (a k : Nat) : State :=
  ((s.bump R.POOL_UE_COUNT).setReg R.POOL_ERR_LAST (k * 2 ^ 30 + eccBank a * 2 ^ 16 + eccWord a)).fire Src.POOL_UE

/-- A corrected word (R299): written back clean, CE_COUNT up, a remap triggered at CE_THRESH. -/
def State.noteCe (s : State) (a : Nat) : State :=
  let s := s.setEcc a .clean
  let b := eccBank a
  if b = 0x1FF then s else
  let s := s.bumpFld (F.POOL_BANK_STATE_CE_COUNT b)
  let th := s.fld F.POOL_CE_THRESH_THRESH
  if th ≠ 0 ∧ th ≤ s.fld (F.POOL_BANK_STATE_CE_COUNT b) then s.remapTrigger b else s

/-- The word at `a` read through SEC-DED: whether it gives data. -/
def State.eccRead (s : State) (a : Nat) : Bool × State :=
  match s.eccAt a with
  | .clean => (true, s)
  | .single => (true, s.noteCe a)
  | .double => (false, (s.noteUe a 1).remapTrigger (eccBank a))
  | .poisoned => (false, s.noteUe a 2)

/-- The words at `a`, `a + 8`, … (`n` of them) read through SEC-DED. -/
def State.eccReads (s : State) (a : Nat) : Nat → Bool × State
  | 0 => (true, s)
  | n + 1 =>
    let r := s.eccReads a n
    let x := r.2.eccRead (a + 8 * n)
    (r.1 && x.1, x.2)

/-- While bank `b` is copied, a clean write of a word already copied is clean in the spare too (R302). -/
def State.spareWrite (s : State) (a : Nat) : State :=
  match s.pool.copy with
  | some c =>
    if c.bank = eccBank a then
      { s with pool := { s.pool with copy := some { c with poisoned := c.poisoned.filter (· != eccWord a) } } }
    else s
  | none => s

/-- A write of some bytes of the word at `a`, all 8 when `full` (R300): whether it may be made. -/
def State.eccWrite (s : State) (a : Nat) (full : Bool) : Bool × State :=
  if full then (true, (s.setEcc a .clean).spareWrite a)
  else
    match s.eccAt a with
    | .clean => (true, s.spareWrite a)
    | .single => (true, (s.noteCe a).spareWrite a)
    | .double => (false, ((s.noteUe a 1).remapTrigger (eccBank a)).setEcc a .poisoned)
    | .poisoned => (false, s)

/-- A write of `n` bytes at `a`, word by word from the word at `w` (`k` words): whether every word may be made. -/
def State.eccWrites (s : State) (a n w : Nat) : Nat → Bool × State
  | 0 => (true, s)
  | k + 1 =>
    let r := s.eccWrites a n w k
    let x := r.2.eccWrite (w + 8 * k) (decide (a ≤ w + 8 * k) && decide (w + 8 * k + 8 ≤ a + n))
    (r.1 && x.1, x.2)

/-- The number of aligned words that `n` bytes at `a` touch. -/
def wordsOf (a n : Nat) : Nat := if n = 0 then 0 else (a + n - 1) / 8 - a / 8 + 1

/-- The aligned words that may be written, of `k` words from `w` on: those the write `a`, `n` does not find spoiled. -/
def State.okBytes (s : State) (a : Nat) (bs : List Byte) : List (Nat × Byte) :=
  (List.zip (List.range bs.length) bs).filterMap (fun e =>
    let x := a + e.1
    let w := x / 8 * 8
    let full := decide (a ≤ w) && decide (w + 8 ≤ a + bs.length)
    let e0 := s.eccAt w
    if full || decide (e0 = .clean) || decide (e0 = .single) then some (x, e.2) else none)

/-! ### Pool accesses -/

/-- The banks that `n` bytes at pool offset `o` touch: the first and the last. -/
def banksAt (o n : Nat) : List Nat :=
  if o / bankSize = (o + n - 1) / bankSize ∨ n = 0 then [o / bankSize] else [o / bankSize, (o + n - 1) / bankSize]

/-- An admitted read of `n` bytes at pool offset `o` (R299 to R305). -/
def State.poolFetch (s : State) (o n : Nat) : Acc :=
  let bs := banksAt o n
  if bs.any (fun b => !s.bankTakes b) then offAcc s false n
  else if bs.any (fun b => decide (s.fld (F.POOL_BANK_STATE_STATE b) = 3)) then errAcc s
  else
    let a := poolBase + o
    let r := if s.ecc.isEmpty then (true, s) else s.eccReads (a / 8 * 8) (wordsOf a n)
    if r.1 then ⟨.ok, s.bytes a n, r.2⟩ else errAcc r.2

/-- The first bank of `n` bytes at pool offset `o` that refuses `q` (R293). -/
def State.bankRefuses (s : State) (q : Req) (write : Bool) (o n : Nat) : Option Nat :=
  (banksAt o n).find? (fun b => !s.bankAdmits q write b)

/-- A read of `n` bytes at pool offset `o` (R293 to R303). -/
def State.poolRead (s : State) (q : Req) (o n : Nat) : Acc :=
  match s.bankRefuses q false o n with
  | some b => refAcc s q false (.pool b) n
  | none => s.poolFetch o n

/-- A write of `bs` at pool offset `o`. -/
def State.poolWrite (s : State) (q : Req) (o : Nat) (bs : List Byte) : Acc :=
  let n := bs.length
  let ks := banksAt o n
  match s.bankRefuses q true o n with
  | some b => refAcc s q true (.pool b) 0
  | none =>
    if ks.any (fun b => !s.bankTakes b) then offAcc s true 0
    else if ks.any (fun b => decide (s.fld (F.POOL_BANK_STATE_STATE b) = 3)) then errAcc s
    else
      let a := poolBase + o
      if s.ecc.isEmpty ∧ s.pool.copy.isNone then ⟨.ok, [], (s.poke a bs).cleanLines a n⟩
      else
        let ok := s.okBytes a bs
        let r := s.eccWrites a n (a / 8 * 8) (wordsOf a n)
        let s' := { r.2 with mem := ok.foldl (fun m (e : Nat × Byte) => AMap.set m e.1 e.2 0) r.2.mem }
        ⟨if r.1 then .ok else .error, [], s'.cleanLines a n⟩

/-- The pool offset of byte `i` of a rotated access at offset `o` (R298). -/
def rotByte (o i : Nat) : Nat := o / 8 * 8 + (o % 8 + i) % 8

/-- What `n` bytes at offset `o` of the rotated window are, when the word there was read as `r`: bytes of one word only
(R298). -/
def Acc.rotated (r : Acc) (o n : Nat) : Acc :=
  match r.st with
  | .ok => { r with data := (List.range n).map (fun i => r.data.getD ((o % 8 + i) % 8) 0) }
  | .refused => { r with data := List.replicate n 0 }
  | .error => r

/-- A read of `n` bytes at offset `o` of the rotated window. -/
def State.rotRead (s : State) (q : Req) (o n : Nat) : Acc := (s.poolRead q (o / 8 * 8) 8).rotated o n

/-- A write of `bs` at offset `o` of the rotated window: the bytes of one word at the rotated places. -/
def State.rotWrite (s : State) (q : Req) (o : Nat) (bs : List Byte) : Acc :=
  let n := bs.length
  let b := o / bankSize
  if ¬ s.bankAdmits q true b then refAcc s q true (.pool b) 0
  else if ¬ s.bankTakes b then offAcc s true 0
  else if s.fld (F.POOL_BANK_STATE_STATE b) = 3 then errAcc s
  else
    let w := poolBase + o / 8 * 8
    let r := s.eccWrite w (decide (8 ≤ n))
    if r.1 then
      let m := (List.zip (List.range n) bs).foldl (fun m (e : Nat × Byte) => AMap.set m (poolBase + rotByte o e.1) e.2 0) r.2.mem
      ⟨.ok, [], { r.2 with mem := m }.cleanLines w 8⟩
    else errAcc r.2

/-! ### Nadir vault (R306, R307) -/

/-- A read of the vault. While it is wiped, reads return zero. -/
def State.vaultRead (s : State) (q : Req) (o n : Nat) : Acc :=
  if ¬ q.s then refAcc s q false (.pool 0x1FF) n
  else if ¬ s.domTakes 149 then offAcc s false n
  else if s.flag F.SEC_STATUS_WIPING then ⟨.ok, List.replicate n 0, s⟩
  else
    let a := vaultBase + o
    let r := if s.ecc.isEmpty then (true, s) else s.eccReads (a / 8 * 8) (wordsOf a n)
    if r.1 then ⟨.ok, s.bytes a n, r.2⟩ else errAcc r.2

/-- A write of the vault. While it is wiped, writes are dropped. -/
def State.vaultWrite (s : State) (q : Req) (o : Nat) (bs : List Byte) : Acc :=
  if ¬ q.s then refAcc s q true (.pool 0x1FF) 0
  else if ¬ s.domTakes 149 then offAcc s true 0
  else if s.flag F.SEC_STATUS_WIPING then ⟨.ok, [], s⟩
  else
    let a := vaultBase + o
    if s.ecc.isEmpty then ⟨.ok, [], s.poke a bs⟩
    else
      let ok := s.okBytes a bs
      let r := s.eccWrites a bs.length (a / 8 * 8) (wordsOf a bs.length)
      ⟨if r.1 then .ok else .error, [], { r.2 with mem := ok.foldl (fun m (e : Nat × Byte) => AMap.set m e.1 e.2 0) r.2.mem }⟩

/-! ### CTS window (R39) -/

/-- Whether the CTS admits a write of `q`. -/
def State.ctsAdmits (s : State) (q : Req) : Bool :=
  s.secure q ||
  ((decide (s.fld F.HSE_CTS_ACCESS_WRITE_OWNER = 14) || decide (s.fld F.HSE_CTS_ACCESS_WRITE_OWNER = ownerOf q)) &&
   (!s.flag F.HSE_CTS_ACCESS_WRITE_S || q.s))

/-- A read of the CTS: admitted from any requester. -/
def State.ctsRead (s : State) (o n : Nat) : Acc :=
  if s.hseOn then ⟨.ok, s.bytes (ctsBase + o) n, s⟩ else offAcc s false n

/-- CTS entries `a` to `b` are written: noted for the live cycle and for the validation in progress, for they may be in
use there (R69, U-04). -/
def State.noteCts (s : State) (a b : Nat) : State :=
  let add (c : Bool) (l : List Nat) : List Nat := if c then (List.range (b + 1 - a)).map (a + ·) ++ l else l
  { s with ctsHits := add (s.flag F.HSE_STATUS_RUNNING) s.ctsHits, valHits := add (s.flag F.HSE_MODEL_CMD_VALIDATE) s.valHits }

/-- A write of the CTS. -/
def State.ctsWrite (s : State) (q : Req) (o : Nat) (bs : List Byte) : Acc :=
  if ¬ s.hseOn then offAcc s true 0
  else if ¬ s.ctsAdmits q then refAcc s q true (.sys 0x40) 0
  else
    ⟨.ok, [], (s.poke (ctsBase + o) bs).noteCts (o / 32) ((o + bs.length - 1) / 32)⟩

/-! ### CXL memory (R434, R436) -/

/-- The first unit past the range that port `p` serves, and its first unit. -/
def State.hdmRange (s : State) (p : Nat) : Nat × Nat :=
  let b := s.fld (F.CXL_HDM_BASE p)
  let z := s.fld (F.CXL_HDM_SIZE p)
  if s.flag (F.CXL_CTRL_IL_EN 0) then
    let b0 := s.fld (F.CXL_HDM_BASE 0)
    (b0, b0 + 2 * s.fld (F.CXL_HDM_SIZE 0))
  else (b, b + z)

/-- Port `p` serves: powered, MEM_EN set, link up. -/
def State.cxlServes (s : State) (p : Nat) : Bool :=
  s.domOn (141 + p) && s.flag (F.CXL_CTRL_MEM_EN p) && decide (s.fld (F.CXL_STATUS_LINK_STATE p) = 2)

/-- The port that the CXL memory offset `o` decodes to. -/
def State.cxlPort (s : State) (o : Nat) : Option Nat :=
  let u := o / 0x10000000
  let inR (p : Nat) : Bool := decide ((s.hdmRange p).1 ≤ u) && decide (u < (s.hdmRange p).2)
  if s.flag (F.CXL_CTRL_IL_EN 0) then
    if inR 0 then
      let p := bits (o - (s.hdmRange 0).1 * 0x10000000) 12 1
      if s.cxlServes p then some p else none
    else none
  else if inR 0 && s.cxlServes 0 then some 0
  else if inR 1 && s.cxlServes 1 then some 1
  else none

/-- An error response counted at port `p` (R434, R436). -/
def State.cxlCount (s : State) (p : Nat) : State := if s.domOn (141 + p) then s.bump (R.CXL_ERR_COUNT p) else s

/-- An access to CXL memory that no port serves: an error response, counted at the port whose link is down, else in
CXL_0 (R434, R436). -/
def State.cxlErr (s : State) (o : Nat) : Acc :=
  let u := o / 0x10000000
  let down (p : Nat) : Bool := s.domOn (141 + p) && s.flag (F.CXL_CTRL_MEM_EN p) && !s.cxlServes p &&
    decide ((s.hdmRange p).1 ≤ u) && decide (u < (s.hdmRange p).2)
  let way := bits (o - (s.hdmRange 0).1 * 0x10000000) 12 1
  let p : Nat := if s.flag (F.CXL_CTRL_IL_EN 0) then (if down way then way else 0)
    else if down 0 then 0 else if down 1 then 1 else 0
  errAcc (s.cxlCount p)

/-- The aligned words, of `k` from `a` on, that the CXL device holds poisoned. -/
def State.anyPoison (s : State) (a : Nat) : Nat → Bool
  | 0 => false
  | k + 1 => s.anyPoison a k || decide (s.eccAt (a + 8 * k) = .poisoned)

/-- `n` bytes of CXL memory from `a`: once the interleave setting has changed, free but for those written since
(U-15). -/
def State.cxlBytes (s : State) (a n : Nat) : List Byte :=
  (List.range n).map (fun i =>
    if AMap.get s.cxlFresh (a + i) 0 = 1 then s.byte (a + i)
    else BitVec.ofNat 8 (Config.freeValue (s.free + i)).toNat)

/-- Poisoned data from port `p` (R436). -/
def State.cxlPoison (s : State) (p : Nat) : State := (s.setFld (F.CXL_STATUS_POISON p) 1).cxlCount p

/-- A read of CXL memory. Poisoned data gives an error response and sets POISON (R436). -/
def State.cxlRead (s : State) (o n : Nat) : Acc :=
  match s.cxlPort o with
  | none => s.cxlErr o
  | some p =>
    let a := cxlBase + o
    if s.anyPoison (a / 8 * 8) (wordsOf a n) then errAcc (s.cxlPoison p)
    else if s.cxlTaint then ⟨.ok, s.cxlBytes a n, s.skipFree n⟩
    else ⟨.ok, s.bytes a n, s⟩

/-- A write of CXL memory: a poisoned word takes only a whole write (R300, R436). -/
def State.cxlWrite (s : State) (o : Nat) (bs : List Byte) : Acc :=
  match s.cxlPort o with
  | none => s.cxlErr o
  | some p =>
    let a := cxlBase + o
    let ok := s.okBytes a bs
    let s' := { s with
      ecc := s.ecc.dropKeys (fun k => decide (a ≤ k) && decide (k + 8 ≤ a + bs.length)),
      mem := ok.foldl (fun m (e : Nat × Byte) => AMap.set m e.1 e.2 0) s.mem,
      cxlFresh := if s.cxlTaint then ok.foldl (fun m (e : Nat × Byte) => AMap.set m e.1 1 0) s.cxlFresh else [] }
    let s' := s'.cleanLines a bs.length
    if ok.length < bs.length then errAcc (s'.cxlPoison p) else ⟨.ok, [], s'⟩

/-! ### What an engine reaches beyond plain memory (R16 to R20) -/

/-- Atsobry port `n` is up. -/
def State.atsUp (s : State) (n : Nat) : Bool := s.domOn (143 + n) && decide (s.fld (F.ATS_STATUS_STATE n) = 2)

/-- The parts of `n` bytes at `o` that lie in one 64-byte line each (R441): offset and size. -/
def lineParts (o n : Nat) : List (Nat × Nat) :=
  (List.range ((o + n - 1) / 64 + 1 - o / 64)).map (fun j =>
    let a := max o ((o / 64 + j) * 64)
    (a, min (o + n) ((o / 64 + j + 1) * 64) - a))

/-- The answer that comes from outside the device to an engine's access of `n` bytes: its status and its data are free
values (log entry 7). -/
def State.outerAnswer (s : State) (n : Nat) : Acc :=
  let st : Status := if s.freeVal % 3 = 0 then .ok else if s.freeVal % 3 = 1 then .refused else .error
  ⟨st, match st with
    | .ok => freeBytes (s.free + 1) n
    | .refused => List.replicate n 0
    | .error => [], s.skipFree (n + 1)⟩

/-- An engine's access to the window of the peer at position `d`: one request for each 64-byte line, with the engine's
tag and attribute (R20, R441). `bs` is what a write sends; a read of `n` bytes sends none. -/
def State.enginePeer (s : State) (d : Nat) (write : Bool) (q : Req) (o n : Nat) (bs : List Byte) : Acc :=
  if ¬ s.atsUp d then errAcc s
  else ((lineParts o (if write then bs.length else n)).foldl (fun (s : State) (p : Nat × Nat) =>
      s.emit ⟨.peerRequest, [d, b2n write, p.1, p.2, q.tag.toNat, b2n q.s], (bs.drop (p.1 - o)).take p.2⟩) s).outerAnswer
    (if write then 0 else n)

/-- The port and configuration function of an access to the CXL configuration and MMIO region: port, and whether it is a
configuration access to a function that does not exist (R433). -/
def cxlCfgAt (o : Nat) : Nat × Bool :=
  if o < 0x2000000 then (o / 0x1000000, !(decide (bits o 20 4 = 1) && decide (bits o 15 5 = 0) && decide (bits o 12 3 = 0)))
  else ((o - 0x2000000) / 0x7000000, false)

/-- An access to CXL configuration and MMIO that is answered without the device behind the port (R433): its port is off
(R27 before R433, log entry 45), the function does not exist, or the link is not up. -/
def State.cxlCfgLocal (s : State) (write : Bool) (o n : Nat) : Option Acc :=
  let x := cxlCfgAt o
  if ¬ s.domOn (141 + x.1) then some (offAcc s write n)
  else if x.2 then some ⟨.ok, if write then [] else List.replicate n 0xFF, s⟩
  else if s.fld (F.CXL_STATUS_LINK_STATE x.1) ≠ 2 then some (errAcc (s.cxlCount x.1))
  else none

/-- An engine's access to CXL configuration and MMIO. -/
def State.engineCxl (s : State) (write : Bool) (o n : Nat) (bs : List Byte) : Acc :=
  match s.cxlCfgLocal write o n with
  | some a => a
  | none => (s.emit ⟨.cxlRequest, [(cxlCfgAt o).1, b2n write, cxlCfgBase + o, if write then bs.length else n], bs⟩).outerAnswer
    (if write then 0 else n)

/-- The blocks whose reads give the stored registers. -/
def storedBlock (b : Nat) : Bool :=
  [0x01, 0x05, 0x08, 0x0A, 0x0B, 0x18, 0x19, 0x1A, 0x20, 0x21, 0x24, 0x25, 0x26, 0x27, 0x28, 0x29, 0x2C, 0x2D, 0x30].contains b

/-- An engine's read of `n` bytes of register space at offset `o`: the stored registers, or free bytes where a read
computes them, where the block is off, or where a write of the same engine is on its way (log entry 7). -/
def State.engineRegs (s : State) (q : Req) (o n : Nat) : Acc :=
  let b := o / 0x10000
  if b = 0x3F then refAcc s q false (.sys b) n
  else if s.blockOn b && storedBlock b && !s.posted.any (fun p => p.req == q && p.at_ / 0x10000 == b) then
    ⟨.ok, (List.range n).map (fun i => match regAt (o + i) with
      | some (r, k) => if o + i < k + r.bytes then BitVec.ofNat 8 (s.reg k / 2 ^ (8 * (o + i - k))) else 0
      | none => 0), s⟩
  else ⟨.ok, freeBytes s.free n, s.skipFree n⟩

/-! ### Memory as one space -/

/-- A read of `n` bytes at `a` by an engine. The bus takes register space, other devices' windows and CXL configuration
itself for the other requesters. -/
def State.memRead (s : State) (q : Req) (a n : Nat) : Acc :=
  match regionOf a n with
  | some (.rom o) => ⟨.ok, s.bytes (romBase + o) n, s⟩
  | some (.pool o) => s.poolRead q o n
  | some (.rot o) => s.rotRead q o n
  | some (.cts o) => s.ctsRead o n
  | some (.vault o) => s.vaultRead q o n
  | some (.peer d o) => if d = s.pos then s.poolRead q o n else s.enginePeer d false q o n []
  | some (.cxl o) => s.cxlRead o n
  | some (.reg o) => s.engineRegs q o n
  | some (.cxlCfg o) => s.engineCxl false o n []
  | none => errAcc s

/-- A write of `bs` at `a` by an engine. A write to the boot ROM is dropped and counted (R17, R15); one to register space
is sent, and crosses when time next passes (R21, State.posted). -/
def State.memWrite (s : State) (q : Req) (a : Nat) (bs : List Byte) : Acc :=
  match regionOf a bs.length with
  | some (.rom _) => refAcc s q true (.sys 0x41) 0
  | some (.pool o) => s.poolWrite q o bs
  | some (.rot o) => s.rotWrite q o bs
  | some (.cts o) => s.ctsWrite q o bs
  | some (.vault o) => s.vaultWrite q o bs
  | some (.peer d o) => if d = s.pos then s.poolWrite q o bs else s.enginePeer d true q o 0 bs
  | some (.cxl o) => s.cxlWrite o bs
  | some (.reg o) => ⟨.ok, [], { s with posted := s.posted ++ [⟨q, o, bs⟩] }⟩
  | some (.cxlCfg o) => s.engineCxl true o 0 bs
  | none => errAcc s

end Sys2Proof.Machine
end

