-- ==== Sys2Proof/Machine/Rings.lean ====
section
/-! DEFINITION. Rings, doorbells and descriptors (R28 to R32, R532), and Lull (chapter 16): completions offered and
accepted, records written, queues, event inputs, coalescing and the interrupt. -/

namespace Sys2Proof.Machine

/-! ### The writes that reach a register -/

/-- A write to one register: its row, its base key, the bits of it that the access covers (R531), and their value. -/
structure RegW where
  row : RegRow
  k   : Nat
  m   : Nat
  v   : Nat
  deriving DecidableEq, Repr

/-- The value that the types of R7 give for a register that held `old`: RW and RWL bits stored, W1C bits cleared,
W1S bits set, everything else unchanged. -/
def RegW.merged (w : RegW) (old : Nat) : Nat :=
  let rw := Nat.land w.row.rw w.m
  let kept := old - Nat.land old rw
  let c := Nat.land (Nat.land w.v w.m) w.row.w1c
  let kept := kept - Nat.land kept c
  Nat.lor (Nat.lor kept (Nat.land w.v rw)) (Nat.land (Nat.land w.v w.m) w.row.w1s)

/-- The register after a write with no behaviour of its own (R21). -/
def State.plainWrite (s : State) (w : RegW) : State := s.setReg w.k (w.merged (s.reg w.k))

/-- The write covers field `f` with a 1 in its lowest bit. -/
def RegW.one (w : RegW) (f : Fld) : Bool := bit w.v f.lo && bit w.m f.lo

/-- The write covers the lowest bit of field `f` with a 0. -/
def RegW.nil (w : RegW) (f : Fld) : Bool := !bit w.v f.lo && bit w.m f.lo

/-- The write without the bits of mask `x`. -/
def RegW.without (w : RegW) (x : Nat) : RegW := { w with m := w.m - Nat.land w.m x }

/-- The mask of `n` bits from bit `lo`. -/
def fieldMask (lo n : Nat) : Nat := (2 ^ n - 1) * 2 ^ lo

/-- `v` with the bit of field `f` 1: the value of a write that gives a command. -/
def withBit (v : BitVec 32) (f : Fld) : Nat := Nat.lor v.toNat (2 ^ f.lo)

/-- `v` with field `g` replaced by `x`. -/
def withField (v : Nat) (g : Fld) (x : Nat) : Nat := putBits v g.lo g.w x

/-- The write of the whole value `v` to the register at key `k`. -/
def fullW (k v : Nat) : RegW :=
  match regAt k with
  | some (r, b) => ⟨r, b, 2 ^ (8 * r.bytes) - 1, v⟩
  | none => ⟨⟨0, [], 0, 0, 0, 0, 0, 0⟩, k, 0, 0⟩

/-- A performed write. -/
def okAcc (s : State) : Acc := ⟨.ok, [], s⟩

/-- A register's value with a field replaced by the write, for a register that held `old`. -/
def RegW.newFld (w : RegW) (old : Nat) (f : Fld) : Nat := bits (w.merged old) f.lo f.w

/-! ### Rings -/

/-- The number of a ring among all rings. -/
def Ring.ix : Ring → Nat
  | .hse n => n
  | .sql n => 8 + n
  | .wb n => 16 + n
  | .twd n => 32 + n
  | .gal n => 64 + n
  | .ethTx n => 80 + n
  | .ethRx n => 88 + n

def Ring.baseKey : Ring → Nat
  | .hse n => R.HSE_SWP_BASE n
  | .sql n => R.SQL_RING_BASE n
  | .wb n => R.CMP_WB_BASE n
  | .twd n => R.TWD_CH_BASE n
  | .gal n => R.GAL_STR_BASE n
  | .ethTx n => R.ETH_TX_BASE n
  | .ethRx n => R.ETH_RX_BASE n

def Ring.cfgKey : Ring → Nat
  | .hse n => R.HSE_SWP_CFG n
  | .sql n => R.SQL_RING_CFG n
  | .wb n => R.CMP_WB_CFG n
  | .twd n => R.TWD_CH_CFG n
  | .gal n => R.GAL_STR_CFG n
  | .ethTx n => R.ETH_TX_CFG n
  | .ethRx n => R.ETH_RX_CFG n

def Ring.dbKey : Ring → Nat
  | .hse n => R.HSE_SWP_DB n
  | .sql n => R.SQL_RING_DB n
  | .wb n => R.CMP_WB_DB n
  | .twd n => R.TWD_CH_DB n
  | .gal n => R.GAL_STR_DB n
  | .ethTx n => R.ETH_TX_DB n
  | .ethRx n => R.ETH_RX_DB n

def Ring.consKey : Ring → Nat
  | .hse n => R.HSE_SWP_CONS n
  | .sql n => R.SQL_RING_CONS n
  | .wb n => R.CMP_WB_CONS n
  | .twd n => R.TWD_CH_CONS n
  | .gal n => R.GAL_STR_CONS n
  | .ethTx n => R.ETH_TX_CONS n
  | .ethRx n => R.ETH_RX_CONS n

/-- The bytes of a descriptor. -/
def Ring.size : Ring → Nat
  | .hse _ => 64
  | .ethTx _ => 16
  | .ethRx _ => 16
  | _ => 32

/-- UNIT and INDEX of a ring's records (R375). The Ethernet rings follow R445. -/
def Ring.unit : Ring → Nat × Nat
  | .hse n => (2, n)
  | .sql n => (3, n)
  | .wb n => (4, n)
  | .twd n => (5, n)
  | .gal n => (6, n)
  | .ethTx n => (7, 256 * n)
  | .ethRx n => (7, 256 * n + 1)

/-- Fields of the ring set-up register, which every ring has at the same places. -/
def Ring.queue (r : Ring) : Fld := ⟨r.cfgKey, 16, 6⟩
def Ring.owner (r : Ring) : Fld := ⟨r.cfgKey, 12, 4⟩
def Ring.attr (r : Ring) : Fld := ⟨r.cfgKey, 11, 1⟩
def Ring.log2 (r : Ring) : Fld := ⟨r.cfgKey, 4, 4⟩
def Ring.dbErr (r : Ring) : Fld := ⟨r.cfgKey, 3, 1⟩
def Ring.cancel (r : Ring) : Fld := ⟨r.cfgKey, 2, 1⟩
def Ring.busy (r : Ring) : Fld := ⟨r.cfgKey, 1, 1⟩
def Ring.enable (r : Ring) : Fld := ⟨r.cfgKey, 0, 1⟩
def Ring.prod (r : Ring) : Fld := ⟨r.dbKey, 0, 16⟩
def Ring.cons (r : Ring) : Fld := ⟨r.consKey, 0, 16⟩

/-- Every ring. -/
def allRings : List Ring :=
  (List.range 4).map .hse ++ (List.range 4).map .sql ++ (List.range 6).map .wb ++ (List.range 32).map .twd ++
  (List.range 16).map .gal ++ (List.range 2).map .ethTx ++ (List.range 2).map .ethRx

/-- A ring's state beside its registers. -/
def State.ringSt (s : State) (r : Ring) : RingSt := AMap.get s.rings r.ix {}

def State.setRingSt (s : State) (r : Ring) (x : RingSt) : State := { s with rings := AMap.set s.rings r.ix x {} }

/-- The requester under which a ring's work is done (R16). -/
def State.ringReq (s : State) (r : Ring) : Req := s.engine (s.fld r.owner) (s.flag r.attr)

/-- The address of the slot that index `i` names (R29). -/
def State.slotAddr (s : State) (r : Ring) (i : Nat) : Nat :=
  bits (s.reg r.baseKey) 6 38 * 64 + i % 2 ^ s.fld r.log2 * r.size

/-- The number of covered descriptors that are not yet passed. -/
def State.ringHeld (s : State) (r : Ring) : Nat := (s.fld r.prod + 65536 - s.fld r.cons) % 65536

/-- The lists that the descriptor at slot address `a` names: a Squall list, part of its job under R32, and Tradewind's
lists (R399), marked by 65,536. -/
def State.ringLists (s : State) (r : Ring) (i a : Nat) : List (Nat × Nat × Nat) :=
  match r with
  | .sql _ => [(i, s.num a 8, 64 * s.num (a + 8) 4)]
  | .twd _ => [(i + 65536, s.num a 8, 16 * s.num (a + 16) 2), (i + 65536, s.num (a + 8) 8, 16 * s.num (a + 18) 2)]
  | _ => []

/-- Whether `q` may ring the doorbell of ring `r` (R28): its owner code is the ring's and its attribute passes R13. The
channel registers of Tradewind and the Ethernet ring registers, their doorbells among them, admit as R341 states (R430 and
chapter 17). -/
def State.ringAdmits (s : State) (q : Req) (r : Ring) : Bool :=
  match r with
  | .twd _ | .ethTx _ | .ethRx _ => s.admits q (s.fld r.owner) (s.flag r.attr)
  | _ => decide (ownerOf q = s.fld r.owner) && attrOk (s.flag r.attr) q

/-- A doorbell write of `p` (R28, R29, R32). -/
def State.doorbell (s : State) (q : Req) (r : Ring) (p : Nat) : Acc :=
  if ¬ s.ringAdmits q r then refAcc s q true (.sys (blockOf r.dbKey)) 0
  else
    let old := s.fld r.prod
    let lim := 2 ^ s.fld r.log2
    if (p + 65536 - s.fld r.cons) % 65536 ≤ lim ∧ (p + 65536 - old) % 65536 ≤ lim then
      let new := (List.range ((p + 65536 - old) % 65536)).flatMap (fun j =>
        let i := (old + j) % 65536
        (i, s.slotAddr r i, r.size) :: s.ringLists r i (s.slotAddr r i))
      let x := s.ringSt r
      okAcc ((s.setFld r.prod p).setRingSt r { x with watch := x.watch ++ new })
    else okAcc ((s.setFld r.dbErr 1).fire Src.RING_DB_ERR)

/-- Whether a completion or error record of ring `r` waits to be written (R383). -/
def State.holds (s : State) (r : Ring) : Bool :=
  s.lull.offers.any (fun o => o.ring == some r) ||
  s.lull.q.any (fun e => e.2.failRing == some r || e.2.items.any (fun i => match i with
    | .record x => x.ring == some r
    | .evt _ => false))

/-- The records of ring `r` that wait are abandoned (R532, R390). -/
def State.dropRecords (s : State) (r : Ring) : State :=
  { s with lull := { s.lull with
      offers := s.lull.offers.filter (fun o => o.ring != some r),
      q := (s.lull.q.map (fun e =>
        (e.1, { e.2 with items := e.2.items.filter (fun i => match i with
                          | .record x => x.ring != some r
                          | .evt _ => true),
                         failed := if e.2.failRing == some r then none else e.2.failed,
                         failRing := if e.2.failRing == some r then none else e.2.failRing }))).filter
        (fun e => decide (e.2 ≠ {})) } }

/-- Ring `r` may start a descriptor: served, no cancel pending, something covered, no completion held. -/
def State.ringReady (s : State) (r : Ring) : Bool :=
  s.flag r.enable && !(s.ringSt r).stopping && (s.ringSt r).cancelTo.isNone && decide (s.ringHeld r ≠ 0) && !s.holds r

/-- CONS_IDX passes a descriptor (R30). CANCEL reads 0 once it has reached the PROD_IDX held at its write. -/
def State.ringPass (s : State) (r : Ring) : State :=
  let c := s.fld r.cons
  let c' := (c + 1) % 65536
  let x := s.ringSt r
  let done := decide (x.cancelTo = some c')
  let s := (s.setFld r.cons c').setRingSt r
    { x with watch := x.watch.filter (fun e => e.1 % 65536 != c), tainted := x.tainted.filter (· % 65536 != c),
             cancelTo := if done then none else x.cancelTo }
  if done then s.setFld r.cancel 0 else s

/-- Whether the descriptor at CONS_IDX, or a list it names, was changed (U-09, U-10). -/
def State.ringTainted (s : State) (r : Ring) : Bool :=
  (s.ringSt r).tainted.any (fun i => i % 65536 == s.fld r.cons)

/-- Bytes that a job of ring `r` writes: free bytes once its descriptor was changed (U-10). -/
def State.jobBytes (s : State) (r : Ring) (bs : List Byte) : List Byte × State :=
  if s.ringTainted r then (freeBytes s.free bs.length, s.skipFree bs.length) else (bs, s)

/-- A record of producer `u` offered to queue `queue` under an owner and attribute (R379, R383). -/
def State.offer (s : State) (o : LRec) : State := { s with lull := { s.lull with offers := s.lull.offers ++ [o] } }

/-- The completion record of the job at index `i` of ring `r` is offered to its queue. A tainted job's record is
undefined (U-09, U-10): its STATUS and payload words are free. -/
def State.completeAt (s : State) (r : Ring) (i status w1 w2 w3 : Nat) : State :=
  let rec_ (st a b c : Nat) : LRec :=
    ⟨1, st, r.unit.1, r.unit.2, a, b, c, some r, s.fld r.queue, s.fld r.owner, s.flag r.attr⟩
  if (s.ringSt r).tainted.contains i then
    let f (i : Nat) : Nat := (Config.freeValue (s.free + i)).toNat
    (s.skipFree 4).offer (rec_ (f 0 % 16) (f 1 % 2 ^ 32) (f 2 % 2 ^ 32) (f 3 % 2 ^ 32))
  else if (s.ringSt r).tainted.contains (i + 65536) then
    (s.skipFree 2).offer (rec_ status w1 (s.freeVal % 2 ^ 32) ((Config.freeValue (s.free + 1)).toNat % 2 ^ 32))
  else s.offer (rec_ status w1 w2 w3)

/-- The completion record of the job at CONS_IDX. -/
def State.complete (s : State) (r : Ring) (status w1 w2 w3 : Nat) : State :=
  s.completeAt r (s.fld r.cons) status w1 w2 w3

/-- How many completion records of ring `r` wait to be written. -/
def State.heldCount (s : State) (r : Ring) : Nat :=
  (s.lull.offers.filter (fun o => o.ring == some r)).length +
  (s.lull.q.map (fun e => b2n (e.2.failRing == some r) + (e.2.items.filter (fun i => match i with
    | .record x => x.ring == some r
    | .evt _ => false)).length)).sum

/-- The indices of ring `r` that are covered and have no completion record yet. -/
def State.ringRest (s : State) (r : Ring) : List Nat :=
  let h := s.heldCount r
  (List.range (s.ringHeld r - h)).map (fun j => (s.fld r.cons + h + j) % 65536)

/-- CANCEL requested (R121, R238, R404, R427): it reads 1 until CONS_IDX reaches the present PROD_IDX. -/
def State.ringCancel (s : State) (r : Ring) : State :=
  if s.flag r.cancel ∨ s.ringHeld r = 0 then s
  else (s.setFld r.cancel 1).setRingSt r { s.ringSt r with cancelTo := some (s.fld r.prod) }

/-- A change of ENABLE (R532): 0 to 1 zeroes both indices, 1 to 0 requests a stop at the next boundary. -/
def State.ringEnable (s : State) (r : Ring) (was now : Bool) : State :=
  if now && !was then (s.setFld r.prod 0).setFld r.cons 0
  else if was && !now then s.setRingSt r { s.ringSt r with stopping := true }
  else s

/-- A ring has stopped (R532): a completion that is held is abandoned, BUSY reads 0, no CANCEL runs on. -/
def State.ringStopped (s : State) (r : Ring) : State :=
  (((s.dropRecords r).setFld r.busy 0).setFld r.cancel 0).setRingSt r {}

/-- A write to a ring's set-up register: ignored as a whole with SIZE_LOG2 outside 4 to 12 (or, for write-back, with
DIVIDER 0); QUEUE, OWNER, ATTR_S and SIZE_LOG2 ignored while ENABLE is 1. CANCEL and the engine's own part of a stop
are left to the engine. -/
def State.ringCfg (s : State) (r : Ring) (w : RegW) : Option State :=
  let old := s.reg w.k
  let k := bits (w.merged old) 4 4
  if k < 4 ∨ 12 < k then none
  else
    let was := s.flag r.enable
    let w := if was then w.without (fieldMask 16 6 + fieldMask 12 4 + fieldMask 11 1 + fieldMask 4 4) else w
    let s := s.plainWrite w
    some (s.ringEnable r was (s.flag r.enable))

/-- A write to a ring's base register: ignored while ENABLE is 1. -/
def State.ringBase (s : State) (r : Ring) (w : RegW) : State := if s.flag r.enable then s else s.plainWrite w

/-! ### Lull queues (R375 to R381) -/

/-- Queue `q` beside its registers. -/
def State.lq (s : State) (q : Nat) : LQueue := AMap.get s.lull.q q {}

def State.setLq (s : State) (q : Nat) (x : LQueue) : State :=
  { s with lull := { s.lull with q := AMap.set s.lull.q q x {} } }

/-- The records that queue `q` holds (R377). -/
def State.lqHeld (s : State) (q : Nat) : Nat :=
  (s.fld (F.LUL_Q_PROD_PROD_IDX q) + 65536 - s.fld (F.LUL_Q_CONS_CONS_IDX q)) % 65536

/-- Queue `q` is full. -/
def State.lqFull (s : State) (q : Nat) : Bool := decide (2 ^ s.fld (F.LUL_Q_CFG_SIZE_LOG2 q) ≤ s.lqHeld q)

/-- PENDING and LUL_ASSERT follow ASSERTED and IRQ_EN (R388). -/
def State.lqShow (s : State) (q : Nat) : State :=
  let a := s.flag (F.LUL_Q_STATUS_ASSERTED q)
  let s := s.setFld (F.LUL_Q_STATUS_PENDING q) (b2n (a && s.flag (F.LUL_Q_CFG_IRQ_EN q)))
  s.setFld ⟨R.LUL_ASSERT, q, 1⟩ (b2n a)

/-- The coalescer stops running. -/
def State.lqStopTimer (s : State) (q : Nat) : State :=
  (s.setFld (F.LUL_Q_STATUS_RUNNING q) 0).setLq q { s.lq q with t := none }

/-- The coalescer releases the queue's interrupt (R387). -/
def State.lqRelease (s : State) (q : Nat) : State :=
  ((s.lqStopTimer q).setFld (F.LUL_Q_STATUS_ASSERTED q) 1).lqShow q

/-- The queue has become empty (R387). -/
def State.lqEmptied (s : State) (q : Nat) : State :=
  ((s.lqStopTimer q).setFld (F.LUL_Q_STATUS_ASSERTED q) 0).lqShow q

/-- Release when due (R387). -/
def State.lqCheck (s : State) (q : Nat) : State :=
  match (s.lq q).t with
  | none => s
  | some t =>
    if max (s.fld (F.LUL_Q_COAL_CO_COUNT q)) 1 ≤ s.lqHeld q ∨ s.fld (F.LUL_Q_COAL_CO_TIME q) ≤ t then s.lqRelease q
    else s

/-- One record lost (R382). -/
def State.lqLose (s : State) (q : Nat) : State :=
  (s.bumpFld (F.LUL_Q_STATUS_LOST q)).setFld (F.LUL_Q_STATUS_OVERFLOW q) 1

/-- The record with header fields `h` (without PHASE) and words `w1` to `w3` written into slot PROD_IDX: W1 to W3, then
HEADER, then PROD_IDX (R377, R378, R384). `ring` is the ring whose CONS_IDX it advances. -/
def State.lqWrite (s : State) (q h w1 w2 w3 : Nat) (ring : Option Ring) : State :=
  let p := s.fld (F.LUL_Q_PROD_PROD_IDX q)
  let k := s.fld (F.LUL_Q_CFG_SIZE_LOG2 q)
  let a := bits (s.reg (R.LUL_Q_BASE q)) 6 38 * 64 + p % 2 ^ k * 16
  let me := s.engine (s.fld (F.LUL_Q_CFG_OWNER q)) (s.flag (F.LUL_Q_CFG_ATTR_S q))
  let halt (s : State) : State :=
    let s := ((s.setFld (F.LUL_Q_STATUS_HALTED q) 1).setFld (F.LUL_Q_STATUS_WR_ERR q) 1).setFld (F.LUL_Q_STATUS_ASSERTED q) 1
    (s.setLq q { s.lq q with failed := some (h, w1, w2, w3), failRing := ring }).lqShow q
  match s.memWrite me (a + 4) (toBytes 4 w1 ++ toBytes 4 w2 ++ toBytes 4 w3) with
  | ⟨.ok, _, s⟩ =>
    match s.memWrite me a (toBytes 4 (h + (1 - bits p k 1) * 2 ^ 31)) with
    | ⟨.ok, _, s⟩ =>
      let wasEmpty := decide (s.lqHeld q = 0)
      let s := s.setFld (F.LUL_Q_PROD_PROD_IDX q) ((p + 1) % 65536)
      let s := if wasEmpty then (s.setFld (F.LUL_Q_STATUS_RUNNING q) 1).setLq q { s.lq q with t := some 0 } else s
      let s := s.lqCheck q
      match ring with
      | some r => s.ringPass r
      | none => s
    | ⟨_, _, s⟩ => halt s
  | ⟨_, _, s⟩ => halt s

/-- The header of a record without PHASE. -/
def lHeader (kind status unit index : Nat) : Nat :=
  kind * 2 ^ 28 + status % 16 * 2 ^ 24 + unit % 256 * 2 ^ 16 + index % 65536

/-- An event input's pending record. -/
def State.levt (s : State) (i : Nat) : LEvt := AMap.get s.lull.evt i {}

def State.setLevt (s : State) (i : Nat) (x : LEvt) : State :=
  { s with lull := { s.lull with evt := AMap.set s.lull.evt i x {} } }

/-- The pending records of event inputs that wait in queue `q` leave it, each counted as lost when `count` (R382, R384,
R385). -/
def State.lqDropEvts (s : State) (q : Nat) (count : Bool) : State :=
  let x := s.lq q
  let ev := x.items.filterMap (fun i => match i with
    | .evt i => some i
    | .record _ => none)
  let s := s.setLq q { x with items := x.items.filter (fun i => match i with
    | .evt _ => false
    | .record _ => true) }
  ev.foldl (fun s i => let s := s.setLevt i {}; if count then s.lqLose q else s) s

/-- Lull's next turn at queue `q` (R378, R382 to R385): a failed record first once the queue no longer is halted, then a
lost marker, then what waits, in the order accepted. -/
def State.lqTurn (s : State) (q : Nat) : State :=
  let x := s.lq q
  if ¬ s.flag (F.LUL_Q_CFG_ENABLE q) then s.lqDropEvts q false
  else if s.flag (F.LUL_Q_STATUS_HALTED q) then s.lqDropEvts q true
  else
    match x.failed with
    | some (h, w1, w2, w3) =>
      (s.setLq q { x with failed := none, failRing := none }).lqWrite q h w1 w2 w3 x.failRing
    | none =>
      if s.lqFull q then s.lqDropEvts q true
      else
        match x.items with
        | [] => s
        | it :: rest =>
          let lost := s.fld (F.LUL_Q_STATUS_LOST q)
          if lost ≠ 0 then (s.setFld (F.LUL_Q_STATUS_LOST q) 0).lqWrite q (lHeader 3 0 0x3F q) lost 0 0 none
          else
            let s := s.setLq q { x with items := rest }
            match it with
            | .record r => s.lqWrite q (lHeader r.kind r.status r.unit r.index) r.w1 r.w2 r.w3 r.ring
            | .evt i =>
              let e := s.levt i
              (s.setLevt i {}).lqWrite q (lHeader 0 0 1 i) (e.count % 65536) (e.stamp % 2 ^ 32)
                (e.stamp / 2 ^ 32 % 2 ^ 32) none

/-- The completion or error record that producer (`unit`, `index`) offers is accepted or refused (R379). A refused one
counts as written. -/
def State.lullTake (s : State) (unit index : Nat) : State :=
  match takeFirst (fun (o : LRec) => o.unit == unit && o.index == index) s.lull.offers with
  | none => s
  | some (o, rest) =>
    let s := { s with lull := { s.lull with offers := rest } }
    let own := s.fld (F.LUL_Q_CFG_OWNER o.queue)
    if (own = 14 ∨ own = o.owner) ∧ (attrOk (s.flag (F.LUL_Q_CFG_ATTR_S o.queue)) (s.engine o.owner o.s) = true) then
      let x := s.lq o.queue
      s.setLq o.queue { x with items := x.items ++ [.record o] }
    else
      let s := s.refuse (s.engine o.owner o.s) true .lul
      match o.ring with
      | some r => s.ringPass r
      | none => s

/-- An event at Lull event input `i` (R383, R385, R386). -/
def State.lullEvent (s : State) (i : Nat) : State :=
  if ¬ s.flag (F.LUL_EVT_MAP_EN i) then s
  else
    let e := s.levt i
    if e.count ≠ 0 then s.setLevt i { e with count := satU 16 (e.count + 1) }
    else
      let q := s.fld (F.LUL_EVT_MAP_QUEUE i)
      if ¬ s.flag (F.LUL_Q_CFG_ENABLE q) then s
      else if s.flag (F.LUL_Q_STATUS_HALTED q) then s.lqLose q
      else
        let x := s.lq q
        (s.setLevt i { count := 1, stamp := s.stc }).setLq q { x with items := x.items ++ [.evt i] }

/-- The 16 bytes of the record at `a`, where queue `q` may write one, become undefined. Nothing else changes (R3). -/
def State.recordUndefined (s : State) (me : Req) (a : Nat) : State :=
  let own : Bool := match regionOf a 16 with
    | some (.pool _) => true
    | some (.cxl _) => true
    | _ => false
  let w := s.memWrite me a (freeBytes s.free 16)
  if own && w.st == .ok then w.s.skipFree 16 else s

/-- The records of queue `q` and its indices become undefined (U-12). -/
def State.lqUndefined (s : State) (q : Nat) : State :=
  let a := bits (s.reg (R.LUL_Q_BASE q)) 6 38 * 64
  let me := s.engine (s.fld (F.LUL_Q_CFG_OWNER q)) (s.flag (F.LUL_Q_CFG_ATTR_S q))
  let s := (List.range (2 ^ s.fld (F.LUL_Q_CFG_SIZE_LOG2 q))).foldl
    (fun (s : State) i => s.recordUndefined me (a + 16 * i)) s
  ((s.setFld (F.LUL_Q_PROD_PROD_IDX q) s.freeVal).setFld (F.LUL_Q_CONS_CONS_IDX q)
    (Config.freeValue (s.free + 1)).toNat).skipFree 2

/-- A write of `c` to CONS_IDX (R380). -/
def State.lqConsume (s : State) (q c : Nat) : State :=
  let p := s.fld (F.LUL_Q_PROD_PROD_IDX q)
  let old := s.fld (F.LUL_Q_CONS_CONS_IDX q)
  if (p + 65536 - c) % 65536 ≤ (p + 65536 - old) % 65536 then
    let s := s.setFld (F.LUL_Q_CONS_CONS_IDX q) c
    if c = p ∧ old ≠ p then s.lqEmptied q else s
  else s.setFld (F.LUL_Q_STATUS_CONS_ERR q) 1

/-- A write to a LUL register (R379 to R387). -/
def lulWrite (s : State) (r : Req) (w : RegW) : Acc :=
  if w.k < 0x50800 then
    let q := (w.k - 0x50000) / 0x20
    if ¬ s.admits r (s.fld (F.LUL_Q_CFG_OWNER q)) (s.flag (F.LUL_Q_CFG_ATTR_S q)) then refAcc s r true .lul 0
    else if w.row.key = R.LUL_Q_BASE 0 then
      let s' := if s.flag (F.LUL_Q_CFG_ENABLE q) && decide (w.merged (s.reg w.k) ≠ s.reg w.k) then s.lqUndefined q else s
      okAcc (s'.plainWrite w)
    else if w.row.key = R.LUL_Q_CFG 0 then
      let old := s.reg w.k
      let new := w.merged old
      let k := bits new 4 4
      if k < 4 ∨ 12 < k then okAcc s
      else
        let new := if r.s then new else putBits new 11 1 0
        let was := bit old 24
        let now := bit new 24
        let s := if was && now && decide (bits old 4 4 ≠ k) then s.lqUndefined q else s
        let s := s.setReg w.k new
        let s := if now && !was then
            ((s.setFld (F.LUL_Q_PROD_PROD_IDX q) 0).setFld (F.LUL_Q_CONS_CONS_IDX q) 0).lqEmptied q
          else if was && !now then s.lqDropEvts q false else s
        let s := if w.one (F.LUL_Q_CFG_RESUME q) && s.flag (F.LUL_Q_STATUS_HALTED q) then
            (s.setFld (F.LUL_Q_STATUS_HALTED q) 0).lqTurn q else s
        okAcc (s.lqShow q)
    else if w.row.key = R.LUL_Q_CONS 0 then
      okAcc (s.lqConsume q (w.newFld (s.reg w.k) (F.LUL_Q_CONS_CONS_IDX q)))
    else if w.row.key = R.LUL_Q_COAL 0 then okAcc ((s.plainWrite w).lqCheck q)
    else okAcc (s.plainWrite w)
  else if w.row.key = R.LUL_EVT_MAP 0 then
    if ¬ r.s then refAcc s r true .lul 0
    else
      let i := (w.k - 0x50800) / 4
      let s' := s.plainWrite w
      if s.flag (F.LUL_EVT_MAP_EN i) && !s'.flag (F.LUL_EVT_MAP_EN i) && decide (s.freeVal % 2 = 0) then
        let s'' := (s'.skipFree).setLevt i {}
        okAcc { s'' with lull := { s''.lull with q := (s''.lull.q.map (fun e =>
          (e.1, { e.2 with items := e.2.items.filter (fun x => x != .evt i) }))).filter (fun e => decide (e.2 ≠ {})) } }
      else if s.flag (F.LUL_EVT_MAP_EN i) && !s'.flag (F.LUL_EVT_MAP_EN i) then okAcc s'.skipFree
      else okAcc s'
  else okAcc (s.plainWrite w)

/-- The lowest queue pending at thread `t` (R388). -/
def State.irqAt (s : State) (t : Nat) : Option Nat :=
  (List.range 64).find? (fun q => s.flag (F.LUL_Q_STATUS_PENDING q) && decide (s.fld (F.LUL_Q_CFG_TARGET q) = t))

/-- Lull holds a wake request for core `c` (R389). -/
def State.wakeRequest (s : State) (c : Nat) : Bool :=
  !s.domOn c && (List.range 64).any (fun q => s.flag (F.LUL_Q_STATUS_PENDING q) &&
    decide (s.fld (F.LUL_Q_CFG_TARGET q) / 2 = c) && s.flag (F.LUL_Q_CFG_WAKE_EN q))

end Sys2Proof.Machine
end

