-- ==== Sys2Proof/Machine/Breeze.lean ====
section
/-! DEFINITION. Breeze (chapter 14): events at channels, gates, spacing, pulses, direct fires, task inputs, pin outputs;
and the timers and the system time counter (chapter 15). -/

namespace Sys2Proof.Machine

/-! ### Channels -/

/-- Channel `c` beside its registers. -/
def State.ch (s : State) (c : Nat) : BrzCh := AMap.get s.brz c {}

def State.setCh (s : State) (c : Nat) (x : BrzCh) : State := { s with brz := AMap.set s.brz c x {} }

/-- Whether TIM_CH_c counts, as gate 0x200 + c reads it (R354, R370). -/
def State.timGate (s : State) (c : Nat) : Bool :=
  let even := c - c % 2
  if s.flag (F.TIM_CFG_LINK even) then s.flag (F.TIM_STATUS_COUNTING even) else s.flag (F.TIM_STATUS_COUNTING c)

/-- The level that GATE `g` of a channel with attribute `a` selects (R354, R359). -/
def State.gateLevel (s : State) (g : Nat) (a : Bool) : Bool :=
  if 0x100 ≤ g ∧ g < 0x200 then s.pinIn (g - 0x100) && (a || !s.pinS (g - 0x100))
  else if 0x200 ≤ g ∧ g < 0x220 then s.timGate (g - 0x200)
  else if 0x220 ≤ g ∧ g < 0x226 then s.flag (F.HEAD_STATUS_IN_VBLANK (g - 0x220))
  else if g = 0x230 then s.aligned
  else false

/-- A source event passes channel `c`'s gate (R354). -/
def State.gateOpen (s : State) (c : Nat) : Bool :=
  let g := s.fld (F.BRZ_CH_CFG_GATE c)
  decide (g = 0) || (s.gateLevel g (s.chS c) != s.flag (F.BRZ_CH_CFG_GATE_INV c))

/-- Channel `c` takes no event of source `src` (R359): an N channel from the detector of an S pin or from an S
channel. -/
def State.srcBarred (s : State) (c src : Nat) : Bool :=
  !s.chS c && (if 0x200 ≤ src ∧ src < 0x300 then s.pinS (src - 0x200)
               else if 0x100 ≤ src ∧ src < 0x200 then s.chS (src - 0x100) else false)

/-- The least distance between pulses of channel `c` (R357). -/
def State.spacing (s : State) (c : Nat) : Nat := max (s.fld (F.BRZ_CH_SPACE_SPACING c)) 1

/-- An event that channel `c` passes in the present cycle (R353, R357, R358). -/
def State.chPass (s : State) (c : Nat) : State :=
  if s.flag (F.BRZ_CH_STATUS_HELD c) then s.setFld (F.BRZ_CH_STATUS_COINCIDENT c) 1
  else
    let x := s.ch c
    let t := s.now + 2
    match x.last with
    | some l =>
      if t < l + s.spacing c then (s.setFld (F.BRZ_CH_STATUS_HELD c) 1).setFld (F.BRZ_CH_STATUS_SPACED c) 1
      else s.setCh c { x with due := x.due ++ [t], last := some t }
    | none => s.setCh c { x with due := x.due ++ [t], last := some t }

/-- The requester may fire channel `c` directly (R356). -/
def State.mayFire (s : State) (q : Req) (c : Nat) : Bool := s.admits q (s.fld (F.BRZ_CH_OWN_OWNER c)) (s.chS c)

/-- An event of source `src` (0: a direct fire) arrives at the input of channel `c`; `pass` says that it would pass alone.
Events of one cycle act as one and set COINCIDENT, except two pulses of one source, which arrive as one (R352, R358). -/
def State.chArrive (s : State) (c src : Nat) (pass : Bool) : State :=
  let x := s.ch c
  if x.at_ = some s.now then
    let same : Bool := decide (src ≠ 0) && x.srcs.contains src
    let s := s.setCh c { x with srcs := src :: x.srcs, went := x.went || pass }
    let s := if same then s else s.setFld (F.BRZ_CH_STATUS_COINCIDENT c) 1
    if pass && !x.went then s.chPass c else s
  else
    let s := s.setCh c { x with at_ := some s.now, srcs := [src], went := pass }
    if pass then s.chPass c else s

/-- A direct fire of channel `c` by `q` (R356). -/
def State.directFire (s : State) (q : Req) (c : Nat) : State :=
  if s.mayFire q c then s.chArrive c 0 true else s.refuse q true .brz

/-- The first pulse of source `src` under way to channel `c` arrives (R354, R358): dropped where the channel takes none of
that source (R359) or no longer selects it. In the cycle of a change to SRC or GATE it may pass or not (R355, U-13). -/
def State.sourceEvent (s : State) (c src : Nat) : State :=
  match takeFirst (fun (e : Nat × Nat) => e == (src, c)) s.fired with
  | none => s
  | some (_, rest) =>
    let open_ := (s.ch c).chg = some s.now
    let s : State := { s with fired := rest }
    if s.srcBarred c src then s
    else if open_ then s.skipFree.chArrive c src (bit s.freeVal 0)
    else if s.fld (F.BRZ_CH_CFG_SRC c) = src then s.chArrive c src (s.gateOpen c)
    else s

/-- Channel `c` emits its pulse (R353): counted, an event at every channel that selects it, and two cycles from its
consumers. -/
def State.chEmit (s : State) (c : Nat) : State :=
  let s := (s.setFld (F.BRZ_CH_STATUS_COUNT c) (s.fld (F.BRZ_CH_STATUS_COUNT c) + 1)).fire (Src.CH c)
  { s with hops := s.hops ++ [(s.now + 2, c)] }

/-- The due pulse of channel `c` is emitted in its cycle (R353). -/
def State.chPulse (s : State) (c : Nat) : State :=
  match (s.ch c).due with
  | [] => s
  | t :: r => let s := s.until t; (s.setCh c { s.ch c with due := r }).chEmit c

/-- The held event of channel `c` is emitted in the first cycle that its window allows (R357). -/
def State.chHeld (s : State) (c : Nat) : State :=
  if s.flag (F.BRZ_CH_STATUS_HELD c) then
    let s := match (s.ch c).last with
      | some l => s.until (l + s.spacing c)
      | none => s
    ((s.setFld (F.BRZ_CH_STATUS_HELD c) 0).setCh c { s.ch c with last := some s.now }).chEmit c
  else s

/-! ### BRZ registers -/

/-- A reserved value of SRC (R351). -/
def srcReserved (v : Nat) : Bool :=
  !(decide (v = 0) || (decide (0x100 ≤ v) && decide (v < 0x307)) || (decide (0x310 ≤ v) && decide (v ≤ 0x316)) ||
    (decide (0x320 ≤ v) && decide (v < 0x380) && decide (v % 16 ≤ 8)) || (decide (0x380 ≤ v) && decide (v ≤ 0x382)) ||
    (decide (0x384 ≤ v) && decide (v ≤ 0x38F)) || (decide (0x3A0 ≤ v) && decide (v < 0x3E0)))

/-- A reserved value of GATE (R354). -/
def gateReserved (v : Nat) : Bool :=
  !(decide (v = 0) || (decide (0x100 ≤ v) && decide (v < 0x226)) || decide (v = 0x230))

/-- An ownership register written by `r`: an N requester that writes S as 1 stores 0. -/
def ownMerged (r : Req) (w : RegW) (old : Nat) : Nat :=
  let v := w.merged old
  if bit w.m 4 && bit w.v 4 && !r.s then putBits v 4 1 0 else v

/-- A write to a BRZ register. -/
def brzWrite (s : State) (r : Req) (w : RegW) : Acc :=
  if w.k < R.BRZ_TASK 0 then
    let c := (w.k - R.BRZ_CH_CFG 0) / 16
    if ¬ s.mayFire r c then refAcc s r true .brz 0
    else if w.row.key = R.BRZ_CH_CFG 0 then
      let v := w.merged (s.reg w.k)
      if srcReserved (bits v 0 10) || gateReserved (bits v 16 10) || decide (4 < bits v 28 3) then okAcc s
      else
        let old := s.reg w.k
        let t := s.setReg w.k v
        okAcc (if bits v 0 10 ≠ bits old 0 10 ∨ bits v 16 10 ≠ bits old 16 10 then t.setCh c { t.ch c with chg := some t.now }
          else t)
    else if w.row.key = R.BRZ_CH_OWN 0 then okAcc (s.setReg w.k (ownMerged r w (s.reg w.k)))
    else okAcc (s.plainWrite w)
  else if w.k < R.BRZ_FIRE then
    let t := (w.k - R.BRZ_TASK 0) / 8
    if ¬ s.admits r (s.fld (F.BRZ_TASK_CTL_OWNER t)) (s.flag (F.BRZ_TASK_CTL_S t)) then refAcc s r true .brz 0
    else if w.row.key = R.BRZ_TASK_CTL 0 then okAcc (s.setReg w.k (ownMerged r w (s.reg w.k)))
    else okAcc (s.plainWrite w)
  else if w.k = R.BRZ_FIRE then
    if Nat.land w.m 0xFF = 0 then okAcc s
    else
      let c := bits (Nat.land w.v w.m) 0 8
      if s.mayFire r c then okAcc (s.directFire r c) else refAcc s r true .brz 0
  else okAcc (s.plainWrite w)

/-- What a read of a BRZ register returns: an N requester reads 0 from the status of an S channel. -/
def brzRead (s : State) (r : Req) (k : Nat) : Nat :=
  if k < R.BRZ_TASK 0 ∧ k % 16 = 12 ∧ ¬ r.s ∧ s.chS ((k - R.BRZ_CH_CFG 0) / 16) then 0 else s.reg k

/-! ### Timers (R365 to R371) -/

/-- Timer channel `c` is the upper half of a linked pair. -/
def State.timUpper (s : State) (c : Nat) : Bool := decide (c % 2 = 1) && s.flag (F.TIM_CFG_LINK (c - 1))

/-- Timer channel `c` is the lower half of a linked pair. -/
def State.timLinked (s : State) (c : Nat) : Bool := decide (c % 2 = 0) && s.flag (F.TIM_CFG_LINK c)

/-- A value of channel `c`, from the register function `f`: 64 bits in a linked pair (R370). -/
def State.timVal (s : State) (f : Nat → Nat) (c : Nat) : Nat :=
  if s.timLinked c then s.reg (f c) + 2 ^ 32 * s.reg (f (c + 1)) else s.reg (f c)

/-- A value of channel `c` set. -/
def State.setTimVal (s : State) (f : Nat → Nat) (c v : Nat) : State :=
  if s.timLinked c then (s.setReg (f c) (v % 2 ^ 32)).setReg (f (c + 1)) (v / 2 ^ 32 % 2 ^ 32)
  else s.setReg (f c) (v % 2 ^ 32)

/-- Timer channel `c` beside its registers. -/
def State.timCh (s : State) (c : Nat) : TimCh := AMap.get s.tim c {}

def State.setTimCh (s : State) (c : Nat) (x : TimCh) : State := { s with tim := AMap.set s.tim c x {} }

/-- A pin action of R369 on channel `c`. -/
def State.timAct (s : State) (c act : Nat) : State :=
  let f := F.TIM_CTRL_LEVEL c
  match act with
  | 1 => s.setFld f 1
  | 2 => s.setFld f 0
  | 3 => s.setFld f (1 - s.fld f)
  | _ => s

/-- The count after one more tick. -/
def State.timNextCount (s : State) (c : Nat) : Nat :=
  (s.timVal R.TIM_COUNT c + 1) % (if s.timLinked c then 2 ^ 64 else 2 ^ 32)

/-- A tick to count `n` gives a match event (R366, R367). -/
def State.timHit (s : State) (c n : Nat) : Bool := n == s.timVal R.TIM_MATCH c && Nat.ble n (s.timVal R.TIM_PERIOD c)

/-- A tick to count `n` is the terminal one. -/
def State.timLast (s : State) (c n : Nat) : Bool := Nat.ble (s.timVal R.TIM_PERIOD c) n

/-- The terminal event of channel `c` and its pin action (R367, R369). -/
def State.timEnd (s : State) (c : Nat) : State :=
  ((s.setFld (F.TIM_STATUS_TERMINATED c) 1).fire (Src.TIM_TERM c)).timAct c (s.fld (F.TIM_CFG_TERM_ACT c))

/-- A tick that brings the count of channel `c` to `n`: the match and terminal events and the pin action. -/
def State.timReach (s : State) (c n : Nat) : State :=
  let s := s.setTimVal R.TIM_COUNT c n
  let hit := s.timHit c n
  let s := if hit then (s.setFld (F.TIM_STATUS_MATCHED c) 1).fire (Src.TIM_MATCH c) else s
  if s.timLast c n then (s.setFld (F.TIM_STATUS_COUNTING c) 0).timEnd c
  else if hit then s.timAct c (s.fld (F.TIM_CFG_MATCH_ACT c)) else s

/-- What acts in phase `ph` of R366 (0 STOP, 1 ARM, 2 a tick, 3 CAPTURE) acts on the next edge where channel `c` has already
acted on this one in a later phase. -/
def State.timWait (s : State) (c ph : Nat) : State :=
  match (s.timCh c).edge with
  | some (t, p) => if t = s.now ∧ ph < p then s.pass 1 else s
  | none => s

/-- Channel `c` acts on this edge, or the next one, in phase `ph`. -/
def State.timEdge (s : State) (c ph : Nat) : State :=
  let s := s.timWait c ph
  s.setTimCh c { s.timCh c with edge := some (s.now, ph) }

/-- A tick of channel `c` is due on this edge and has not fallen. -/
def State.timDue (s : State) (c : Nat) : Bool := s.flag (F.TIM_STATUS_COUNTING c) && decide ((s.timCh c).next = s.now)

/-- A tick falls at channel `c` (R366, R367, R369). -/
def State.timTick (s : State) (c : Nat) : State :=
  if ¬ s.flag (F.TIM_STATUS_COUNTING c) ∨ (s.timUpper c = true) then s
  else
    let s := (s.until (s.timCh c).next).timEdge c 2
    let x := s.timCh c
    (s.setTimCh c { x with next := x.next + x.presc + 1 }).timReach c (s.timNextCount c)

/-- ARM (R366, R368): the count restarts from 0 with the prescaler. On a terminal edge the terminal event still fires. -/
def State.timArm (s : State) (c : Nat) : State :=
  if s.timUpper c then s
  else
    let s := s.timEdge c 1
    let s := if s.timDue c && s.timLast c (s.timNextCount c) then s.timEnd c else s
    let p := s.fld (F.TIM_CFG_PRESC c)
    let s := (s.setTimVal R.TIM_COUNT c 0).setFld (F.TIM_STATUS_COUNTING c) 1
    s.setTimCh c { s.timCh c with presc := p, next := s.now + p + 1 }

/-- STOP (R366): the count ends and COUNT keeps its value. -/
def State.timStop (s : State) (c : Nat) : State :=
  if s.timUpper c then s else (s.timEdge c 0).setFld (F.TIM_STATUS_COUNTING c) 0

/-- CAPTURE (R366): the count as it stands after the edge. -/
def State.timCapture (s : State) (c : Nat) : State :=
  if s.timUpper c then s
  else
    let s := if s.timDue c then s.timTick c else s
    let s := s.timEdge c 3
    s.setTimVal R.TIM_CAPT c (s.timVal R.TIM_COUNT c)

/-- The pin action of what falls on this edge, where ARM does or does not take effect on it; 0 where nothing falls. -/
def State.timActDue (s : State) (c : Nat) (arm : Bool) : Nat :=
  let n := s.timNextCount c
  if ¬ s.timDue c ∨ (s.timUpper c = true) then 0
  else if s.timLast c n then s.fld (F.TIM_CFG_TERM_ACT c)
  else if s.timHit c n && !arm then s.fld (F.TIM_CFG_MATCH_ACT c) else 0

/-- A write to TIM_CTRL (R366, R369): STOP, then ARM or the tick of this edge, then LEVEL, which yields to a pin action of
the same edge, then CAPTURE. -/
def State.timCtrl (s : State) (c : Nat) (w : RegW) : State :=
  let arm := w.one (F.TIM_CTRL_ARM c)
  let level : Bool := w.newFld (s.reg w.k) (F.TIM_CTRL_LEVEL c) != s.fld (F.TIM_CTRL_LEVEL c)
  let s := if level then s.timWait c 0 else s
  let s := if w.one (F.TIM_CTRL_STOP c) then s.timStop c else s
  let s := if arm then s.timWait c 1 else s
  let acts := s.timActDue c arm ≠ 0
  let s := if arm then s.timArm c else if s.timDue c then s.timTick c else s
  let s := if acts then s else s.plainWrite w
  if w.one (F.TIM_CTRL_CAPTURE c) then s.timCapture c else s

/-- A write to a TIM register. A change of LINK while either channel of the pair counts leaves both counts free
(R371, U-14). -/
def timWrite (s : State) (r : Req) (w : RegW) : Acc :=
  let c := (w.k - R.TIM_CFG 0) / 0x20
  if ¬ s.admits r (s.fld (F.TIM_OWN_OWNER c)) (s.flag (F.TIM_OWN_S c)) then refAcc s r true (.sys (blockOf w.k)) 0
  else if w.row.key = R.TIM_OWN 0 then okAcc (s.setReg w.k (ownMerged r w (s.reg w.k)))
  else if w.row.key = R.TIM_CFG 0 then
    let w := if c % 2 = 1 then w.without 1 else w
    let was := s.flag (F.TIM_CFG_LINK c)
    let busy := s.flag (F.TIM_STATUS_COUNTING c) || s.flag (F.TIM_STATUS_COUNTING (c + 1))
    let s := s.plainWrite w
    if c % 2 = 0 ∧ (was != s.flag (F.TIM_CFG_LINK c)) ∧ busy then
      okAcc (((s.setReg (R.TIM_COUNT c) (s.freeVal % 2 ^ 32)).setReg (R.TIM_COUNT (c + 1))
        ((Config.freeValue (s.free + 1)).toNat % 2 ^ 32)).skipFree 2)
    else okAcc s
  else if w.row.key = R.TIM_CTRL 0 then
    okAcc (s.timCtrl c w)
  else okAcc (s.plainWrite w)

/-- SET (R372): the system time counter is loaded while the Constellation unit is ALONE. -/
def State.timeSet (s : State) : State :=
  if s.fld F.CST_GROUP_STATUS_STATE = 0 then
    { s with stc := s.reg R.SYS_TIME_SET_LO + 2 ^ 32 * s.reg R.SYS_TIME_SET_HI }
  else s

end Sys2Proof.Machine
end

