-- ==== Sys2Proof/Machine/Crypto.lean ====
section
/-! DEFINITION. The check values of R33, SHA-512 (FIPS 180-4) and the P-521 curve (FIPS 186-5) as chapters 1, 9 and 20
use them, on lists of bytes and numbers. -/

namespace Sys2Proof.Machine

/-! ### CRCs (R33) -/

/-- `n` steps of a CRC that shifts left, of width `w`. -/
def crcStepsL (w poly : Nat) : Nat → Nat → Nat
  | 0, c => c
  | n + 1, c =>
    let c' := c * 2 % 2 ^ w
    crcStepsL w poly n (if c / 2 ^ (w - 1) % 2 = 1 then Nat.xor c' poly else c')

/-- `n` steps of a CRC that shifts right, with the reflected polynomial. -/
def crcStepsR (poly : Nat) : Nat → Nat → Nat
  | 0, c => c
  | n + 1, c => crcStepsR poly n (if c % 2 = 1 then Nat.xor (c / 2) poly else c / 2)

/-- One byte into a reflected CRC. -/
def crcByteR (poly c : Nat) (b : Byte) : Nat := crcStepsR poly 8 (Nat.xor c b.toNat)

/-- One byte into CRC-16, most significant bit first. -/
def crc16Byte (c : Nat) (b : Byte) : Nat := crcStepsL 16 0x1021 8 (Nat.xor c (b.toNat * 256))

/-- CRC-16 of sample records (R33, R34). -/
def crc16 (bs : List Byte) : Nat := bs.foldl crc16Byte 0xFFFF

/-- CRC-32C of CTS entries (polynomial 0x1EDC_6F41 reflected). -/
def crc32c (bs : List Byte) : Nat := Nat.xor (bs.foldl (crcByteR 0x82F63B78) 0xFFFFFFFF) 0xFFFFFFFF

/-- One byte into the running CRC-32 of Starfix (polynomial 0x04C1_1DB7 reflected), before the final XOR. -/
def crc32Byte (c : Nat) (b : Byte) : Nat := crcByteR 0xEDB88320 c b

/-- CRC-32 (IEEE 802.3) of Starfix regions. -/
def crc32 (bs : List Byte) : Nat := Nat.xor (bs.foldl crc32Byte 0xFFFFFFFF) 0xFFFFFFFF

/-- CRC-64 (ECMA-182) of HSE results, reflected. -/
def crc64 (bs : List Byte) : Nat :=
  Nat.xor (bs.foldl (crcByteR 0xC96C5795D7870F42) 0xFFFFFFFFFFFFFFFF) 0xFFFFFFFFFFFFFFFF

/-! ### SHA-512 -/

/-- Rotation right of a 64-bit number. -/
def rotr64 (n x : Nat) : Nat := x / 2 ^ n + x % 2 ^ n * 2 ^ (64 - n)

/-- σ0. -/
def sha512sig0 (x : Nat) : Nat := Nat.xor (Nat.xor (rotr64 1 x) (rotr64 8 x)) (x / 2 ^ 7)
/-- σ1. -/
def sha512sig1 (x : Nat) : Nat := Nat.xor (Nat.xor (rotr64 19 x) (rotr64 61 x)) (x / 2 ^ 6)
/-- Σ0. -/
def sha512sum0 (x : Nat) : Nat := Nat.xor (Nat.xor (rotr64 28 x) (rotr64 34 x)) (rotr64 39 x)
/-- Σ1. -/
def sha512sum1 (x : Nat) : Nat := Nat.xor (Nat.xor (rotr64 14 x) (rotr64 18 x)) (rotr64 41 x)
/-- Ch. -/
def sha512ch (x y z : Nat) : Nat := Nat.xor (Nat.land x y) (Nat.land (2 ^ 64 - 1 - x) z)
/-- Maj. -/
def sha512maj (x y z : Nat) : Nat := Nat.xor (Nat.xor (Nat.land x y) (Nat.land x z)) (Nat.land y z)

/-- The round constants of FIPS 180-4. -/
def sha512K : List Nat :=
  [0x428A2F98D728AE22, 0x7137449123EF65CD, 0xB5C0FBCFEC4D3B2F, 0xE9B5DBA58189DBBC,
   0x3956C25BF348B538, 0x59F111F1B605D019, 0x923F82A4AF194F9B, 0xAB1C5ED5DA6D8118,
   0xD807AA98A3030242, 0x12835B0145706FBE, 0x243185BE4EE4B28C, 0x550C7DC3D5FFB4E2,
   0x72BE5D74F27B896F, 0x80DEB1FE3B1696B1, 0x9BDC06A725C71235, 0xC19BF174CF692694,
   0xE49B69C19EF14AD2, 0xEFBE4786384F25E3, 0x0FC19DC68B8CD5B5, 0x240CA1CC77AC9C65,
   0x2DE92C6F592B0275, 0x4A7484AA6EA6E483, 0x5CB0A9DCBD41FBD4, 0x76F988DA831153B5,
   0x983E5152EE66DFAB, 0xA831C66D2DB43210, 0xB00327C898FB213F, 0xBF597FC7BEEF0EE4,
   0xC6E00BF33DA88FC2, 0xD5A79147930AA725, 0x06CA6351E003826F, 0x142929670A0E6E70,
   0x27B70A8546D22FFC, 0x2E1B21385C26C926, 0x4D2C6DFC5AC42AED, 0x53380D139D95B3DF,
   0x650A73548BAF63DE, 0x766A0ABB3C77B2A8, 0x81C2C92E47EDAEE6, 0x92722C851482353B] ++
  [0xA2BFE8A14CF10364, 0xA81A664BBC423001, 0xC24B8B70D0F89791, 0xC76C51A30654BE30,
   0xD192E819D6EF5218, 0xD69906245565A910, 0xF40E35855771202A, 0x106AA07032BBD1B8,
   0x19A4C116B8D2D0C8, 0x1E376C085141AB53, 0x2748774CDF8EEB99, 0x34B0BCB5E19B48A8,
   0x391C0CB3C5C95A63, 0x4ED8AA4AE3418ACB, 0x5B9CCA4F7763E373, 0x682E6FF3D6B2B8A3,
   0x748F82EE5DEFB2FC, 0x78A5636F43172F60, 0x84C87814A1F0AB72, 0x8CC702081A6439EC,
   0x90BEFFFA23631E28, 0xA4506CEBDE82BDE9, 0xBEF9A3F7B2C67915, 0xC67178F2E372532B,
   0xCA273ECEEA26619C, 0xD186B8C721C0C207, 0xEADA7DD6CDE0EB1E, 0xF57D4F7FEE6ED178,
   0x06F067AA72176FBA, 0x0A637DC5A2C898A6, 0x113F9804BEF90DAE, 0x1B710B35131C471B,
   0x28DB77F523047D84, 0x32CAAB7B40C72493, 0x3C9EBE0A15C9BEBC, 0x431D67C49C100D4C,
   0x4CC5D4BECB3E42B6, 0x597F299CFC657E2A, 0x5FCB6FAB3AD6FAEC, 0x6C44198C4A475817]

/-- The initial hash value of FIPS 180-4. -/
def sha512H0 : List Nat :=
  [0x6A09E667F3BCC908, 0xBB67AE8584CAA73B, 0x3C6EF372FE94F82B, 0xA54FF53A5F1D36F1,
   0x510E527FADE682D1, 0x9B05688C2B3E6C1F, 0x1F83D9ABFB41BD6B, 0x5BE0CD19137E2179]

/-- The 64-bit big-endian words of a block. -/
def beWords : Nat → List Byte → List Nat
  | 0, _ => []
  | n + 1, bs => ofBytesBE (bs.take 8) :: beWords n (bs.drop 8)

/-- The rounds that remain for the constants `ks`; `w` is the window of the last 16 schedule words. -/
def sha512Rounds : List Nat → List Nat → List Nat → List Nat
  | [], _, st => st
  | k :: ks, w, st =>
    match st with
    | [a, b, c, d, e, f, g, h] =>
      let w0 := w.headD 0
      let t1 := h + sha512sum1 e + sha512ch e f g + k + w0
      let t2 := sha512sum0 a + sha512maj a b c
      let wn := (sha512sig1 (w.getD 14 0) + w.getD 9 0 + sha512sig0 (w.getD 1 0) + w0) % 2 ^ 64
      sha512Rounds ks (w.tail ++ [wn]) [(t1 + t2) % 2 ^ 64, a, b, c, (d + t1) % 2 ^ 64, e, f, g]
    | _ => st

/-- One block. -/
def sha512Block (h : List Nat) (block : List Byte) : List Nat :=
  List.zipWith (fun x y => (x + y) % 2 ^ 64) h (sha512Rounds sha512K (beWords 16 block) h)

/-- `n` blocks. -/
def sha512Blocks : Nat → List Byte → List Nat → List Nat
  | 0, _, h => h
  | n + 1, bs, h => sha512Blocks n (bs.drop 128) (sha512Block h (bs.take 128))

/-- SHA-512: 64 bytes. -/
def sha512 (bs : List Byte) : List Byte :=
  let zeros := (239 - bs.length % 128) % 128
  let m := bs ++ 0x80 :: List.replicate zeros 0 ++ toBytesBE 16 (8 * bs.length)
  (sha512Blocks (m.length / 128) m sha512H0).flatMap (toBytesBE 8)

/-! ### P-521 -/

/-- p = 2^521 − 1. -/
def p521 : Nat := 2 ^ 521 - 1
/-- The order of the base point. -/
def p521n : Nat := 0x1FFFFFFFFFFFFFFFFFFFFFFFFFFFFFFFFFFFFFFFFFFFFFFFFFFFFFFFFFFFFFFFFFA51868783BF2F966B7FCC0148F709A5D03BB5C9B8899C47AEBB6FB71E91386409
/-- The coefficient b. -/
def p521b : Nat := 0x51953EB9618E1C9A1F929A21A0B68540EEA2DA725B99B315F3B8B489918EF109E156193951EC7E937B1652C0BD3BB1BF073573DF883D2C34F1EF451FD46B503F00
/-- The base point. -/
def p521G : Nat × Nat :=
  (0xC6858E06B70404E9CD9E3ECB662395B4429C648139053FB521F828AF606B4D3DBAA14B5E77EFE75928FE1DC127A2FFA8DE3348B3C1856A429BF97E7E31C2E5BD66,
   0x11839296A789A3BC0045C8A5FB42C7D1BD998F54449579B446817AFBD17273E662C97EE72995EF42640C550B9013FAD0761353C7086A272C24088BE94769FD16650)

/-- a^e mod m over `k` bits of e. -/
def powMod : Nat → Nat → Nat → Nat → Nat
  | 0, _, _, m => 1 % m
  | k + 1, a, e, m =>
    let r := powMod k (a * a % m) (e / 2) m
    if e % 2 = 1 then r * a % m else r

/-- The inverse modulo a prime. -/
def invMod (a m : Nat) : Nat := powMod 521 (a % m) (m - 2) m

/-- A point in Jacobian coordinates; Z = 0 is the point at infinity. -/
structure JPoint where
  x : Nat
  y : Nat
  z : Nat
  deriving DecidableEq, Repr

/-- Difference modulo p. -/
def subP (a b : Nat) : Nat := (a + p521 - b % p521) % p521

/-- Doubling (a = −3). -/
def jDouble (q : JPoint) : JPoint :=
  if q.z = 0 ∨ q.y = 0 then ⟨1, 1, 0⟩ else
  let d := q.z * q.z % p521
  let g := q.y * q.y % p521
  let b := q.x * g % p521
  let a := 3 * (subP q.x d * (q.x + d) % p521) % p521
  let x := subP (a * a % p521) (8 * b)
  let z := 2 * q.y * q.z % p521
  let y := subP (a * subP (4 * b) x % p521) (8 * (g * g % p521))
  ⟨x, y, z⟩

/-- Addition. -/
def jAdd (a b : JPoint) : JPoint :=
  if a.z = 0 then b else if b.z = 0 then a else
  let z1 := a.z * a.z % p521
  let z2 := b.z * b.z % p521
  let u1 := a.x * z2 % p521
  let u2 := b.x * z1 % p521
  let s1 := a.y * (z2 * b.z % p521) % p521
  let s2 := b.y * (z1 * a.z % p521) % p521
  if u1 = u2 then (if s1 = s2 then jDouble a else ⟨1, 1, 0⟩) else
  let h := subP u2 u1
  let r := subP s2 s1
  let h2 := h * h % p521
  let h3 := h * h2 % p521
  let v := u1 * h2 % p521
  let x := subP (subP (r * r % p521) h3) (2 * v)
  ⟨x, subP (r * subP v x % p521) (s1 * h3 % p521), h * (a.z * b.z % p521) % p521⟩

/-- k × P over `n` bits of k. -/
def jMul : Nat → Nat → JPoint → JPoint
  | 0, _, _ => ⟨1, 1, 0⟩
  | n + 1, k, q =>
    let r := jMul n (k / 2) (jDouble q)
    if k % 2 = 1 then jAdd r q else r

/-- Whether (x, y) lies on the curve. -/
def onP521 (x y : Nat) : Bool :=
  decide (x < p521) && decide (y < p521) &&
  decide (y * y % p521 = (x * x % p521 * x + (p521 - 3) * x + p521b) % p521)

/-- ECDSA verification of (r, s) over the number e under the public key (x, y), FIPS 186-5. -/
def ecdsaVerify (x y r s e : Nat) : Bool :=
  if onP521 x y && decide (0 < r) && decide (r < p521n) && decide (0 < s) && decide (s < p521n) then
    let w := invMod s p521n
    let q := jAdd (jMul 521 (e * w % p521n) ⟨p521G.1, p521G.2, 1⟩) (jMul 521 (r * w % p521n) ⟨x, y, 1⟩)
    if q.z = 0 then false
    else
      let zi := invMod q.z p521
      decide (q.x * (zi * zi % p521) % p521 % p521n = r)
  else false

end Sys2Proof.Machine
end

