-- ==== Sys2Proof/Machine/Cst.lean ====
section
/-! DEFINITION. The Constellation unit (chapter 4): formation, time and the tick schedule, votes, barriers, mailboxes,
epoch stores, snapshot set-up and reset requests. What needs the bus stands in CstTick. -/

namespace Sys2Proof.Machine

/-! ### Group state (R125 to R128) -/

/-- LIVE. -/
def State.live (s : State) : Nat := s.fld F.CST_GROUP_STATUS_LIVE

/-- Position `p` is LIVE. -/
def State.isLive (s : State) (p : Nat) : Bool := bit s.live p

/-- The positions of the LIVE peers. -/
def State.livePeers (s : State) : List Nat := (List.range 4).filter (fun p => s.isLive p && p != s.pos)

/-- CST_TIME fires when TIME_ALIGNED was `was` before. -/
def State.alignedEvent (s : State) (was : Bool) : State :=
  if s.aligned != was then s.fire Src.CST_TIME else s

/-- The fire of event `src` unless the masks are equal. -/
def State.fireIf (s : State) (c : Bool) (src : Nat) : State := if c then s.fire src else s

/-! ### Votes (R132 to R134) -/

/-- A vote has a digest of every LIVE member. -/
def State.voteFull (s : State) (v : Vote) : Bool :=
  (List.range 4).all (fun p => !(s.isLive p || p == s.pos) || v.digests.any (fun (e : Nat × Nat) => e.1 == p))

/-- Votes that are complete close. -/
def State.voteCheck (s : State) : State :=
  { s with cst := { s.cst with votes := s.cst.votes.map (fun v => { v with closed := v.closed || s.voteFull v }) } }

/-- The digest `d` of epoch `e` from position `p` is present, or is discarded when its vote has closed. -/
def State.voteDigest (s : State) (p e d : Nat) : State :=
  if ¬ s.votes ∨ ¬ bit s.members p then s
  else if e < s.cst.reached ∨ s.cst.done.contains e then s.bump R.CST_VOTE_DISCARD
  else
    match s.cst.votes.find? (fun v => v.epoch == e) with
    | some v =>
      if v.closed then s.bump R.CST_VOTE_DISCARD
      else
        let v' : Vote := { v with digests := AMap.ins (v.digests.erase p) p d }
        { s with cst := { s.cst with votes := s.cst.votes.map (fun (x : Vote) => if x.epoch == e then v' else x) } }.voteCheck
    | none =>
      let v : Vote := { epoch := e, digests := [(p, d)] }
      { s with cst := { s.cst with votes := s.cst.votes ++ [v] } }.voteCheck

/-- The positions whose digest equals `d`, as a mask. -/
def Vote.agree (v : Vote) (d : Nat) : Nat := (v.digests.map (fun (e : Nat × Nat) => if e.2 = d then 2 ^ e.1 else 0)).sum

/-- The largest set of equal digests, as a mask. -/
def Vote.best (v : Vote) : Nat :=
  v.digests.foldl (fun (m : Nat) (e : Nat × Nat) => if popc 4 m < popc 4 (v.agree e.2) then v.agree e.2 else m) 0

/-- OUTCOME for `k` agreeing of `n` members (the table of R133). -/
def voteOutcome (n k : Nat) : Nat :=
  if k = n then 1 else if (n = 3 ∧ k = 2) ∨ (n = 4 ∧ k = 3) then 2 else 3

/-- The VOTE word of a closed vote (R134). -/
def State.voteWord (s : State) (v : Vote) : Nat :=
  let o := voteOutcome (popc 4 s.members) (popc 4 v.best)
  let present := (v.digests.map (fun (e : Nat × Nat) => 2 ^ e.1)).sum
  s.members * 2 ^ 12 + (if o = 3 then 0 else v.best) * 2 ^ 8 + present * 2 ^ 4 + o

/-- The first closed vote records its outcome (R133). -/
def State.voteClose (s : State) : State :=
  match takeFirst (fun (v : Vote) => v.closed) s.cst.votes with
  | none => s
  | some (v, rest) =>
    let w := s.voteWord v
    let o := w % 8
    let s := { s with cst := { s.cst with votes := rest, done := v.epoch :: s.cst.done } }
    let s := (s.setReg R.CST_VOTE_LAST (v.epoch % 2 ^ 32 * 2 ^ 32 + w)).fire Src.CST_VOTE
    let s := s.fireIf (decide (o = 3) || !bit w (8 + s.pos)) Src.CST_VOTE_DISSENT
    if o = 1 then s else s.bump R.CST_VOTE_FAIL_COUNT

/-! ### Barriers (R136, R270) -/

/-- Barrier `n` beside its register. -/
def State.bar (s : State) (n : Nat) : Barrier := AMap.get s.cst.bars n {}

def State.setBar (s : State) (n : Nat) (b : Barrier) : State :=
  { s with cst := { s.cst with bars := AMap.set s.cst.bars n b {} } }

/-- A thread's arrival at barrier `n` in a generation up to `g` gets the result `r`. -/
def Arrival.ended (a : Arrival) (n g r : Nat) : Arrival :=
  if a.bar = n ∧ a.gen ≤ g ∧ a.res.isNone then { a with res := some r } else a

/-- The generations of barrier `n` up to `g` end with result `r` for the threads that arrived in them. -/
def State.barEnd (s : State) (n g r : Nat) : State :=
  { s with threads := s.threads.map (fun (e : Nat × Thread) =>
      (e.1, { e.2 with arrived := e.2.arrived.map (fun a => a.ended n g r) })) }

/-- The positions whose arrivals complete a generation of barrier `n`. -/
def State.barPlaces (s : State) (n : Nat) : List Nat :=
  if s.fld (F.CST_BAR_CFG_SCOPE n) = 2 then (List.range 4).filter (fun p => s.isLive p || p == s.pos) else [s.pos]

/-- An arrival at barrier `n` from position `p` is counted; the generation completes with EXPECT arrivals at every
place. -/
def State.barArrive (s : State) (n p : Nat) : State :=
  let x := s.fld (F.CST_BAR_CFG_EXPECT n)
  let b := s.bar n
  let c := AMap.set b.counts p (AMap.get b.counts p 0 + 1) 0
  if x ≠ 0 ∧ (s.barPlaces n).all (fun p => decide (x ≤ AMap.get c p 0)) = true then
    let c' := (s.barPlaces n).foldl (fun (m : AMap Nat) p => AMap.set m p (AMap.get m p 0 - x) 0) c
    (s.barEnd n b.gen 0).setBar n { gen := b.gen + 1, counts := c', since := s.now }
  else s.setBar n { b with counts := c, since := if b.counts.isEmpty then s.now else b.since }

/-- The generation in which the next arrival of this device at barrier `n` counts. -/
def State.barGen (s : State) (n : Nat) : Nat :=
  let x := s.fld (F.CST_BAR_CFG_EXPECT n)
  (s.bar n).gen + (if x = 0 then 0 else AMap.get (s.bar n).counts s.pos 0 / x)

/-- A thread waits on barrier `n`. -/
def State.barWaited (s : State) (n : Nat) : Bool :=
  s.threads.any (fun (e : Nat × Thread) => match e.2.wait, e.2.arrived with
    | some (.barrier _), some a => a.bar == n
    | _, _ => false)

/-- Every arrival at barrier `n` ends with result `r`: its timeout (1) or a reset (2). -/
def State.barAbandon (s : State) (n r : Nat) : State :=
  let g := s.barGen n
  (s.barEnd n g r).setBar n { gen := g + 1, counts := [] }

/-- TIMEOUT_US of barrier `n` passes after the first arrival of the generation. -/
def State.barTimeout (s : State) (n : Nat) : State :=
  let t := s.fld (F.CST_BAR_CFG_TIMEOUT_US n)
  if t = 0 ∨ (s.bar n).counts.isEmpty = true then s
  else (s.until ((s.bar n).since + 500 * t)).barAbandon n 1

/-- Every group-scope barrier is reset. -/
def State.barResets (s : State) : State :=
  (List.range 32).foldl (fun s n => if s.fld (F.CST_BAR_CFG_SCOPE n) = 2 then s.barAbandon n 2 else s) s

/-! ### Changes of LIVE (R126 to R128) -/

/-- A join step (R128). -/
def State.joinStep (s : State) (l : LeadInfo) : State :=
  let s := (s.setReg R.CST_EPOCH (l.epoch % 2 ^ 64)).setFld F.CST_GROUP_STATUS_OFFSET 0
  let s := s.setFld F.CST_GROUP_STATUS_TIME_ALIGNED 1
  let c := { s.cst with sched := l.sched, prev := l.sched, next := l.next }
  let c := { c with period := l.period, lead := some (l.setting, l.at_), due := none }
  { s with stc := l.stc % 2 ^ 64, cst := { c with reached := l.epoch, votes := [], done := [] } }

/-- One answer less is awaited from position `p`; `nack` sets its bit. GO clears with the last (R138). -/
def State.goAnswer (s : State) (p : Nat) (nack : Bool) : State :=
  if s.cst.go.contains p then
    let go := s.cst.go.filter (· != p)
    let s := if nack && s.cst.goStore then s.orReg R.CST_BCAST_STATUS (2 ^ (4 + p)) else s
    let s := { s with cst := { s.cst with go := go } }
    if go.isEmpty then s.setFld F.CST_BCAST_CMD_GO 0 else s
  else s

/-- LIVE becomes `m`; `info` is what the peer that joins carries. -/
def State.setLive (s : State) (m : Nat) (info : Option LeadInfo) : State :=
  if m = s.live then s
  else
    let was := s.aligned
    let gone := s.livePeers.filter (fun p => !bit m p)
    let first := (lowestSet 4 m).getD s.pos
    let old := s.leaderPos
    let s := s.setFld F.CST_GROUP_STATUS_LIVE m
    let s := match info with
      | some l => if first < old then s.joinStep l else s
      | none => s
    let s := { s with cst := { s.cst with leader := if first = s.pos then none else some first } }
    let s := s.setFld F.CST_GROUP_STATUS_LEADER ((lowestSet 4 m).getD 0)
    let s := if s.leads then (s.setFld F.CST_GROUP_STATUS_OFFSET 0).setFld F.CST_GROUP_STATUS_TIME_ALIGNED 0 else s
    let s := gone.foldl (fun s p => s.goAnswer p true) (s.fire Src.CST_MEMBER).barResets
    let full : Bool := Nat.land m s.members == s.members
    let st := s.fld F.CST_GROUP_STATUS_STATE
    let st' : Nat := if st = 0 then 0 else if full then 2
      else if st = 2 then 3
      else if (st == 4 && !s.livePeers.isEmpty) = true then 3 else st
    ((s.setFld F.CST_GROUP_STATUS_STATE st').voteCheck).alignedEvent was

/-- A token of some kind to every position of `ps`. -/
def State.tokens (s : State) (k : OutKind) (ps : List Nat) (args : List Nat) (data : List Byte := []) : State :=
  ps.foldl (fun s p => s.emit ⟨k, p :: args, data⟩) s

/-- The other members of the group. -/
def State.others (s : State) : List Nat := (List.range 4).filter (fun p => bit s.members p && p != s.pos)

/-- This device's tokens since the last ones (R126, R127): while it is in a group, one time token on every LIVE link for
each µs that has passed (one item of State.out, with their number) and a hello to every other member that is not LIVE. A
time token carries what LeadInfo names. -/
def State.sendTokens (s : State) : State :=
  let k := s.now / 500 - s.cst.sentTo / 500
  if k = 0 then s
  else
    let s := { s with cst := { s.cst with sentTo := s.now } }
    if s.alone then s
    else
      let x := s.cst.lead.getD (s.fld F.CST_TICK_PERIOD_US, s.reg R.CST_TICK_AT)
      let ask (p : Nat) : List Nat :=
        if s.flag F.HSE_ADOPT_ARM && s.fld F.HSE_ADOPT_SOURCE == p then [s.reg R.HSE_ADOPT_EPOCH] else []
      let s' := s.livePeers.foldl (fun (a : State) p => a.emit ⟨.timeToken, [p, k, s.stc, s.reg R.CST_EPOCH, s.cst.sched,
        s.cst.next, s.cst.period, x.1, x.2] ++ ask p, []⟩) s
      s'.tokens .helloToken (s.others.filter (fun p => !s.isLive p)) [s.reg R.CST_GROUP, s.pos]

/-- A token on the port of position `q` that carries `l` has arrived. -/
def State.hear (s : State) (q : Nat) (l : LeadInfo) : State :=
  { s with cst := { s.cst with
      heard := AMap.ins (s.cst.heard.erase q) q s.now,
      asks := match l.ask with
        | some e => AMap.ins (s.cst.asks.erase q) q e
        | none => s.cst.asks.erase q } }

/-- FORM (R126). -/
def State.form (s : State) : State :=
  if ¬ s.alone ∨ ¬ bit s.members s.pos then s
  else
    let was := s.aligned
    let s := s.setFld F.CST_GROUP_STATUS_STATE 1
    let s := { s with cst := { s.cst with formAt := s.now, leader := none } }
    ((s.setLive (2 ^ s.pos) none).tokens .helloToken s.others [s.reg R.CST_GROUP, s.pos]).alignedEvent was

/-- LEAVE (R126). -/
def State.leave (s : State) : State :=
  if s.alone then s
  else
    let was := s.aligned
    let s := s.setFld F.CST_GROUP_STATUS_STATE 0
    let s := { s.setLive 0 none with cst := { (s.setLive 0 none).cst with votes := [], leader := none, lead := none } }
    s.alignedEvent was

/-- A hello on port ATS_q (R126, R127). -/
def State.hello (s : State) (q pos gid members : Nat) (l : LeadInfo) : State :=
  if s.alone ∨ pos ≠ q ∨ q = s.pos ∨ ¬ bit s.members q ∨ gid ≠ s.fld F.CST_GROUP_GROUP_ID ∨ members ≠ s.members then s
  else (s.hear q l).setLive (Nat.lor s.live (2 ^ q)) (some l)

/-- Four seconds after FORM (R126). -/
def State.formTimeout (s : State) : State :=
  if s.fld F.CST_GROUP_STATUS_STATE ≠ 1 then s
  else
    let s := s.until (s.cst.formAt + 2000000000)
    s.setFld F.CST_GROUP_STATUS_STATE (if s.livePeers.isEmpty then 4 else 3)

/-- A peer is lost (R127). -/
def State.peerLost (s : State) (q : Nat) : State :=
  if s.isLive q ∧ q ≠ s.pos then s.setLive (s.live - 2 ^ q) none else s

/-- A peer whose port has received no token for 100 µs is lost; time passes up to that moment. -/
def State.peerSilent (s : State) (q : Nat) : State :=
  if s.isLive q ∧ q ≠ s.pos then (s.until (AMap.get s.cst.heard q 0 + 50000)).peerLost q else s

/-- A time token from position `q` with the measured offset `off` to the leader in ns (leader's time less own). The next
SYS edge skips its advance or advances by 2, on no more than 200 edges in any 1,000,000 (R128, R372). -/
def State.timeToken (s : State) (q : Nat) (off : Int) (l : LeadInfo) : State :=
  if ¬ s.isLive q ∨ q = s.pos then s
  else
    let s := s.hear q l
    if s.leads ∨ q ≠ s.leaderPos then s
    else
      let was := s.aligned
      let e := s.now / 5 + 1
      let recent := s.cst.slews.filter (fun t => decide (e < t + 1000000))
      let step : Bool := decide (10 ≤ off.natAbs) && decide (recent.length < 200) && !recent.contains e
      let c := { s.cst with lead := some (l.setting, l.at_), slews := if step then e :: recent else recent }
      let c := if l.epoch = s.reg R.CST_EPOCH then { c with next := l.next, period := l.period } else c
      let c := if step then { c with skew := if off < 0 then -1 else 1 } else c
      let s := { s with cst := c }.setFld F.CST_GROUP_STATUS_OFFSET (wrap 16 (satS 16 off))
      (s.setFld F.CST_GROUP_STATUS_TIME_ALIGNED (b2n (decide (off.natAbs ≤ 50)))).alignedEvent was

/-! ### The tick schedule (R129, R500) -/

/-- The Twilight service is on. -/
def State.twilight (s : State) : Bool := !s.flag F.PWR_SERVICE_STATE

/-- Whether `e` is the scheduled epoch `at_` or later (R129). -/
def atOrAfter (e at_ : Nat) : Bool := decide ((e + 2 ^ 32 - at_ % 2 ^ 32) % 2 ^ 32 < 2 ^ 31)

/-- The PERIOD_US in force after tick `e`. -/
def State.periodAfter (s : State) (e : Nat) : Nat :=
  let x := if s.leads then (s.fld F.CST_TICK_PERIOD_US, s.reg R.CST_TICK_AT)
    else s.cst.lead.getD (s.cst.period, 0)
  if atOrAfter (e % 2 ^ 32) x.2 then x.1 else s.cst.period

/-- SYS cycles between ticks when the period in force is `p` µs. -/
def State.tickSpan (s : State) (p : Nat) : Nat := 100 * (if s.twilight && s.leads then 100000 else p)

/-- The registers of the snapshot regions that are in force from a tick on (R139). -/
def State.snapLatch (s : State) : AMap (Nat × Nat × Nat) :=
  (List.range 8).filterMap (fun n =>
    let c := s.reg (R.CST_SNAP_CFG n)
    if c = 0 then none else some (n, (s.reg (R.CST_SNAP_SRC n), s.reg (R.CST_SNAP_DST n), c)))

/-- The copy of region `n` with registers `r` and source address `src`. -/
def snapJob (n src : Nat) (r : Nat × Nat × Nat) (e : Nat) (pub : Bool) : SnapJob :=
  ⟨n, src, bits r.2.1 6 38 * 64, bits r.2.2 10 11, bits r.2.2 6 4, bit r.2.2 5, bit r.2.2 4, e, pub⟩

/-- The copies that tick `e` starts: modes 1 and 2. -/
def State.snapTick (s : State) (e : Nat) : State :=
  let due (x : Nat × (Nat × Nat × Nat)) : Bool :=
    let m := bits x.2.2.2 2 2
    decide (0 < bits x.2.2.2 10 11) && (decide (m = 1) || (decide (m = 2) && bit (s.fld F.CST_SNAP_ARM_ARM) x.1))
  let l := s.cst.snap.filter due
  let js := l.map (fun x => snapJob x.1 (bits x.2.1 6 38 * 64) x.2 e false)
  let once := (l.map (fun x => if bits x.2.2.2 2 2 = 2 then 2 ^ x.1 else 0)).sum
  { s.clrReg R.CST_SNAP_ARM once with cst := { s.cst with jobs := s.cst.jobs ++ js } }

/-- The copies that the publication of epoch `e` in the result half at `half` starts: mode 3. -/
def State.snapPublish (s : State) (e half : Nat) : State :=
  let l := s.cst.snap.filter (fun x => decide (bits x.2.2.2 2 2 = 3) && decide (0 < bits x.2.2.2 10 11))
  { s with cst := { s.cst with jobs := s.cst.jobs ++ l.map (fun x => snapJob x.1 half x.2 e true) } }

/-- A published digest goes to the vote and to every LIVE peer (R132, R133). -/
def State.votePublish (s : State) (e d : Nat) : State :=
  if s.votes then (s.tokens .digest s.livePeers [s.pos, e, d]).voteDigest s.pos e d else s

/-- SET while ALONE restarts the schedule (R129). -/
def State.cstSet (s : State) : State :=
  { s with cst := { s.cst with sched := s.stc, next := (s.stc + s.tickSpan s.cst.period) % 2 ^ 64 } }

/-! ### Epoch stores and mailboxes (R137, R138) -/

/-- PENDING follows the stores. -/
def State.storeCount (s : State) : State := s.setReg R.CST_BCAST_PENDING s.cst.stores.length

/-- An epoch store is held, if there is a free place. -/
def State.takeStore (s : State) (e : EStore) : Bool × State :=
  if 16 ≤ s.cst.stores.length then (false, s)
  else (true, { s with cst := { s.cst with stores := s.cst.stores ++ [e] } }.storeCount)

/-- A broadcast value arrives at mailbox `m` from position `p`. -/
def State.mailboxPut (s : State) (p m d : Nat) : State :=
  ((s.setReg (R.CST_MAILBOX m) (d % 2 ^ 64)).setFld ⟨R.CST_MAILBOX_SRC, 2 * m, 2⟩ p).fire Src.CST_MAILBOX

/-- GO (R137, R138), issued by `q`. -/
def State.bcastGo (s : State) (q : Req) : State :=
  let peers := s.livePeers
  let s := s.setFld F.CST_BCAST_CMD_GO 1
  if s.flag F.CST_BCAST_CMD_KIND then
    let n := if s.flag F.CST_BCAST_CMD_SIZE8 then 8 else 4
    let a := s.fld F.CST_BCAST_ADDR_ADDR / n * n
    let e := s.reg R.CST_BCAST_EPOCH
    let bs := toBytes n (s.reg R.CST_BCAST_DATA)
    let s := { s with cst := { s.cst with go := s.pos :: peers, goStore := true } }
    let t := s.takeStore ⟨s.pos, e, a, bs, q⟩
    (t.2.tokens .epochStore peers [e, a, q.tag.toNat, b2n q.s] bs).goAnswer s.pos (!t.1)
  else
    let m := s.fld F.CST_BCAST_CMD_MAILBOX
    let d := s.reg R.CST_BCAST_DATA
    let goTo := if s.flag F.CST_BCAST_CMD_GROUP then peers else []
    let s := { s with cst := { s.cst with go := s.pos :: goTo, goStore := false } }
    ((s.mailboxPut s.pos m d).tokens .broadcast goTo [m, d]).goAnswer s.pos false

/-- An epoch store from position `p` arrives; the issuer is answered. -/
def State.storeReceive (s : State) (p : Nat) (e : EStore) : State :=
  let t := if s.isLive p then s.takeStore e else (false, s)
  t.2.emit ⟨.answer, [p, b2n (!t.1)], []⟩

/-- A mailbox broadcast from position `p` arrives; the issuer is answered. -/
def State.mailboxReceive (s : State) (p m d : Nat) : State := (s.mailboxPut p m d).emit ⟨.answer, [p, 0], []⟩

/-! ### CST registers -/

/-- The OWNER and ATTR_S of a snapshot region that `q` may write (R139): kept where an N requester names another. -/
def snapCfgMerged (q : Req) (w : RegW) (old : Nat) : Nat :=
  let v := w.merged old
  if q.s ∨ (bits v 6 4 = ownerOf q ∧ ¬ bit v 5) then v else putBits v 5 5 (bits old 5 5)

/-- A write to CST_RESET_GRANT (R140). -/
def State.resetGrantWrite (s : State) (w : RegW) : State :=
  let old := s.reg w.k
  let w := if bit old 16 then w.without (fieldMask 0 10) else w
  let v := w.merged old
  s.setReg w.k (if bits v 8 2 = 3 then putBits v 8 2 (bits old 8 2) else v)

/-- A write to a CST register. -/
def cstWrite (s : State) (q : Req) (w : RegW) : Acc :=
  if w.k = R.CST_GROUP then okAcc (if s.alone then s.plainWrite w else s)
  else if w.k = R.CST_GROUP_CMD then
    okAcc (if w.one F.CST_GROUP_CMD_LEAVE then s.leave else if w.one F.CST_GROUP_CMD_FORM then s.form else s)
  else if w.k = R.CST_TICK then
    let v := w.newFld (s.reg w.k) F.CST_TICK_PERIOD_US
    okAcc (if v < 5000 ∨ 1000000 < v ∨ s.leads = false then s else s.plainWrite w)
  else if w.k = R.CST_TICK_AT then okAcc (if s.leads then s.plainWrite w else s)
  else if w.row.key = R.CST_BAR_CFG 0 then
    let n := (w.k - R.CST_BAR_CFG 0) / 4
    okAcc (if s.barWaited n ∨ w.newFld (s.reg w.k) (F.CST_BAR_CFG_SCOPE n) = 3 then s else s.plainWrite w)
  else if w.k = R.CST_BCAST_CMD then
    let busy := s.flag F.CST_BCAST_CMD_GO
    let s := s.plainWrite w
    okAcc (if w.one F.CST_BCAST_CMD_GO && !busy then s.bcastGo q else s)
  else if w.row.key = R.CST_SNAP_CFG 0 then okAcc (s.setReg w.k (snapCfgMerged q w (s.reg w.k)))
  else if w.k = R.CST_RESET_GRANT then
    if q.s then okAcc (s.resetGrantWrite w) else refAcc s q true (.sys 0x1B) 0
  else if w.k = R.CST_RESET_CMD then
    let s := s.plainWrite w
    let t := s.fld F.CST_RESET_CMD_TARGET
    okAcc (if w.one F.CST_RESET_CMD_GO && s.isLive t && t != s.pos then s.emit ⟨.resetRequest, [t], []⟩ else s)
  else okAcc (s.plainWrite w)

/-- What a read of a CST register returns: TIME_ALIGNED and ARMED are formed when read. -/
def cstRead (s : State) (k : Nat) : Nat :=
  if k = R.CST_GROUP_STATUS then putBits (s.reg k) 9 1 (b2n s.aligned)
  else if R.CST_SNAP_CFG 0 ≤ k ∧ k < R.CST_SNAP_ARM ∧ (k - R.CST_SNAP_CFG 0) % 0x20 = 0 then
    let n := (k - R.CST_SNAP_CFG 0) / 0x20
    putBits (s.reg k) 1 1 (b2n (decide (s.fld (F.CST_SNAP_CFG_MODE n) = 2) && bit (s.fld F.CST_SNAP_ARM_ARM) n))
  else s.reg k

end Sys2Proof.Machine
end

