-- ==== Sys2Proof/Machine/Heads.lean ====
section
/-! DEFINITION. Display heads (chapter 5): timing and the beam, shadow transfers, enable and stop, line fetch with dither
(R219) and Starfix (R221 to R225), the DisplayPort transmitter, AUX and hot plug. -/

namespace Sys2Proof.Machine

/-! ### Timing (R141, R142) -/

/-- H_TOTAL of the active set. -/
def HeadSt.hTotal (x : HeadSt) (n : Nat) : Nat :=
  x.afld (F.HEAD_HTIM_A_H_ACTIVE n) + x.afld (F.HEAD_HTIM_A_H_FP n) + x.afld (F.HEAD_HTIM_B_H_SYNC n) + x.afld (F.HEAD_HTIM_B_H_BP n)

/-- The blanking lines of the active set. -/
def HeadSt.vBlank (x : HeadSt) (n : Nat) : Nat :=
  x.afld (F.HEAD_VTIM_A_V_FP n) + x.afld (F.HEAD_VTIM_B_V_SYNC n) + x.afld (F.HEAD_VTIM_B_V_BP n)

/-- V_TOTAL of the active set. -/
def HeadSt.vTotal (x : HeadSt) (n : Nat) : Nat := x.afld (F.HEAD_VTIM_A_V_ACTIVE n) + x.vBlank n

/-- The PIX_n frequency in kHz (R493). -/
def State.pixKhz (s : State) (n : Nat) : Nat :=
  if s.flag (F.CLK_PIX_LOCKED n) then max 1 (s.fld (F.CLK_PIX_FREQ_KHZ n)) else 100000

/-- The GUST cycle at which the beam of head `n` has moved `p` pixels since the last start of vertical blanking. -/
def State.pixTime (s : State) (n p : Nat) : Nat := (s.head n).t0 + ceilDiv (p * 500000) (s.pixKhz n)

/-- The length of a PIX_n cycle, in GUST cycles rounded up. -/
def State.pixCycle (s : State) (n : Nat) : Nat := ceilDiv 500000 (s.pixKhz n)

/-- The GUST cycle at which scan-out line `y` of the present frame starts. -/
def State.lineTime (s : State) (n y : Nat) : Nat := s.pixTime n (((s.head n).vBlank n + y) * (s.head n).hTotal n)

/-- A position is before another in raster order (R187). -/
def before (p q : Nat × Nat) : Bool := decide (p.1 < q.1) || (decide (p.1 = q.1) && decide (p.2 < q.2))

/-- The scan-out beam of head `n`. It stands before an event of the frame until that event is commanded. -/
def State.beam (s : State) (n : Nat) : Nat × Nat :=
  let x := s.head n
  let ht := max 1 (x.hTotal n)
  let e := (s.now - x.t0) * s.pixKhz n / 500000
  let blank := x.vBlank n * ht
  let p := if s.flag (F.HEAD_STATUS_IN_VBLANK n) then x.afld (F.HEAD_VTIM_A_V_ACTIVE n) * ht + min e (blank - 1)
    else min (e - blank) (x.afld (F.HEAD_VTIM_A_V_ACTIVE n) * ht - 1)
  (p / ht, p % ht)

/-! ### Shadow transfers (R145 to R148) -/

/-- The register at key `k` of head `n` is shadowed. -/
def shadowKey (n k : Nat) : Bool :=
  let o := k - R.HEAD_CTRL n
  decide (R.HEAD_CTRL n ≤ k) && ((decide (0x40 ≤ o) && decide (o < 0x1000)) || (decide (0x3000 ≤ o) && decide (o < 0x3100)))

/-- The shadow set of head `n`. -/
def State.shadow (s : State) (n : Nat) : AMap Word := s.regs.filter (fun (e : Nat × Word) => shadowKey n e.1)

/-- BPC of a set in bits, none for the reserved code. -/
def HeadSt.bpc (x : HeadSt) (n : Nat) : Option Nat :=
  match x.afld (F.HEAD_OUT_BPC n) with
  | 0 => some 6
  | 1 => some 8
  | 2 => some 10
  | _ => none

/-- Horizontal timing is valid (R142). -/
def HeadSt.hOk (x : HeadSt) (n : Nat) : Bool :=
  let a := x.afld (F.HEAD_HTIM_A_H_ACTIVE n)
  let fp := x.afld (F.HEAD_HTIM_A_H_FP n)
  let sy := x.afld (F.HEAD_HTIM_B_H_SYNC n)
  let bp := x.afld (F.HEAD_HTIM_B_H_BP n)
  let ok (v : Nat) : Bool := decide (8 ≤ v) && decide (v ≤ 1023)
  decide (64 ≤ a) && decide (a ≤ 3840) && decide (a % 8 = 0) && ok fp && ok sy && ok bp && decide (80 ≤ fp + sy + bp) &&
    decide (x.hTotal n ≤ 8192)

/-- Vertical timing is valid (R142). -/
def HeadSt.vOk (x : HeadSt) (n : Nat) : Bool :=
  let a := x.afld (F.HEAD_VTIM_A_V_ACTIVE n)
  let fp := x.afld (F.HEAD_VTIM_A_V_FP n)
  let sy := x.afld (F.HEAD_VTIM_B_V_SYNC n)
  let bp := x.afld (F.HEAD_VTIM_B_V_BP n)
  let ok (v : Nat) : Bool := decide (1 ≤ v) && decide (v ≤ 1023)
  decide (64 ≤ a) && decide (a ≤ 2160) && ok fp && ok sy && ok bp && decide (8 ≤ x.vBlank n) &&
    decide (x.vTotal n ≤ 4096) && Nat.ble (x.afld (F.HEAD_HTIM_A_H_ACTIVE n) * a) 8294400

/-- Bytes of a frame store pixel (R151). -/
def HeadSt.pxBytes (x : HeadSt) (n : Nat) : Nat := 3 + x.afld (F.HEAD_FS_FORMAT n)

/-- The frame store is valid (R152). -/
def State.storeOk (s : State) (x : HeadSt) (n : Nat) : Bool :=
  let stride := x.afld (F.HEAD_FS_STRIDE n)
  let banks := ceilDiv (stride * x.afld (F.HEAD_VTIM_A_V_ACTIVE n)) bankSize
  let b := x.afld (F.HEAD_FS_FIRST_BANK n)
  decide (stride % 64 = 0) && decide (x.pxBytes n * x.afld (F.HEAD_HTIM_A_H_ACTIVE n) ≤ stride) &&
    decide (b + banks ≤ 288) && (List.range banks).all (fun i => decide (bits (s.ownInForce (b + i)) 0 4 = 9))

/-- The link carries the stream (R157). -/
def State.linkFits (s : State) (x : HeadSt) (n : Nat) : Bool :=
  let lanes := match s.fld (F.HEAD_DP_CFG_LANES n) with
    | 0 => 1
    | 1 => 2
    | 2 => 4
    | _ => 0
  let rate := match s.fld (F.HEAD_DP_CFG_RATE n) with
    | 0 => 162
    | 1 => 270
    | 2 => 540
    | _ => 810
  Nat.ble (s.pixKhz n * 3 * (x.bpc n).getD 0 * 1000) (lanes * rate * 8000 * (if s.flag (F.HEAD_DP_CFG_SSC n) then 995 else 1000))

/-- The link of head `n` is trained. -/
def State.trained (s : State) (n : Nat) : Bool := decide (s.fld (F.HEAD_DP_STATUS_TRAIN_STATE n) = 3)

/-- The code of the first check that set `x` fails (R148), the bandwidth being checked when `bw`. -/
def State.commitErr (s : State) (x : HeadSt) (n : Nat) (bw : Bool) : Nat :=
  if ¬ x.hOk n then 1
  else if ¬ x.vOk n then 2
  else if ¬ s.storeOk x n then 3
  else if x.bpc n = none ∨ (x.afld (F.HEAD_FS_FORMAT n) = 0 ∧ x.bpc n = some 10) then 4
  else if bw && !s.linkFits x n then 5
  else if n = 0 ∧ (s.twilight = true) ∧ (1280 < x.afld (F.HEAD_HTIM_A_H_ACTIVE n) ∨ 800 < x.afld (F.HEAD_VTIM_A_V_ACTIVE n)) then 6
  else 0

/-- MODE of region `r`: 3 acts as 0 (R223). -/
def HeadSt.sfMode (x : HeadSt) (n r : Nat) : Nat := x.afld (F.HEAD_SF_CFG_MODE n r) % 3

/-- Region `r` has a window that can be checked (R221). -/
def HeadSt.sfWin (x : HeadSt) (n r : Nat) : Bool :=
  let x0 := x.afld (F.HEAD_SF_WIN_X_X_START n r)
  let x1 := x.afld (F.HEAD_SF_WIN_X_X_END n r)
  let y0 := x.afld (F.HEAD_SF_WIN_Y_X_START n r)
  let y1 := x.afld (F.HEAD_SF_WIN_Y_X_END n r)
  decide (x0 < x1) && decide (x1 ≤ x.afld (F.HEAD_HTIM_A_H_ACTIVE n)) && decide (y0 < y1) &&
    decide (y1 ≤ x.afld (F.HEAD_VTIM_A_V_ACTIVE n))

/-- Region `r` is checked. -/
def HeadSt.sfOn (x : HeadSt) (n r : Nat) : Bool := decide (x.sfMode n r ≠ 0) && x.sfWin n r

/-- The entries of a register map whose head offset satisfies `p`. -/
def partOf (n : Nat) (p : Nat → Bool) (m : AMap Word) : AMap Word := m.filter (fun (e : Nat × Word) => p (e.1 - R.HEAD_CTRL n))

/-- The offsets whose change invalidates every flatten tile (R213). -/
def flatKey (o : Nat) : Bool :=
  (decide (0x100 ≤ o) && decide (o < 0x180) && decide (o % 0x20 ≠ 0xC)) || (decide (0x400 ≤ o) && decide (o < 0x480)) ||
    (decide (0xC00 ≤ o) && decide (o < 0x1000))

/-- The shadow set becomes the active set. -/
def HeadSt.take (x : HeadSt) (n : Nat) (new : AMap Word) : HeadSt :=
  let y := { x with act := new }
  let size (z : HeadSt) : Nat × Nat := (z.afld (F.HEAD_HTIM_A_H_ACTIVE n), z.afld (F.HEAD_VTIM_A_V_ACTIVE n))
  let flat : Bool := size x == size y && partOf n flatKey x.act == partOf n flatKey new
  let same (r : Nat) : Bool :=
    let p (o : Nat) : Bool := decide (0x3000 + 16 * r ≤ o) && decide (o < 0x3010 + 16 * r)
    partOf n p x.act == partOf n p new
  let y := { y with tiles := if flat then y.tiles else [] }
  { y with prev := y.prev.filter (fun (e : Nat × Option Nat) => same e.1), still := y.still.filter (fun (e : Nat × Nat) => same e.1) }

/-- A shadow transfer of head `n` (R146, R148), or the check at enable. Whether the set was taken. -/
def State.transfer (s : State) (n : Nat) (bw : Bool) : Bool × State :=
  let x := s.head n
  let new := s.shadow n
  let e := s.commitErr { x with act := new } n bw
  let s := ((s.setFld (F.HEAD_CTRL_COMMIT n) 0).setFld (F.HEAD_STATUS_COMMIT_ERR n) e).fire (Src.HEAD n 1)
  if e ≠ 0 then (false, s)
  else
    let y := x.take n new
    let err := ((List.range 16).map (fun r => if y.sfMode n r ≠ 0 ∧ ¬ y.sfWin n r then 2 ^ r else 0)).sum
    (true, (s.setHead n y).setReg (R.HEAD_SF_CFG_ERR n) err)

/-! ### Write-back at a frame boundary (R215, R216) -/

/-- A write-back descriptor is bad: its address, pitch or reach. -/
def HeadSt.wbBad (x : HeadSt) (n : Nat) (c : Capture) : Bool :=
  let v := x.afld (F.HEAD_VTIM_A_V_ACTIVE n)
  let w := (3 + c.fmt) * x.afld (F.HEAD_HTIM_A_H_ACTIVE n)
  let len := (v - 1) * c.pitch + w
  decide (c.addr % 64 ≠ 0) || decide (c.pitch % 64 ≠ 0) || decide (c.pitch < w) ||
    !(match regionOf c.addr len with
      | some (.pool _) => true
      | some (.cxl _) => true
      | _ => false)

/-- Frame `f` of head `n` qualifies for write-back; if so, whether a descriptor is there for it. -/
def State.wbQualifies (s : State) (n f : Nat) : Option Bool :=
  let r := Ring.wb n
  if s.domOn 118 && s.flag r.enable && decide (f % max 1 (s.fld (F.CMP_WB_CFG_DIVIDER n)) = 0) then
    some ((s.head n).cap.isNone && s.ringReady r)
  else none

/-- The descriptor for a qualifying frame is taken. -/
def State.wbStart (s : State) (n : Nat) : State :=
  let x := s.head n
  let r := Ring.wb n
  if ¬ s.scanning n ∨ ¬ s.domOn 118 then s
  else
    match x.wbNew with
    | none => s
    | some ready =>
      let s := s.setHead n { x with wbNew := none }
      if ¬ ready then s.bump (R.CMP_WB_SKIP n)
      else if ¬ s.ringReady r then s
      else
        let d := s.memRead (s.ringReq r) (s.slotAddr r (s.fld r.cons)) 32
        let s := d.s
        let c : Capture := { addr := leAt d.data 0 8, pitch := leAt d.data 8 4, fmt := leAt d.data 12 4 % 2,
                             tag := leAt d.data 16 4, frame := x.cFrame }
        if d.st ≠ .ok ∨ (x.wbBad n c = true) then s.complete r 3 c.tag x.cFrame 0
        else (s.setFld r.busy 1).setHead n { s.head n with cap := some c }

/-! ### Late lines as the fetch sees them (R201, R203) -/

/-- Lines of head `n` up to `y` that are not committed are late. -/
def State.linesLate (s : State) (n y : Nat) : State :=
  let first := max (s.head n).cLine (s.head n).lateTo
  if ¬ (s.head n).comp ∨ y < first ∨ (s.domOn 118 = false) then s
  else
    let s := s.wbStart n
    let x := s.head n
    let ys := (List.range (y + 1 - first)).map (first + ·)
    let s := s.bumpFld (cnt32 (R.CMP_LATE_LINES n)) ys.length
    let s := s.setFld (F.CMP_HEAD_STATUS_LATE n) 1
    let s := s.fireIf x.late.isEmpty (Src.HEAD n 7)
    let cap := x.cap.map (fun c => if c.frame = x.cFrame then { c with late := c.late + ys.length } else c)
    s.setHead n { x with late := x.late ++ ys, lateTo := y + 1, buf := [], cap := cap }

/-! ### Dither (R219, R220) -/

def ditherRows : List (List Nat) := [[0, 8, 2, 10], [12, 4, 14, 6], [3, 11, 1, 9], [15, 7, 13, 5]]

/-- The threshold at (`x`, `y`) of frame `f`. -/
def ditherAt (f x y : Nat) : Nat :=
  let rc := match f % 4 with
    | 0 => (y % 4, x % 4)
    | 1 => (3 - x % 4, y % 4)
    | 2 => (3 - y % 4, 3 - x % 4)
    | _ => (x % 4, 3 - y % 4)
  (ditherRows.getD rc.1 []).getD rc.2 0

/-- A component of `d` bits reduced to `b` bits with threshold `t`. -/
def ditherTo (d b t c : Nat) : Nat := if d ≤ b then c else min ((c * 2 ^ (4 - (d - b)) + t) / 16) (2 ^ b - 1)

/-- The word of an output pixel as Starfix enters it (R222). -/
def pxWord (p : Px) : Nat := p.r * 2 ^ 20 + p.g * 2 ^ 10 + p.b

/-- A stored pixel of `d` bits after the dither, with the fixed threshold where `fixed` (R220). -/
def HeadSt.dither (x : HeadSt) (n f px y : Nat) (fixed : Bool) (p : Px) : Px :=
  let d := 8 + 2 * x.afld (F.HEAD_FS_FORMAT n)
  let b := (x.bpc n).getD 8
  let t := if fixed then 8 else ditherAt f px y
  ⟨ditherTo d b t p.r, ditherTo d b t p.g, ditherTo d b t p.b⟩

/-- A pixel lies in region `r`. -/
def HeadSt.inRegion (x : HeadSt) (n r px y : Nat) : Bool :=
  decide (x.sfMode n r ≠ 0) && decide (x.afld (F.HEAD_SF_WIN_X_X_START n r) ≤ px) && decide (px < x.afld (F.HEAD_SF_WIN_X_X_END n r)) &&
    decide (x.afld (F.HEAD_SF_WIN_Y_X_START n r) ≤ y) && decide (y < x.afld (F.HEAD_SF_WIN_Y_X_END n r))

/-- A pixel of line `y` lies in an alarm cell of `mask` while the alarm plane is on. -/
def HeadSt.inAlarm (x : HeadSt) (n mask px : Nat) : Bool := decide (x.afld (F.HEAD_AL_CFG_ENABLE n) = 1) && bit mask (px / 16)

/-- The threshold at a pixel is fixed (R220). -/
def HeadSt.fixedT (x : HeadSt) (n mask px y : Nat) : Bool :=
  x.inAlarm n mask px || (List.range 16).any (fun r => x.inRegion n r px y)

/-- A word entered into a running CRC-32 as four bytes. -/
def crcWord (c w : Nat) : Nat := (toBytes 4 w).foldl crc32Byte c

abbrev crcStart : Nat := 0xFFFFFFFF

/-! ### Line fetch (R151 to R154) -/

/-- The bytes that the fetch of the pool word at `a` yields, each with its kind: 0 read, 1 refused, 2 failed (R154, R300).
-/
def State.fetchPiece (s : State) (a : Nat) : List (Byte × Nat) × State :=
  let r := s.memRead (s.engine 9 true) a 8
  match r.st with
  | .ok => (r.data.map (fun b => (b, 0)), r.s)
  | .refused => (List.replicate 8 (0, 1), r.s)
  | .error => (List.replicate 8 (0, 2), r.s)

/-- `k` words of 8 bytes from `a` on. -/
def State.fetchBytes (s : State) (a : Nat) : Nat → List (Byte × Nat) × State
  | 0 => ([], s)
  | k + 1 =>
    let r := s.fetchBytes a k
    let p := r.2.fetchPiece (a + 8 * k)
    (r.1 ++ p.1, p.2)

/-- The stored pixel that its bytes give: FAULT_COLOUR where a piece failed, 0 where one was refused. -/
def HeadSt.pixelOf (x : HeadSt) (n : Nat) (bs : List (Byte × Nat)) : Px :=
  let kind := bs.foldl (fun (k : Nat) (e : Byte × Nat) => max k e.2) 0
  let v := ofBytes (bs.map (fun (e : Byte × Nat) => e.1))
  let f1 : Bool := x.afld (F.HEAD_FS_FORMAT n) == 1
  if kind = 2 then
    let c := x.afld (F.HEAD_FAULT_COLOUR_COLOUR n)
    let sh := if f1 then 1 else 4
    ⟨bits c 20 10 / sh, bits c 10 10 / sh, bits c 0 10 / sh⟩
  else if kind = 1 then ⟨0, 0, 0⟩
  else if f1 then ⟨bits v 20 10, bits v 10 10, bits v 0 10⟩
  else ⟨bits v 0 8, bits v 8 8, bits v 16 8⟩

/-- The running CRCs after the output pixels `ps` of line `y`. -/
def HeadSt.scanCrcs (x : HeadSt) (n y mask : Nat) (ps : List (Nat × Px)) : HeadSt :=
  let rs := (List.range 16).filter (fun r => x.sfOn n r && decide (x.afld (F.HEAD_SF_WIN_Y_X_START n r) ≤ y) &&
    decide (y < x.afld (F.HEAD_SF_WIN_Y_X_END n r)))
  let crc := rs.foldl (fun (m : AMap Nat) r =>
    let c0 := if x.afld (F.HEAD_SF_WIN_Y_X_START n r) = y then crcStart else AMap.get m r crcStart
    AMap.set m r (ps.foldl (fun (c : Nat) (e : Nat × Px) => if x.inRegion n r e.1 y then crcWord c (pxWord e.2) else c) c0) crcStart) x.crc
  let al := ps.foldl (fun (c : Nat) (e : Nat × Px) => if x.inAlarm n mask e.1 then crcWord c (pxWord e.2) else c) x.alCrc
  { x with crc := crc, alCrc := al }

/-- The link of head `n` carries video (R155, R161). -/
def State.videoOn (s : State) (n : Nat) : Bool :=
  s.trained n && s.flag (F.HEAD_DP_CFG_LINK_ON n) && !s.flag (F.HEAD_DP_CMD_TRAIN n)

/-- What the transmitter sends of the active set in a vertical blanking (R156, R143): the stream attributes, Nvid 32,768 and
the measured Mvid, a free value; and VB-ID with its vertical blanking flag at the blanking start of each of its lines. -/
def State.sendAttrs (s : State) (n : Nat) : State :=
  if ¬ s.videoOn n then s
  else
    let x := s.head n
    let f (g : Fld) : Nat := x.afld g
    let h := f (F.HEAD_HTIM_B_H_SYNC n)
    let v := f (F.HEAD_VTIM_B_V_SYNC n)
    let size := [x.hTotal n, x.vTotal n, h + f (F.HEAD_HTIM_B_H_BP n), v + f (F.HEAD_VTIM_B_V_BP n), h, v,
      f (F.HEAD_OUT_H_POL n), f (F.HEAD_OUT_V_POL n), f (F.HEAD_HTIM_A_H_ACTIVE n), f (F.HEAD_VTIM_A_V_ACTIVE n)]
    ((s.skipFree.emit ⟨.msa, [n] ++ size ++ [(x.bpc n).getD 0, 32768, s.freeVal % 2 ^ 24], []⟩).emit
      ⟨.vbId, [n, 1, x.vBlank n], []⟩)

/-- The next line of head `n` is fetched and scanned (R153, R155). -/
def State.lineFetch (s : State) (n : Nat) : State :=
  let x := s.head n
  let y := x.fetch
  if ¬ s.scanning n ∨ x.afld (F.HEAD_VTIM_A_V_ACTIVE n) ≤ y then s
  else
    let s := s.until (s.pixTime n ((x.vBlank n + y - 1) * x.hTotal n))
    let s := s.linesLate n y
    let w := x.afld (F.HEAD_HTIM_A_H_ACTIVE n)
    let k := x.pxBytes n
    let a := poolBase + x.afld (F.HEAD_FS_FIRST_BANK n) * bankSize + y * x.afld (F.HEAD_FS_STRIDE n)
    let r := s.fetchBytes a (ceilDiv (w * k) 8)
    let s := r.2
    let x := s.head n
    let mask := AMap.get x.masks y 0
    let ps := (List.range w).map (fun i => (i, x.dither n x.frame i y (x.fixedT n mask i y) (x.pixelOf n ((r.1.drop (i * k)).take k))))
    let s := s.setHead n { x.scanCrcs n y mask ps with fetch := y + 1 }
    if s.videoOn n then
      (s.emit ⟨.scanLine, [n, x.frame, y] ++ ps.map (fun (e : Nat × Px) => pxWord e.2), []⟩).emit
        ⟨.vbId, [n, b2n (decide (y + 1 = x.afld (F.HEAD_VTIM_A_V_ACTIVE n))), 1], []⟩
    else s

/-! ### Starfix checks (R223 to R225) -/

/-- A failure is counted and signalled. -/
def State.sfFail (s : State) (n : Nat) : State := (s.bump (R.HEAD_SF_EVENT_COUNT n)).fire (Src.HEAD n 8)

/-- Region `r` had a late line in the frame. -/
def HeadSt.sfLate (x : HeadSt) (n r : Nat) : Bool :=
  x.late.any (fun y => decide (x.afld (F.HEAD_SF_WIN_Y_X_START n r) ≤ y) && decide (y < x.afld (F.HEAD_SF_WIN_Y_X_END n r)))

/-- A live region's value `v` is compared with the one of the previous frame. -/
def State.sfLive (s : State) (n r v : Nat) : State :=
  let x := s.head n
  if AMap.get x.prev r none = some v then
    let c := AMap.get x.still r 0 + 1
    let s := s.setHead n { x with still := AMap.set x.still r c 0 }
    if max 1 (x.afld (F.HEAD_SF_CFG_STILL_N n r)) ≤ c then (s.orReg (R.HEAD_SF_STATUS n) (2 ^ (16 + r))).sfFail n else s
  else s.setHead n { x with still := AMap.erase x.still r, prev := AMap.set x.prev r (some v) none }

/-- The learned value of region `r` enters both copies of EXPECT. -/
def State.sfLearn (s : State) (n r v : Nat) : State :=
  let k := R.HEAD_SF_EXPECT n r
  let s := (s.setReg k v).clrReg (R.HEAD_SF_LEARN n) (2 ^ r)
  let x := s.head n
  s.setHead n { x with act := AMap.set x.act k (BitVec.ofNat 64 v) (BitVec.ofNat 64 (regReset k)),
                       prev := AMap.set x.prev r (some v) none, learn := AMap.erase x.learn r }

/-- Region `r` learns in the present frame: LEARN was armed when its first pixel was scanned, and no line of it was late
(R224). -/
def State.sfLearns (s : State) (n r : Nat) : Bool :=
  let x := s.head n
  bit (s.fld (F.HEAD_SF_LEARN_LEARN n)) r && !x.sfLate n r &&
    decide (AMap.get x.learn r 0 ≤ s.pixTime n ((x.vBlank n + x.afld (F.HEAD_SF_WIN_Y_X_START n r)) * x.hTotal n +
      x.afld (F.HEAD_SF_WIN_X_X_START n r)))

/-- LEARN bits set by a write, with the time at which each was armed. -/
def State.learnWrite (s : State) (n : Nat) (w : RegW) : State :=
  let old := s.fld (F.HEAD_SF_LEARN_LEARN n)
  let s := s.plainWrite w
  let x := s.head n
  let new := (List.range 16).filter (fun r => bit (s.fld (F.HEAD_SF_LEARN_LEARN n)) r && !bit old r)
  s.setHead n { x with learn := new.foldl (fun m r => AMap.set m r s.now 0) x.learn }

/-- The check of region `r` after its last pixel. -/
def State.regionCheck (s : State) (n r : Nat) : State :=
  let x := s.head n
  if ¬ s.scanning n ∨ ¬ x.sfOn n r ∨ (x.checked.contains r = true) ∨ x.fetch < x.afld (F.HEAD_SF_WIN_Y_X_END n r) then s
  else
    let y1 := x.afld (F.HEAD_SF_WIN_Y_X_END n r)
    let s := s.until (s.pixTime n ((x.vBlank n + y1 - 1) * x.hTotal n + x.afld (F.HEAD_SF_WIN_X_X_END n r)))
    let v := Nat.xor (AMap.get x.crc r crcStart) 0xFFFFFFFF
    let s := (s.setHead n { x with checked := r :: x.checked }).setReg (R.HEAD_SF_CRC n r) v
    if s.sfLearns n r then s.sfLearn n r v
    else if x.sfMode n r = 1 then
      if v = x.areg (R.HEAD_SF_EXPECT n r) then s else (s.orReg (R.HEAD_SF_STATUS n) (2 ^ r)).sfFail n
    else s.sfLive n r v

/-- The alarm check after the last active pixel of the frame. With HEAD_AL_CFG.ENABLE 0 no pixel lies in an alarm cell, and
the check is made all the same: nothing disables it. -/
def State.alarmCheck (s : State) (n : Nat) : State :=
  let x := s.head n
  let v := x.afld (F.HEAD_VTIM_A_V_ACTIVE n)
  if ¬ s.scanning n ∨ (x.alDone = true) ∨ x.fetch < v then s
  else
    let s := s.until (s.pixTime n ((x.vBlank n + v - 1) * x.hTotal n + x.afld (F.HEAD_HTIM_A_H_ACTIVE n)))
    let a := Nat.xor x.alCrc 0xFFFFFFFF
    let b := Nat.xor x.alExp 0xFFFFFFFF
    let s := (s.setHead n { x with alDone := true }).setAll [(R.HEAD_SF_AL_CRC n, a), (R.HEAD_SF_AL_EXP n, b)]
    if x.late.isEmpty then
      let s := s.setFld (F.HEAD_SF_AL_STATUS_AL_CHECKED n) 1
      if a = b then s else (s.setFld (F.HEAD_SF_AL_STATUS_AL_MISMATCH n) 1).sfFail n
    else (s.setFld (F.HEAD_SF_AL_STATUS_AL_CHECKED n) 0).setFld (F.HEAD_SF_AL_STATUS_AL_STALE n) 1

/-! ### Frames (R141, R144, R146, R149, R150) -/

/-- The frame boundary before frame `f` of head `n` (R187): LEAD is sampled, and whether the frame is written back; Meridian
is to look. The first frame after the composer begins to serve the head is composed live (R211). -/
def State.frameBoundary (s : State) (n f : Nat) : State :=
  let x := s.head n
  let x := { x with t0 := s.now, fetch := 0, frame := f, checked := [], crc := [], alCrc := crcStart }
  let x := { x with alDone := false, live := !x.comp, comp := true, cFrame := f, cLine := 0, cPix := 0, buf := [], mask := 0, ls := [] }
  let x := { x with spr := none, lineSpr := [], lateTo := 0, late := [], alExp := crcStart, merNew := true, wbNew := s.wbQualifies n f }
  s.setHead n { x with lead := min (s.fld (F.CMP_HEAD_CFG_LEAD n)) (x.vTotal n - 2), target := none, sync := none, pulse := false }

/-- Scan-out stops under a head's capture: it ends there unless every line of its frame has been composed or was late
(R218). -/
def HeadSt.capStop (x : HeadSt) (n : Nat) : Option Capture :=
  x.cap.map (fun c =>
    let all : Bool := c.frame != x.cFrame || decide (x.afld (F.HEAD_VTIM_A_V_ACTIVE n) ≤ max x.cLine x.lateTo)
    if c.ended then c else { c with ended := true, stopped := !all })

/-- Scan-out of head `n` stops; the slots of its flatten tiles are freed (R150, R211). -/
def State.scanEnd (s : State) (n : Nat) : State :=
  let x := s.head n
  let s := (s.setFld (F.HEAD_STATUS_SCANNING n) 0).setFld (F.HEAD_STATUS_IN_VBLANK n) 1
  let s := s.setReg (R.HEAD_BEAM n) (x.afld (F.HEAD_VTIM_A_V_ACTIVE n) * 65536)
  let s := s.setHead n { x with comp := false, tiles := [], buf := [], stopping := false, merW := [], wbNew := none,
                                cap := x.capStop n }
  let s := s.setFld (F.HEAD_MER_STATUS_STATE n) 0
  let s := if s.flag (F.HEAD_CTRL_COMMIT n) then (s.transfer n (s.trained n)).2 else s
  if s.trained n then s.emit ⟨.laneIdle, [n, 1], []⟩ else s

/-- Every line of the frame that is left is fetched and every check made. -/
def State.finishFrame (s : State) (n : Nat) : State :=
  let x := s.head n
  let s := (List.range (x.afld (F.HEAD_VTIM_A_V_ACTIVE n) - x.fetch)).foldl (fun s _ => s.lineFetch n) s
  ((List.range 16).foldl (fun s r => s.regionCheck n r) s).alarmCheck n

/-- The beam reaches the start of vertical blanking (R141, R146, R150). -/
def State.vblankStart (s : State) (n : Nat) : State :=
  if ¬ s.scanning n ∨ (s.flag (F.HEAD_STATUS_IN_VBLANK n) = true) then s
  else
    let s := s.finishFrame n
    let x := s.head n
    let s := s.until (s.pixTime n (x.vTotal n * x.hTotal n))
    let s := (s.setFld (F.HEAD_STATUS_IN_VBLANK n) 1).fire (Src.HEAD n 0)
    if x.stopping then s.scanEnd n
    else
      let due : Bool := s.flag (F.HEAD_CTRL_COMMIT n) && decide (x.commitAt + s.pixCycle n ≤ s.now)
      let s := if due then (s.transfer n (s.trained n)).2 else s
      (s.frameBoundary n ((s.reg (R.HEAD_FRAME n) + 1) % 2 ^ 32)).sendAttrs n

/-- Scan-out stops at the start of vertical blanking that comes next. -/
def State.scanStop (s : State) (n : Nat) : State := if (s.head n).stopping then s.vblankStart n else s

/-- The beam reaches (0, 0) (R144). -/
def State.frameStart (s : State) (n : Nat) : State :=
  if ¬ s.scanning n ∨ (s.flag (F.HEAD_STATUS_IN_VBLANK n) = false) then s
  else
    let s := if (s.head n).fetch = 0 then s.lineFetch n else s
    let s := s.until (s.lineTime n 0)
    (s.setFld (F.HEAD_STATUS_IN_VBLANK n) 0).setReg (R.HEAD_FRAME n) (s.head n).frame

/-- ENABLE set while scan-out does not run (R149). -/
def State.headEnable (s : State) (n : Nat) : State :=
  let t := s.transfer n true
  if ¬ t.1 then t.2.setFld (F.HEAD_CTRL_ENABLE n) 0
  else
    let s := ((t.2.setFld (F.HEAD_STATUS_SCANNING n) 1).setFld (F.HEAD_STATUS_IN_VBLANK n) 1).setReg (R.HEAD_FRAME n) 0
    let s := s.setHead n { s.head n with tiles := [], prev := [], still := [] }
    ((s.fire (Src.HEAD n 0)).frameBoundary n 0).sendAttrs n

/-- COMMIT set by a write: the time counts from the first such write (R146). -/
def State.commitArm (s : State) (n : Nat) : State :=
  if s.flag (F.HEAD_CTRL_COMMIT n) then s
  else (s.setFld (F.HEAD_CTRL_COMMIT n) 1).setHead n { s.head n with commitAt := s.now }

/-- A write to HEAD_CTRL. While scan-out runs, a 0 in ENABLE stops it at the next start of vertical blanking, or at once
within it, and a later 1 does not call the stop off (R150). -/
def State.headCtrlWrite (s : State) (n : Nat) (w : RegW) : State :=
  let was := s.flag (F.HEAD_CTRL_ENABLE n)
  let s := s.plainWrite w
  let s := if w.one (F.HEAD_CTRL_COMMIT n) then s.commitArm n else s
  if s.flag (F.HEAD_STATUS_SCANNING n) then
    if w.nil (F.HEAD_CTRL_ENABLE n) then
      if s.flag (F.HEAD_STATUS_IN_VBLANK n) then s.scanEnd n else s.setHead n { s.head n with stopping := true }
    else if w.one (F.HEAD_CTRL_ENABLE n) && !was then s.setReg (R.HEAD_FRAME n) 0
    else s
  else if w.one (F.HEAD_CTRL_ENABLE n) then s.headEnable n
  else if s.flag (F.HEAD_CTRL_COMMIT n) then (s.transfer n (s.trained n)).2
  else s

/-! ### DisplayPort and AUX (R158 to R161) -/

/-- An AUX write of the training engine to the sink's DPCD registers from `a` on (R158). -/
def State.dpcdWrite (s : State) (n a : Nat) (bs : List Nat) : State :=
  s.emit ⟨.aux, [n, 8, a, bs.length], bs.map (BitVec.ofNat 8)⟩

/-- The lanes that LANES names: 3 is reserved. -/
def State.dpLanes (s : State) (n : Nat) : Nat := 2 ^ s.fld (F.HEAD_DP_CFG_LANES n)

/-- The training pattern as DPCD 0x102 takes it: TPS1 for clock recovery; for equalisation the highest that TPS_MAX allows
(log entry 48). -/
def State.trainPattern (s : State) (n : Nat) (t : Training) : Nat :=
  if ¬ t.eq then 0x21
  else
    match s.fld (F.HEAD_DP_CFG_TPS_MAX n) with
    | 2 => 0x23
    | 3 => 0x07
    | _ => 0x22

/-- A lane's drive levels as DPCD 0x103 to 0x106 take them. -/
def driveByte (d : Nat × Nat) : Nat := d.1 + (if d.1 = 3 then 4 else 0) + d.2 * 8 + (if d.2 = 3 then 32 else 0)

/-- One attempt: the pattern and drive levels on the lanes and in the sink's registers, and the read of its lane status and
adjust requests. -/
def State.trainTry (s : State) (n : Nat) (t : Training) : State :=
  let ds := t.drive.take (s.dpLanes n)
  let s := s.emit ⟨.linkTrain, [n, s.trainPattern n t] ++ ds.flatMap (fun d => [d.1, d.2]), []⟩
  let s := s.dpcdWrite n 0x102 (s.trainPattern n t :: ds.map driveByte)
  (s.emit ⟨.aux, [n, 9, 0x202, 6], []⟩).setHead n { s.head n with train := some t }

/-- The engine comes to TRAIN_STATE `st`, and the sink's pattern ends. -/
def State.trainDone (s : State) (n : Nat) (t : Training) (st : Nat) : State :=
  (s.dpcdWrite n 0x102 [0]).setHead n { s.head n with train := some { t with done := some st } }

/-- TRAIN (R158): the rate, lane count, framing and spread go to the sink, and the first attempt at clock recovery begins.
-/
def State.train (s : State) (n : Nat) : State :=
  if ¬ s.flag (F.HEAD_DP_CFG_LINK_ON n) ∨ (s.flag (F.HEAD_DP_CMD_TRAIN n) = true) then s
  else
    let s := (s.setFld (F.HEAD_DP_CMD_TRAIN n) 1).setFld (F.HEAD_DP_STATUS_TRAIN_STATE n) 1
    if s.fld (F.HEAD_DP_CFG_LANES n) = 3 then s.setHead n { s.head n with train := some { done := some 4 } }
    else
      let rate := [0x06, 0x0A, 0x14, 0x1E].getD (s.fld (F.HEAD_DP_CFG_RATE n)) 0
      let s := s.dpcdWrite n 0x100 [rate, s.dpLanes n + s.fld (F.HEAD_DP_CFG_ENH n) * 128]
      (s.dpcdWrite n 0x107 [s.fld (F.HEAD_DP_CFG_SSC n) * 16]).trainTry n {}

/-- The drive levels that adjust requests ask for: a sum above 3 lowers the pre-emphasis (R156). -/
def adjusted (bs : List Byte) : List (Nat × Nat) :=
  (List.range 4).map (fun i =>
    let r := bits (leAt bs (4 + i / 2) 1) (4 * (i % 2)) 4
    (bits r 0 2, min (bits r 2 2) (3 - bits r 0 2)))

/-- The sink's answer to the read of 0x202 to 0x207: `none` says that no such answer came. Clock recovery makes at most five
attempts at a swing level, the highest over the lanes, and equalisation at most five. -/
def State.trainAnswer (s : State) (n : Nat) (ans : Option (List Byte)) : State :=
  match (s.head n).train with
  | none => s
  | some t =>
    if t.done.isSome then s
    else
      match ans with
      | none => s.trainDone n t (if t.eq then 5 else 4)
      | some bs =>
        let lanes := List.range (s.dpLanes n)
        let st (i : Nat) : Nat := bits (leAt bs (i / 2) 1) (4 * (i % 2)) 4
        let cr := lanes.all (fun i => bit (st i) 0)
        if ¬ t.eq then
          let lvl := (t.drive.take (s.dpLanes n)).foldl (fun m d => max m d.1) 0
          let k := AMap.get t.tries lvl 0 + 1
          if cr then (s.setFld (F.HEAD_DP_STATUS_TRAIN_STATE n) 2).trainTry n { t with eq := true, drive := adjusted bs }
          else if 5 ≤ k then s.trainDone n t 4
          else s.trainTry n { t with drive := adjusted bs, tries := AMap.set t.tries lvl k 0 }
        else if lanes.all (fun i => st i % 8 = 7) && bit (leAt bs 2 1) 0 then s.trainDone n t 3
        else if !cr || decide (5 ≤ t.eqs + 1) then s.trainDone n t 5
        else s.trainTry n { t with drive := adjusted bs, eqs := t.eqs + 1 }

/-- Training ends after the answers `rs` that the sink still gives: a training that they do not carry to an end has failed
in the phase it is in. -/
def State.trainEnd (s : State) (n : Nat) (rs : List (List Byte)) : State :=
  if ¬ s.flag (F.HEAD_DP_CMD_TRAIN n) then s
  else
    let s := (rs.foldl (fun (s : State) bs => s.trainAnswer n (some bs)) s).trainAnswer n none
    let st := ((s.head n).train.bind (·.done)).getD 4
    let st := if st = 3 ∧ ¬ s.linkFits (s.head n) n then 6 else st
    let s := ((s.setFld (F.HEAD_DP_CMD_TRAIN n) 0).setFld (F.HEAD_DP_STATUS_TRAIN_STATE n) st).fire (Src.HEAD n 2)
    let s := s.setHead n { s.head n with train := none }
    if st = 6 then s.emit ⟨.laneIdle, [n, 0], []⟩ else s

/-- The bytes of HEAD_AUX_DATA. -/
def State.auxData (s : State) (n : Nat) : List Byte := (List.range 4).flatMap (fun i => toBytes 4 (s.reg (R.HEAD_AUX_DATA n i)))

/-- GO (R159). -/
def State.auxGo (s : State) (n : Nat) : State :=
  let len := if s.flag (F.HEAD_AUX_CMD_ADDR_ONLY n) then 0 else s.fld (F.HEAD_AUX_CMD_LEN_M1 n) + 1
  let s := (s.setFld (F.HEAD_AUX_CMD_GO n) 1).setReg (R.HEAD_AUX_STATUS n) 0
  s.emit ⟨.aux, [n, s.fld (F.HEAD_AUX_CMD_REQ n), s.fld (F.HEAD_AUX_CMD_ADDR n), len], (s.auxData n).take len⟩

/-- The request ends: `kind` 0 a reply `code` with `bs`, 1 a malformed reply, anything else the timeout. With no request of
software's under way it is the training engine's read that is answered, by an ACK with data or not. -/
def State.auxReply (s : State) (n kind code : Nat) (bs : List Byte) : State :=
  if ¬ s.flag (F.HEAD_AUX_CMD_GO n) then s.trainAnswer n (if kind = 0 ∧ code = 0 ∧ bs.length = 6 then some bs else none)
  else
    let s := (s.setFld (F.HEAD_AUX_CMD_GO n) 0).setFld (F.HEAD_AUX_STATUS_DONE n) 1
    match kind with
    | 0 =>
      let bs := bs.take 16
      let all := bs ++ (s.auxData n).drop bs.length
      let s := (List.range 4).foldl (fun s i => s.setReg (R.HEAD_AUX_DATA n i) (leAt all (4 * i) 4)) s
      (s.setFld (F.HEAD_AUX_STATUS_RCOUNT n) bs.length).setFld (F.HEAD_AUX_STATUS_REPLY n) code
    | 1 => s.setFld (F.HEAD_AUX_STATUS_FRAMING n) 1
    | _ => s.setFld (F.HEAD_AUX_STATUS_TIMEOUT n) 1

/-- A low HPD pulse while PLUGGED (R160). -/
def State.hpdIrq (s : State) (n : Nat) : State :=
  if s.headOn n && s.flag (F.HEAD_DP_STATUS_PLUGGED n) then (s.setFld (F.HEAD_DP_STATUS_IRQ_EVT n) 1).fire (Src.HEAD n 3) else s

/-- HPD low for 2 ms (R160, R161). -/
def State.hpdUnplug (s : State) (n : Nat) : State :=
  if s.headOn n && s.flag (F.HEAD_DP_STATUS_PLUGGED n) then
    let s := (s.setFld (F.HEAD_DP_STATUS_PLUGGED n) 0).setFld (F.HEAD_DP_STATUS_UNPLUG_EVT n) 1
    let s := s.setFld (F.HEAD_DP_STATUS_TRAIN_STATE n) 0
    (s.emit ⟨.laneIdle, [n, 0], []⟩).fire (Src.HEAD n 3)
  else s

/-- HPD high for 2 ms while unplugged (R160). -/
def State.hpdPlug (s : State) (n : Nat) : State :=
  if s.headOn n && !s.flag (F.HEAD_DP_STATUS_PLUGGED n) then
    ((s.setFld (F.HEAD_DP_STATUS_PLUGGED n) 1).setFld (F.HEAD_DP_STATUS_PLUG_EVT n) 1).fire (Src.HEAD n 3)
  else s

/-! ### HEAD registers -/

/-- A write to HEAD_DP_CFG: LINK_ON 0 puts the lanes at electrical idle. -/
def State.dpCfgWrite (s : State) (n : Nat) (w : RegW) : State :=
  let t := s.plainWrite w
  if s.flag (F.HEAD_DP_CFG_LINK_ON n) && !t.flag (F.HEAD_DP_CFG_LINK_ON n) then t.emit ⟨.laneIdle, [n, 0], []⟩ else t

/-- A write to HEAD_AUX_CMD: a GO during training is ignored and marked (R158), and so, unmarked, is one while GO reads 1
(R159). -/
def State.auxCmdWrite (s : State) (n : Nat) (w : RegW) : State :=
  let go := s.flag (F.HEAD_AUX_CMD_GO n)
  let s := s.plainWrite w
  if ¬ w.one (F.HEAD_AUX_CMD_GO n) then s
  else if s.flag (F.HEAD_DP_CMD_TRAIN n) then s.setFld (F.HEAD_DP_STATUS_AUX_BUSY n) 1
  else if go then s
  else s.auxGo n

/-- The raster-time registers of head `n` (R199). -/
def rasterKey (n k : Nat) : Bool := decide (R.HEAD_PAL n 0 ≤ k) && decide (k < R.HEAD_PAL n 1088)

/-- A write to a HEAD_n register. -/
def headWrite (s : State) (w : RegW) : Acc :=
  let n := (w.k - R.HEAD_CTRL 0) / 0x10000
  if w.k = R.HEAD_CTRL n then okAcc (s.headCtrlWrite n w)
  else if shadowKey n w.k then
    okAcc (if s.flag (F.HEAD_CTRL_COMMIT n) then s.setFld (F.HEAD_STATUS_WR_DROPPED n) 1 else s.plainWrite w)
  else if w.k = R.HEAD_DP_CFG n then okAcc (if s.flag (F.HEAD_DP_CMD_TRAIN n) then s else s.dpCfgWrite n w)
  else if w.k = R.HEAD_DP_CMD n then okAcc (if w.one (F.HEAD_DP_CMD_TRAIN n) then s.train n else s)
  else if w.k = R.HEAD_AUX_CMD n then okAcc (s.auxCmdWrite n w)
  else if w.k = R.HEAD_SF_LEARN n then okAcc (s.learnWrite n w)
  else if rasterKey n w.k then okAcc (s.plainWrite (w.without (AMap.get (s.head n).merW w.k 0)))
  else okAcc (s.plainWrite w)

/-- What a read of a HEAD_n register returns. After U-06 the raster-time registers and HEAD_MER_STATUS hold free values. -/
def headRead (s : State) (k : Nat) : Nat × State :=
  let n := (k - R.HEAD_CTRL 0) / 0x10000
  if k = R.HEAD_BEAM n ∧ (s.scanning n = true) then ((s.beam n).1 * 65536 + (s.beam n).2, s)
  else if k = R.HEAD_DP_STATUS n then (putBits (s.reg k) 0 1 (b2n (s.pinSig (232 + n) 7 false)), s)
  else if (s.head n).u06 && rasterKey n k then (s.freeVal % 2 ^ 32, s.skipFree)
  else if (s.head n).u06 && decide (k = R.HEAD_MER_STATUS n) then (Nat.land s.freeVal 0xFFF7001F, s.skipFree)
  else (s.reg k, s)

end Sys2Proof.Machine
end

