-- ==== Sys2Proof/Machine/Layers.lean ====
section
/-! DEFINITION. What each layer contributes at a pixel (R163 to R185), the stacking order (R186), the blend (R206) and the
flattened base (R208, R209). -/

namespace Sys2Proof.Machine

/-- A contribution at a pixel: pixel alpha, layer alpha, three 10-bit components. -/
structure Contrib where
  a  : Nat
  la : Nat
  c  : Px

/-! ### Reads (R163 to R165) -/

/-- A layer read failed: counted, marked, signalled. -/
def State.layerErr (s : State) (n : Nat) : State :=
  ((s.bump (R.HEAD_LAYER_ERR_COUNT n)).setFld (F.HEAD_LAYER_STATUS_READ_ERR n) 1).fire (Src.HEAD n 4)

/-- A layer read of `k` bytes at a physical address. -/
def State.layerRead (s : State) (n a k : Nat) : Option Nat × State :=
  let r := s.memRead (s.engine 9 true) a k
  match r.st with
  | .ok => (some (ofBytes r.data), r.s)
  | _ => (none, r.s.layerErr n)

/-- A layer read at a pool offset (R163); an offset at or beyond 144 MiB fails (R164). -/
def State.offRead (s : State) (n o k : Nat) : Option Nat × State :=
  if poolSize ≤ o then (none, s.layerErr n) else s.layerRead n (poolBase + o) k

/-! ### Colours (R166 to R168) -/

/-- An 8-bit component as 10 bits. -/
def exp8 (c : Nat) : Nat := c * 4 + c / 64

/-- A 5-bit component as 10 bits. -/
def exp5 (c : Nat) : Nat := c * 32 + c

/-- A palette entry as a pixel, none when its ALPHA is 0. -/
def palPx (v la : Nat) : Option Contrib :=
  if bits v 24 8 = 0 then none else some ⟨bits v 24 8, la, ⟨exp8 (bits v 16 8), exp8 (bits v 8 8), exp8 (bits v 0 8)⟩⟩

/-- A 16-bit direct pixel (R168). -/
def directPx (v la : Nat) : Option Contrib :=
  if bit v 15 then some ⟨255, la, ⟨exp5 (bits v 10 5), exp5 (bits v 5 5), exp5 (bits v 0 5)⟩⟩ else none

/-- The palettes of R166. -/
inductive Pal where
  | main
  | base
  | alarm

/-- The palette entry that value `k` of depth `d` selects with PALETTE `p` (R167). -/
def State.palEntry (s : State) (n : Nat) (x : HeadSt) (pal : Pal) (d p k : Nat) : Nat :=
  match pal with
  | .main => s.reg (R.HEAD_PAL n (if d = 4 then p * 16 + k else p % 4 * 256 + k))
  | .base => x.areg (R.HEAD_BASE_PAL n (if d = 4 then p % 16 * 16 + k else k))
  | .alarm => x.areg (R.HEAD_AL_PAL n (if d = 4 then p % 16 * 16 + k else k))

/-- The pixel (`u`, `v`) of a pattern of `t` × `t` pixels of depth `d` at pool offset `o` (R167, R172). -/
def State.patPx (s : State) (n : Nat) (x : HeadSt) (pal : Pal) (o t d p u v la : Nat) : Option Contrib × State :=
  if d = 16 then
    match s.offRead n (o + 2 * (v * t + u)) 2 with
    | (some w, s) => (directPx w la, s)
    | (none, s) => (none, s)
  else
    match s.offRead n (o + (if d = 4 then v * t / 2 + u / 2 else v * t + u)) 1 with
    | (some b, s) =>
      let k := if d = 4 then bits b (4 * (u % 2)) 4 else b
      (if k = 0 then none else palPx (s.palEntry n x pal d p k) la, s)
    | (none, s) => (none, s)

/-! ### Tile planes (R169 to R175) -/

/-- A set-up of a tile plane: tile size, plane size in pixels, depth. -/
structure Plane where
  t  : Nat
  mw : Nat
  pw : Nat
  ph : Nat
  d  : Nat

def HeadSt.plane (x : HeadSt) (n p : Nat) : Plane :=
  let t := if x.afld (F.HEAD_TP_CFG_TILE16 n p) = 1 then 16 else 8
  let w := mapDim (x.afld (F.HEAD_TP_CFG_MAP_W n p))
  ⟨t, w, w * t, mapDim (x.afld (F.HEAD_TP_CFG_MAP_H n p)) * t, 4 * 2 ^ x.afld (F.HEAD_TP_CFG_BPP n p)⟩

/-- The map entry at plane pixel (`px`, `py`): a failed read gives HIDE. -/
def State.mapEntry (s : State) (n p : Nat) (x : HeadSt) (g : Plane) (px py : Nat) : Nat × State :=
  match s.offRead n (x.afld (F.HEAD_TP_MAP_OFFSET n p) * 1024 + 4 * (py / g.t * g.mw + px / g.t)) 4 with
  | (some e, s) => (e, s)
  | (none, s) => (2 ^ 27, s)

/-- The pixel that entry `e` shows at plane pixel (`px`, `py`). -/
def State.tilePx (s : State) (n p : Nat) (x : HeadSt) (g : Plane) (pal : Pal) (e px py la : Nat) : Option Contrib × State :=
  let u := if bit e 22 then g.t - 1 - px % g.t else px % g.t
  let v := if bit e 23 then g.t - 1 - py % g.t else py % g.t
  let o := x.afld (F.HEAD_TP_PAT_OFFSET n p) * 64 + bits e 0 16 * (g.t * g.t * g.d / 8)
  s.patPx n x pal o g.t g.d (bits e 16 6) u v la

/-- (`px`, `py`) lies in the window given by two registers (R173). -/
def State.inWindow (s : State) (kx ky px py : Nat) : Bool :=
  decide (bits (s.reg kx) 0 16 ≤ px) && decide (px < bits (s.reg kx) 16 16) &&
  decide (bits (s.reg ky) 0 16 ≤ py) && decide (py < bits (s.reg ky) 16 16)

/-- What the non-static tiles of plane `p` contribute at (`px`, `py`), with their PRIORITY. -/
def State.tileAt (s : State) (n p : Nat) (x : HeadSt) (px py : Nat) : Option (Nat × Contrib) × State :=
  if x.afld (F.HEAD_TP_CFG_BPP n p) = 3 ∨ ¬ s.flag (F.HEAD_TP_RT_ENABLE n p) ∨
     (s.inWindow (R.HEAD_TP_WIN_X n p) (R.HEAD_TP_WIN_Y n p) px py = false) then (none, s)
  else
    let g := x.plane n p
    let l := x.ls.getD p 0
    let qx := (px + s.fld (F.HEAD_TP_SCROLL_HSCROLL n p) + bits l 0 16) % g.pw
    let qy := (py + s.fld (F.HEAD_TP_SCROLL_VSCROLL n p) + bits l 16 16) % g.ph
    let e := s.mapEntry n p x g qx qy
    if bit e.1 27 ∨ bit e.1 26 then (none, e.2)
    else
      let r := e.2.tilePx n p x g .main e.1 qx qy (s.fld (F.HEAD_TP_RT_ALPHA n p))
      (r.1.map (fun c => (bits e.1 24 2, c)), r.2)

/-- What the static tiles of plane `p` contribute to the base at (`px`, `py`) (R174). -/
def State.staticAt (s : State) (n p : Nat) (x : HeadSt) (px py : Nat) : Option Contrib × State :=
  if x.afld (F.HEAD_TP_CFG_BPP n p) = 3 ∨ x.afld (F.HEAD_TP_CFG_STATIC_EN n p) = 0 then (none, s)
  else
    let g := x.plane n p
    let e := s.mapEntry n p x g (px % g.pw) (py % g.ph)
    if bit e.1 27 ∨ ¬ bit e.1 26 then (none, e.2)
    else e.2.tilePx n p x g .base e.1 (px % g.pw) (py % g.ph) 255

/-! ### The base (R208, R209) -/

/-- Static bitmap `b` is on. -/
def HeadSt.bitmapOn (x : HeadSt) (n b : Nat) : Bool :=
  decide (x.afld (F.HEAD_SB_CFG_ENABLE n b) = 1) && decide (x.afld (F.HEAD_SB_SIZE_LOW n b) ≠ 0) &&
    decide (x.afld (F.HEAD_SB_SIZE_HIGH n b) ≠ 0)

/-- What static bitmap `b` contributes at (`px`, `py`). -/
def State.bitmapAt (s : State) (n b : Nat) (x : HeadSt) (px py : Nat) : Option Contrib × State :=
  let x0 := x.afld (F.HEAD_SB_POS_LOW n b)
  let y0 := x.afld (F.HEAD_SB_POS_HIGH n b)
  if ¬ x.bitmapOn n b ∨ px < x0 ∨ py < y0 ∨ x0 + x.afld (F.HEAD_SB_SIZE_LOW n b) ≤ px ∨
     y0 + x.afld (F.HEAD_SB_SIZE_HIGH n b) ≤ py then (none, s)
  else
    let o := x.afld (F.HEAD_SB_PIX_OFFSET n b) * 64 + (py - y0) * (x.afld (F.HEAD_SB_CFG_PITCH n b) * 64) + 4 * (px - x0)
    match s.offRead n o 4 with
    | (some v, s) => (palPx v 255, s)
    | (none, s) => (none, s)

/-- Division by 255 with rounding (R206). -/
def rnd255 (v : Nat) : Nat := (v + 127) / 255

/-- A static source over the accumulator (R209). -/
def BasePx.over (z : BasePx) (k : Contrib) : BasePx :=
  let f (c acc : Nat) : Nat := rnd255 (c * k.a) + rnd255 (acc * (255 - k.a))
  ⟨k.a + rnd255 (z.a * (255 - k.a)), f k.c.r z.r, f k.c.g z.g, f k.c.b z.b⟩

/-- The base pixel at (`px`, `py`), before the last line of R209. -/
def State.baseAcc (s : State) (n : Nat) (x : HeadSt) (px py : Nat) : BasePx × State :=
  let put (z : BasePx × State) (r : Option Contrib × State) : BasePx × State :=
    match r.1 with
    | some k => (z.1.over k, r.2)
    | none => (z.1, r.2)
  let z := [0, 1, 2, 3].foldl (fun (z : BasePx × State) p => put z (z.2.staticAt n p x px py)) ({}, s)
  [0, 1, 2, 3].foldl (fun (z : BasePx × State) b => put z (z.2.bitmapAt n b x px py)) z

/-- The base pixel of R209. -/
def State.basePx (s : State) (n : Nat) (x : HeadSt) (px py : Nat) : BasePx × State :=
  let r := s.baseAcc n x px py
  let q (c : Nat) : Nat := min ((c + 2) / 4) 255
  (⟨r.1.a, q r.1.r, q r.1.g, q r.1.b⟩, r.2)

/-! ### Video plane (R176 to R178) -/

/-- A scaler coefficient: 12 bits, signed. -/
def coefAt (v i : Nat) : Int := sext 12 (bits v (16 * i) 12)

/-- The filter of R177. -/
def vfilt (s0 s1 s2 s3 : Int) (coef : Nat) : Int :=
  clampI 0 1023 (asr (coefAt coef 0 * s0 + coefAt coef 1 * s1 + coefAt coef 2 * s2 + coefAt coef 3 * s3 + 512) 10)

/-- An index clamped to the grid. -/
def gridIx (i : Int) (w : Nat) : Nat := (clampI 0 ((w : Int) - 1) i).toNat

/-- One component at grid position (`gx`, `gy`), scaled from the samples that `f` reads; none when a sample failed. -/
def State.scaled (s : State) (n : Nat) (x : HeadSt) (f : State → Nat → Nat → Option Nat × State) (gx gy : Int) (w h : Nat) :
    Option Int × State :=
  let i := asr gx 16
  let j := asr gy 16
  let hc := x.areg (R.HEAD_VP_HCOEF n ((asr gx 12) % 16).toNat)
  let vc := x.areg (R.HEAD_VP_VCOEF n ((asr gy 12) % 16).toNat)
  let col (s : State) (a : Int) : Option Int × State :=
    let r (s : State) (b : Int) : Option Nat × State := f s (gridIx (i + a) w) (gridIx (j + b) h)
    let s0 := r s (-1)
    let s1 := r s0.2 0
    let s2 := r s1.2 1
    let s3 := r s2.2 2
    match s0.1, s1.1, s2.1, s3.1 with
    | some a, some b, some c, some d => (some (vfilt a b c d vc), s3.2)
    | _, _, _, _ => (none, s3.2)
  let c0 := col s (-1)
  let c1 := col c0.2 0
  let c2 := col c1.2 1
  let c3 := col c2.2 2
  match c0.1, c1.1, c2.1, c3.1 with
  | some a, some b, some c, some d => (some (vfilt a b c d hc), c3.2)
  | _, _, _, _ => (none, c3.2)

/-- A sample of a Y/CbCr plane at `a`, 10 bits. -/
def State.ycSample (s : State) (n a : Nat) (deep : Bool) : Option Nat × State :=
  if deep then
    let r := s.layerRead n a 2
    (r.1.map (fun v => bits v 0 10), r.2)
  else
    let r := s.layerRead n a 1
    (r.1.map (· * 4), r.2)

/-- KY, Y0 and the chroma factors of MATRIX and FULL (R178). -/
def matrixOf (m full : Nat) : Option (Int × Int × Int × Int × Int × Int) :=
  match m, full with
  | 0, 0 => some (64, 4769, 6537, -1605, -3330, 8263)
  | 0, _ => some (0, 4096, 5743, -1410, -2925, 7258)
  | 1, 0 => some (64, 4769, 7343, -873, -2183, 8652)
  | 1, _ => some (0, 4096, 6450, -767, -1917, 7601)
  | _, _ => none

/-- The conversion of R178. -/
def yccPx (k : Int × Int × Int × Int × Int × Int) (y cb cr : Int) : Px :=
  let f (v : Int) : Nat := (clampI 0 1023 (asr (v + 2048) 12)).toNat
  let l := k.2.1 * (y - k.1)
  ⟨f (l + k.2.2.1 * (cr - 512)), f (l + k.2.2.2.1 * (cb - 512) + k.2.2.2.2.1 * (cr - 512)), f (l + k.2.2.2.2.2 * (cb - 512))⟩

/-- The scaled RGB pixel of FORMAT 3. -/
def State.videoRgb (s : State) (n : Nat) (x : HeadSt) (sx sy : Int) : Option Px × State :=
  let base := x.areg (R.HEAD_VP_Y_ADDR n)
  let pitch := x.afld (F.HEAD_VP_PITCH_Y_PITCH n) / 64 * 64
  let w := x.afld (F.HEAD_VP_SRC_LOW n)
  let h := x.afld (F.HEAD_VP_SRC_HIGH n)
  let f (lo : Nat) (s : State) (i j : Nat) : Option Nat × State :=
    let r := s.layerRead n (base + j * pitch + 4 * i) 4
    (r.1.map (fun v => exp8 (bits v lo 8)), r.2)
  let r := s.scaled n x (f 16) sx sy w h
  let g := r.2.scaled n x (f 8) sx sy w h
  let b := g.2.scaled n x (f 0) sx sy w h
  match r.1, g.1, b.1 with
  | some r, some g, some bb => (some ⟨r.toNat, g.toNat, bb.toNat⟩, b.2)
  | _, _, _ => (none, b.2)

/-- The scaled and converted pixel of FORMAT 0 to 2. -/
def State.videoYcc (s : State) (n : Nat) (x : HeadSt) (sx sy : Int) (k : Int × Int × Int × Int × Int × Int) : Option Px × State :=
  let fmt := x.afld (F.HEAD_VP_CFG_FORMAT n)
  let deep : Bool := x.afld (F.HEAD_VP_CFG_DEPTH10 n) == 1
  let bb := if deep then 2 else 1
  let w := x.afld (F.HEAD_VP_SRC_LOW n)
  let h := x.afld (F.HEAD_VP_SRC_HIGH n)
  let cw := if fmt = 2 then w else (w + 1) / 2
  let ch := if fmt = 0 then (h + 1) / 2 else h
  let yp := x.afld (F.HEAD_VP_PITCH_Y_PITCH n) / 64 * 64
  let cp := x.afld (F.HEAD_VP_PITCH_C_PITCH n) / 64 * 64
  let fy (s : State) (i j : Nat) := s.ycSample n (x.areg (R.HEAD_VP_Y_ADDR n) + j * yp + i * bb) deep
  let fc (o : Nat) (s : State) (i j : Nat) := s.ycSample n (x.areg (R.HEAD_VP_C_ADDR n) + j * cp + 2 * i * bb + o * bb) deep
  let gx := if fmt = 2 then sx else asr sx 1
  let gy := if fmt = 0 then asr (sy - 0x8000) 1 else sy
  let y := s.scaled n x fy sx sy w h
  let b := y.2.scaled n x (fc 0) gx gy cw ch
  let r := b.2.scaled n x (fc 1) gx gy cw ch
  match y.1, b.1, r.1 with
  | some y, some b, some c => (some (yccPx k y b c), r.2)
  | _, _, _ => (none, r.2)

/-- What the video plane contributes at (`px`, `py`). -/
def State.videoAt (s : State) (n : Nat) (x : HeadSt) (px py : Nat) : Option Contrib × State :=
  let x0 := x.afld (F.HEAD_VP_DST_POS_LOW n)
  let y0 := x.afld (F.HEAD_VP_DST_POS_HIGH n)
  let hs := x.afld (F.HEAD_VP_HSTEP_STEP n)
  let vs := x.afld (F.HEAD_VP_VSTEP_STEP n)
  let ok (v : Nat) : Bool := Nat.ble 0x2000 v && Nat.ble v 0x40000
  let fmt := x.afld (F.HEAD_VP_CFG_FORMAT n)
  if ¬ s.flag (F.HEAD_VP_RT_ENABLE n) ∨ px < x0 ∨ py < y0 ∨ x0 + x.afld (F.HEAD_VP_DST_SIZE_LOW n) ≤ px ∨
     y0 + x.afld (F.HEAD_VP_DST_SIZE_HIGH n) ≤ py ∨ (s.inWindow (R.HEAD_VP_WIN_X n) (R.HEAD_VP_WIN_Y n) px py = false) ∨
     (ok hs && ok vs) = false ∨ 3 < fmt then (none, s)
  else
    match matrixOf (x.afld (F.HEAD_VP_CFG_MATRIX n)) (x.afld (F.HEAD_VP_CFG_FULL n)) with
    | none => (none, s)
    | some k =>
      let sx : Int := ((px - x0) * hs : Nat)
      let sy : Int := ((py - y0) * vs : Nat)
      let r := if fmt = 3 then s.videoRgb n x sx sy else s.videoYcc n x sx sy k
      (r.1.map (fun c => ⟨255, s.fld (F.HEAD_VP_RT_ALPHA n), c⟩), r.2)

/-! ### Sprites (R179 to R183) -/

/-- Blinking content is visible in frame `f` (R181). -/
def blinkOn (f on off phase : Nat) : Bool := decide (on = 0) || decide (off = 0) || decide ((f + phase) % (on + off) < on)

/-- The fields of a sprite entry. -/
def sprX (e : List Byte) : Int := sext 16 (leAt e 0 2)
def sprY (e : List Byte) : Int := sext 16 (leAt e 2 2)
def sprCtrl (e : List Byte) : Nat := leAt e 6 2
def sprSize (e : List Byte) : Nat := 8 * 2 ^ bits (sprCtrl e) 0 3

/-- A sprite counts on line `y` of frame `f` (R183). -/
def sprCounts (e : List Byte) (f y h : Nat) : Bool :=
  let c := sprCtrl e
  let z : Int := (sprSize e : Nat)
  bit c 15 && decide (bits c 0 3 < 6) && blinkOn f (leAt e 10 1) (leAt e 11 1) (leAt e 12 2) &&
    decide (sprY e ≤ (y : Int)) && decide ((y : Int) < sprY e + z) && decide (sprX e < (h : Int)) && decide (0 < sprX e + z)

/-- What sprite entry `e` contributes at (`px`, `py`), where it is drawn on the line. -/
def State.spriteAt (s : State) (n : Nat) (x : HeadSt) (e : List Byte) (px py : Nat) : Option Contrib × State :=
  let z := sprSize e
  let dx : Int := (px : Int) - sprX e
  let dy : Int := (py : Int) - sprY e
  if dx < 0 ∨ (z : Int) ≤ dx ∨ ¬ s.flag (F.HEAD_SP_RT_ENABLE n) ∨
     (s.inWindow (R.HEAD_SP_WIN_X n) (R.HEAD_SP_WIN_Y n) px py = false) then (none, s)
  else
    let c := sprCtrl e
    let u := if bit c 8 then z - 1 - dx.toNat else dx.toNat
    let v := if bit c 9 then z - 1 - dy.toNat else dy.toNat
    let o := x.afld (F.HEAD_SP_PAT_OFFSET n) * 64 + leAt e 4 2 * 64
    let la := rnd255 (leAt e 9 1 * s.fld (F.HEAD_SP_RT_ALPHA n))
    s.patPx n x .main o z (if bit c 4 then 8 else 4) (bits (leAt e 8 1) 0 6) u v la

/-! ### Alarm plane (R184) -/

/-- The alarm map entry of the cell at (`px`, `py`): a failed read gives HIDE. -/
def State.alarmEntry (s : State) (n : Nat) (x : HeadSt) (px py : Nat) : Nat × State :=
  match s.offRead n (x.afld (F.HEAD_AL_MAP_OFFSET n) * 1024 + 4 * (py / 16 * 256 + px / 16)) 4 with
  | (some e, s) => (e, s)
  | (none, s) => (2 ^ 27, s)

/-- An alarm entry is shown in frame `f`. -/
def HeadSt.alarmShown (x : HeadSt) (n e f : Nat) : Bool :=
  !bit e 27 && (!bit e 28 || blinkOn f (x.afld (F.HEAD_AL_CFG_BLINK_ON n)) (x.afld (F.HEAD_AL_CFG_BLINK_OFF n)) 0)

/-- What the alarm plane contributes at (`px`, `py`). -/
def State.alarmAt (s : State) (n : Nat) (x : HeadSt) (px py : Nat) : Option Contrib × State :=
  if x.afld (F.HEAD_AL_CFG_ENABLE n) = 0 then (none, s)
  else
    let e := s.alarmEntry n x px py
    if ¬ x.alarmShown n e.1 x.cFrame then (none, e.2)
    else
      let d := if x.afld (F.HEAD_AL_CFG_BPP8 n) = 1 then 8 else 4
      let u := if bit e.1 22 then 15 - px % 16 else px % 16
      let v := if bit e.1 23 then 15 - py % 16 else py % 16
      e.2.patPx n x .alarm (x.afld (F.HEAD_AL_PAT_OFFSET n) * 64 + bits e.1 0 16 * (32 * d)) 16 d (bits e.1 16 6) u v 255

/-! ### Stack and blend (R186, R206, R207) -/

/-- A premultiplied source over a pixel. -/
def Px.under (p : Px) (a sr sg sb : Nat) : Px :=
  let f (sc c : Nat) : Nat := min (sc + rnd255 (c * (255 - a))) 1023
  ⟨f sr p.r, f sg p.g, f sb p.b⟩

/-- A contribution blended onto a pixel. -/
def Px.blend (p : Px) (k : Contrib) : Px :=
  let a := rnd255 (k.a * k.la)
  p.under a (rnd255 (k.c.r * a)) (rnd255 (k.c.g * a)) (rnd255 (k.c.b * a))

/-- The base blended onto a pixel; a base with A8 0 is skipped. -/
def Px.blendBase (p : Px) (z : BasePx) : Px := if z.a = 0 then p else p.under z.a (exp8 z.r) (exp8 z.g) (exp8 z.b)

/-- The base at (`px`, `py`) as its flatten tile's state has it (R210): nothing of an EMPTY tile, the slot's pixel of a
VALID one, the live sources otherwise and throughout a frame composed live (R211). -/
def State.baseAt (s : State) (n : Nat) (x : HeadSt) (px py : Nat) : BasePx × State :=
  match if x.live then 0 else AMap.get x.tiles (py / 64 * 64 + px / 64) 0 with
  | 0 => s.basePx n x px py
  | 1 => ({}, s)
  | k + 2 => ((AMap.get s.cmp.base k []).getD (py % 64 * 64 + px % 64) {}, s)

/-- The composed pixel at (`px`, `py`) of head `n`. -/
def State.composePx (s : State) (n px py : Nat) : Px × State :=
  let x := s.head n
  let b := s.baseAt n x px py
  let p0 : Px := ⟨s.fld (F.HEAD_BACKDROP_RED n), s.fld (F.HEAD_BACKDROP_GREEN n), s.fld (F.HEAD_BACKDROP_BLUE n)⟩
  let ts := [0, 1, 2, 3].foldl (fun (z : List (Nat × Contrib) × State) p =>
    let r := z.2.tileAt n p x px py
    (z.1 ++ r.1.toList, r.2)) ([], b.2)
  let v := ts.2.videoAt n x px py
  let vs := v.1.toList.map (fun c => (x.afld (F.HEAD_VP_CFG_PRIORITY n), c))
  let table := x.spr.getD []
  let sp := x.lineSpr.reverse.foldl (fun (z : List (Nat × Contrib) × State) i =>
    let e := table.getD i []
    let r := z.2.spriteAt n x e px py
    (z.1 ++ r.1.toList.map (fun c => (bits (sprCtrl e) 10 2, c)), r.2)) ([], v.2)
  let al := sp.2.alarmAt n x px py
  let at_ (p : Nat) (l : List (Nat × Contrib)) : List Contrib := (l.filter (fun e => e.1 == p)).map (fun e => e.2)
  let ks := [0, 1, 2, 3].flatMap (fun p => at_ p ts.1 ++ at_ p vs ++ at_ p sp.1) ++ al.1.toList
  (ks.foldl Px.blend (p0.blendBase b.1), al.2)

/-- A composed pixel in a target format (R207). -/
def Px.store (p : Px) (fmt : Nat) : Px :=
  if fmt = 1 then p else ⟨min ((p.r + 2) / 4) 255, min ((p.g + 2) / 4) 255, min ((p.b + 2) / 4) 255⟩

/-- The bytes of a stored pixel (R151). -/
def Px.bytes (p : Px) (fmt : Nat) : List Byte :=
  if fmt = 1 then toBytes 4 (p.r * 2 ^ 20 + p.g * 2 ^ 10 + p.b) else toBytes 3 (p.r + p.g * 256 + p.b * 65536)

end Sys2Proof.Machine
end

