-- ==== Sys2Proof/Machine/Meridian.lean ====
section
/-! DEFINITION. The Meridian sequencer (R187 to R198): groups, its instructions, and what holds the composition beam. -/

namespace Sys2Proof.Machine

/-- STATE of head `n`'s Meridian sequencer. -/
def State.merState (s : State) (n : Nat) : Nat := s.fld (F.HEAD_MER_STATUS_STATE n)

/-- The composition beam of head `n` (R187): the next pixel that the composer has not produced. -/
def State.compBeam (s : State) (n : Nat) : Nat × Nat :=
  let x := s.head n
  if s.hActive n ≤ x.cPix then (x.cLine + 1, 0) else (x.cLine, x.cPix)

/-- The pixel of line `cLine` up to which the composition beam may move now: none while a group is open (R188). Whether one
is open after U-06 is a free value. -/
def State.beamLimit (s : State) (n : Nat) : Option Nat :=
  let x := s.head n
  let h := s.hActive n
  if x.u06 then (if bit s.freeVal 0 then none else some h) else
  match s.merState n with
  | 1 => none
  | 2 =>
    match x.target with
    | some t => if t.1 < x.cLine then none else if t.1 = x.cLine then (if t.2 ≤ x.cPix then none else some (min t.2 h)) else some h
    | none => some h
  | _ => some h

/-- The beam moves through late lines without production (R204), at most `fuel` moves. -/
def State.skipLate (s : State) (n : Nat) : Nat → State
  | 0 => s
  | fuel + 1 =>
    let x := s.head n
    if x.cLine < x.lateTo then
      match s.beamLimit n with
      | none => s
      | some p =>
        let w := if x.cPix < p then [] else x.merW
        if p < s.hActive n then s.setHead n { x with cPix := p, merW := w }
        else (s.setHead n { x with cLine := x.cLine + 1, cPix := 0, ls := [], buf := [], merW := w }).skipLate n fuel
    else s

/-- The beam has passed the late lines it can pass. -/
def State.passLate (s : State) (n : Nat) : State := s.skipLate n ((s.head n).lateTo - (s.head n).cLine)

/-- PC and STATE of the status register follow. -/
def State.merShow (s : State) (n st : Nat) : State :=
  (s.setFld (F.HEAD_MER_STATUS_STATE n) st).setFld (F.HEAD_MER_STATUS_PC n) (s.head n).pc

/-- An error bit of the status register is set, and HEAD_MER_ERR fires. -/
def State.merErr (s : State) (n : Nat) (f : Fld) : State := (s.setFld f 1).fire (Src.HEAD n 6)

/-- END (R192). -/
def State.merStop (s : State) (n : Nat) : State := s.merShow n 3

/-- A group opens at position `p`. -/
def State.merOpen (s : State) (n : Nat) (p : Nat × Nat) : State :=
  let x := s.head n
  (s.setHead n { x with stamp := p, words := 0, target := none, sync := none, pulse := false }).merShow n 1

/-- The word that the prefetch buffer holds at index `i`, if it holds that index: none of it when its read failed. -/
def HeadSt.preAt (x : HeadSt) (i : Nat) : Option (Option Nat) :=
  if x.pre.1 ≤ i then x.pre.2[i - x.pre.1]? else none

/-- The read of the program word at index `i` of the program at pool offset `p`. -/
def State.merRead (s : State) (p i : Nat) : Option Nat × State :=
  if poolSize ≤ p + 4 * i then (none, s)
  else
    let r := s.memRead (s.engine 9 true) (poolBase + p + 4 * i) 4
    (if r.st = .ok then some (ofBytes r.data) else none, r.s)

/-- The prefetch buffer takes 32 words from index `i` on, as far as the program goes (R196). -/
def State.merLoad (s : State) (n i : Nat) : State :=
  match (s.head n).prog with
  | none => s
  | some p =>
    let r := (List.range (min 32 (4096 - i))).foldl (fun (z : List (Option Nat) × State) j =>
      let w := z.2.merRead p (i + j)
      (z.1 ++ [w.1], w.2)) ([], s)
    r.2.setHead n { r.2.head n with pre := (i, r.1) }

/-- The program word at index `i` of head `n`, none when its read failed: an index outside the prefetch buffer loads it
again from there. -/
def State.merWord (s : State) (n i : Nat) : Option Nat × State :=
  match (s.head n).preAt i with
  | some w => (w, s)
  | none =>
    let s := s.merLoad n i
    (((s.head n).preAt i).getD none, s)

/-- Meridian at a frame boundary (R189). -/
def State.merFrameStart (s : State) (n : Nat) : State :=
  let x := s.head n
  if ¬ s.scanning n ∨ ¬ x.merNew then s
  else
    let x := { x with merNew := false, target := none, sync := none, pulse := false }
    if s.flag (F.HEAD_MER_CTRL_ENABLE n) then
      let sel := s.fld (F.HEAD_MER_CTRL_SEL n)
      let s := (s.setHead n { x with prog := some (s.fld (F.HEAD_MER_PROG_OFFSET n sel) * 64), pc := 0 }).setFld
        (F.HEAD_MER_STATUS_ACTIVE_SEL n) sel
      (s.merLoad n 0).merOpen n (0, 0)
    else (s.setHead n { x with prog := none, pc := 0 }).merShow n 0

/-- The group has run `k` words more: it is a runaway once it has run 256 without closing (R196). -/
def State.merCount (s : State) (n k : Nat) : State :=
  let x := s.head n
  let s := s.setHead n { x with words := x.words + k }
  if 256 ≤ x.words + k ∧ s.merState n = 1 then (s.merErr n (F.HEAD_MER_STATUS_RUNAWAY n)).merStop n else s.merShow n (s.merState n)

/-- The next word, where a group is open and the word has type code `ty`. -/
def State.merAt (s : State) (n ty : Nat) : Option (Nat × State) :=
  let x := s.head n
  if ¬ s.scanning n ∨ s.merState n ≠ 1 ∨ 4095 < x.pc then none
  else
    match s.merWord n x.pc with
    | (some w, s) => if w % 16 = ty then some (w, s) else none
    | (none, _) => none

/-- PC moves to word `i`. -/
def State.merGo (s : State) (n i : Nat) : State := s.setHead n { s.head n with pc := i }

/-- The position that a WAIT or SKIP word names (R191). -/
def State.merTarget (s : State) (n w : Nat) : Nat × Nat :=
  let line := bits w 20 12 + (if bit w 7 then (s.head n).stamp.1 else 0)
  if s.hActive n ≤ bits w 8 12 then (line + 1, 0) else (line, bits w 8 12)

/-- WAIT (R191): with a line at or beyond V_ACTIVE nothing but the frame boundary ends the wait. -/
def State.merWait (s : State) (n : Nat) : State :=
  match s.merAt n 1 with
  | none => s
  | some (w, s) =>
    let t := s.merTarget n w
    let x := s.head n
    let s := s.merGo n (x.pc + 1)
    if s.vActive n ≤ t.1 then (s.merShow n 2).merCount n 1
    else if before x.stamp t then ((s.setHead n { s.head n with target := some t }).merShow n 2).merCount n 1
    else
      let s := if before t x.stamp then s.merErr n (F.HEAD_MER_STATUS_LATE n) else s
      s.merCount n 1

/-- The composition beam reaches the target of a WAIT. -/
def State.merWaitReached (s : State) (n : Nat) : State :=
  let s := s.passLate n
  let x := s.head n
  match x.target with
  | some t => if s.scanning n ∧ s.merState n = 2 ∧ s.compBeam n = t then s.merOpen n t else s
  | none => s

/-- A raster-time write of the bits in `m` to word index `r` (R193), which a core write does not undo before the stamped
pixel is produced (R197). -/
def State.merPut (s : State) (n r m v : Nat) : State :=
  if 1087 < r then s.merErr n (F.HEAD_MER_STATUS_BADREG n)
  else
    match regAt (R.HEAD_PAL n 0 + 4 * r) with
    | some (row, k) =>
      let x := s.head n
      (s.plainWrite ⟨row, k, m, v⟩).setHead n { x with merW := AMap.set x.merW k (Nat.lor (AMap.get x.merW k 0) m) 0 }
    | none => s

/-- MOVE (R193). -/
def State.merMove (s : State) (n : Nat) : State :=
  match s.merAt n 2 with
  | none => s
  | some (w, s) =>
    let hi : Bool := bit w 4
    let d := bits w 16 16
    let s := s.merPut n (bits w 5 11) (if hi then 0xFFFF0000 else 0xFFFF) (if hi then d * 65536 else d)
    (s.merGo n ((s.head n).pc + 1)).merCount n 1

/-- The data words of a MOVEB from `r` on, `k` of them: each counts, and a failed fetch, a fetch beyond word 4,095 or a
runaway ends the program. -/
def State.merData (s : State) (n r : Nat) : Nat → State
  | 0 => s
  | k + 1 =>
    let x := s.head n
    if s.merState n ≠ 1 then s
    else if 4095 < x.pc then s.merStop n
    else
      match s.merWord n x.pc with
      | (some w, s) => (((s.merPut n r 0xFFFFFFFF w).merGo n (x.pc + 1)).merCount n 1).merData n (r + 1) k
      | (none, s) => (s.merErr n (F.HEAD_MER_STATUS_FETCH_ERR n)).merStop n

/-- MOVEB (R193). -/
def State.merMoveB (s : State) (n : Nat) : State :=
  match s.merAt n 3 with
  | none => s
  | some (w, s) => ((s.merGo n ((s.head n).pc + 1)).merCount n 1).merData n (bits w 5 11) (bits w 24 8 + 1)

/-- SKIP (R192): a MOVEB is skipped with its data words. -/
def State.merSkip (s : State) (n : Nat) : State :=
  match s.merAt n 4 with
  | none => s
  | some (w, s) =>
    let x := s.head n
    let later := !before x.stamp (s.merTarget n w)
    let i := x.pc + 1
    if (later != bit w 6) = true then
      if 4095 < i then (s.merGo n (i + 1)).merCount n 1
      else
        match s.merWord n i with
        | (some v, s) => (s.merGo n (if v % 16 = 3 then i + 2 + bits v 24 8 else i + 1)).merCount n 1
        | (none, s) => ((s.merGo n i).merErr n (F.HEAD_MER_STATUS_FETCH_ERR n)).merStop n
    else (s.merGo n i).merCount n 1

/-- JUMP (R192). -/
def State.merJump (s : State) (n : Nat) : State :=
  match s.merAt n 5 with
  | none => s
  | some (w, s) => (s.merGo n (bits w 4 12)).merCount n 1

/-- EVENT (R194). -/
def State.merEvent (s : State) (n : Nat) : State :=
  match s.merAt n 6 with
  | none => s
  | some (w, s) => ((s.directFire (s.engine 9 true) (bits w 8 8)).merGo n ((s.head n).pc + 1)).merCount n 1

/-- SYNC (R194). -/
def State.merSync (s : State) (n : Nat) : State :=
  match s.merAt n 7 with
  | none => s
  | some (w, s) =>
    let x := s.head n
    ((s.setHead n { x with pc := x.pc + 1, sync := some (bits w 8 8), pulse := false }).merShow n 2).merCount n 1

/-- The awaited pulse has arrived: the next group opens at the composition beam. -/
def State.merSyncPulse (s : State) (n : Nat) : State :=
  let s := s.passLate n
  let x := s.head n
  if s.scanning n ∧ s.merState n = 2 ∧ x.sync.isSome ∧ x.pulse then s.merOpen n (s.compBeam n) else s

/-- END, an unnamed type code, a failed fetch or a fetch beyond word 4,095 ends the program for the frame (R190, R192,
R195). -/
def State.merEnd (s : State) (n : Nat) : State :=
  let x := s.head n
  if ¬ s.scanning n ∨ s.merState n ≠ 1 then s
  else if 4095 < x.pc then s.merStop n
  else
    match s.merWord n x.pc with
    | (none, s) => (s.merErr n (F.HEAD_MER_STATUS_FETCH_ERR n)).merStop n
    | (some w, s) =>
      let t := w % 16
      if t = 15 then (s.merGo n (x.pc + 1)).merStop n
      else if 1 ≤ t ∧ t ≤ 7 then s
      else ((s.merGo n (x.pc + 1)).merErr n (F.HEAD_MER_STATUS_BADOP n)).merStop n

end Sys2Proof.Machine
end

