-- ==== Sys2Proof/Machine/Compose.lean ====
section
/-! DEFINITION. The composer (chapter 7): lines composed and committed, late lines, write-back and the flatten cache. -/

namespace Sys2Proof.Machine

/-! ### When a line is composed (R200, R201) -/

/-- The GUST cycle of the cut-off of line `y` (R201): 600 CMP cycles before the start of line y − 1. -/
def State.cutOff (s : State) (n y : Nat) : Nat :=
  s.pixTime n (((s.head n).vBlank n + y - 1) * (s.head n).hTotal n) - 300

/-- The GUST cycle from which line `y` may be produced (R200). -/
def State.lineFrom (s : State) (n y : Nat) : Nat :=
  s.pixTime n (((s.head n).vBlank n + y - (s.head n).lead) * (s.head n).hTotal n)

/-- The first line of head `n` whose cut-off lies after `t`, with that cut-off, where the composer may produce pixels of it
at `t`. -/
def State.lineDue (s : State) (n t : Nat) : Option (Nat × Nat) :=
  let x := s.head n
  if ¬ s.scanning n ∨ ¬ x.comp then none
  else
    let first := max x.cLine x.lateTo
    let y := first + ((List.range (s.vActive n - first)).takeWhile (fun i => decide (s.cutOff n (first + i) ≤ t))).length
    if s.vActive n ≤ y ∨ t < s.lineFrom n y ∨ (y = x.cLine ∧ s.hActive n ≤ x.cPix) then none else some (y, s.cutOff n y)

/-- It is the turn of line `y` of head `n` at `t`: no other head has a line with an earlier cut-off, or an equal one and a
lower number (R201). -/
def State.composeTurn (s : State) (n y t : Nat) : Bool :=
  (List.range 6).all (fun m => m == n ||
    match s.lineDue m t with
    | some l => decide (s.cutOff n y < l.2) || (decide (s.cutOff n y = l.2) && decide (n < m))
    | none => true)

/-! ### Flatten cache (R210 to R214) -/

/-- The slots in use, over all heads. -/
def State.slotsUsed (s : State) : List Nat :=
  s.heads.flatMap (fun (e : Nat × HeadSt) => e.2.tiles.filterMap (fun (t : Nat × Nat) => if 2 ≤ t.2 then some (t.2 - 2) else none))

/-- The pool bank of slot `k`. -/
def State.slotBank (s : State) (k : Nat) : Nat := s.fld F.CMP_FC_CFG_FIRST_BANK + k / 32

/-- The address of slot `k`. -/
def State.slotAt (s : State) (k : Nat) : Nat := poolBase + s.fld F.CMP_FC_CFG_FIRST_BANK * bankSize + k * 0x4000

/-- An access to a slot in bank `b` failed (R214). -/
def State.slotFail (s : State) (b : Nat) : State :=
  let f := s.fld F.CMP_FC_CFG_FIRST_BANK
  let s := { s with cmp := { s.cmp with banned := b :: s.cmp.banned } }
  let s := { s with heads := s.heads.map (fun (e : Nat × HeadSt) =>
    (e.1, { e.2 with tiles := e.2.tiles.filter (fun (t : Nat × Nat) => !(decide (2 ≤ t.2) && decide (f + (t.2 - 2) / 32 = b))) })) }
  (s.setFld F.CMP_FC_STATUS_ACCESS_ERR 1).fire Src.CMP_FC_ERR

/-- Every tile of every head INVALID. -/
def State.tilesInvalid (s : State) : State :=
  { s with heads := s.heads.map (fun (e : Nat × HeadSt) => (e.1, { e.2 with tiles := [] })) }

/-- A static source of head `n` is on. -/
def HeadSt.staticOn (x : HeadSt) (n : Nat) : Bool :=
  (List.range 4).any (fun p => decide (x.afld (F.HEAD_TP_CFG_STATIC_EN n p) = 1) && decide (x.afld (F.HEAD_TP_CFG_BPP n p) ≠ 3)) ||
  (List.range 4).any (fun b => x.bitmapOn n b)

/-- The INVALID tiles that may be flattened, as head × 4,096 + tile, in order (R211). -/
def State.flatCands (s : State) : List Nat :=
  (List.range 6).flatMap (fun n =>
    if s.scanning n then
      ((List.range (ceilDiv (s.vActive n) 64)).flatMap (fun ty => (List.range (ceilDiv (s.hActive n) 64)).filterMap (fun tx =>
        if AMap.get (s.head n).tiles (ty * 64 + tx) 0 = 0 then some (n * 4096 + ty * 64 + tx) else none)))
    else [])

/-- The lowest free slot in a bank that is not banned. -/
def State.freeSlot (s : State) : Option Nat :=
  let used := s.slotsUsed
  (List.range (32 * s.fld F.CMP_FC_CFG_BANK_COUNT)).find? (fun k => !used.contains k && !s.cmp.banned.contains (s.slotBank k))

/-- The base of the `w` pixels from (`px`, `py`), from its live sources. -/
def State.baseRow (s : State) (n : Nat) (x : HeadSt) (px py : Nat) : Nat → List BasePx × State
  | 0 => ([], s)
  | w + 1 =>
    let r := s.baseRow n x px py w
    let b := r.2.basePx n x (px + w) py
    (r.1 ++ [b.1], b.2)

/-- A tile's state set. -/
def State.setTile (s : State) (n t v : Nat) : State :=
  s.setHead n { s.head n with tiles := AMap.set (s.head n).tiles t v 0 }

/-- Tile `t` of head `n` is flattened into slot `k`. -/
def State.flattenInto (s : State) (n t k : Nat) : State :=
  let x := s.head n
  let x0 := t % 64 * 64
  let y0 := t / 64 * 64
  let w := min 64 (s.hActive n - x0)
  let r := (List.range (min 64 (s.vActive n - y0))).foldl (fun (z : List BasePx × State) j =>
    let q := z.2.baseRow n x x0 (y0 + j) w
    (z.1 ++ q.1 ++ List.replicate (64 - w) ({} : BasePx), q.2)) ([], s)
  let s := r.2
  if r.1.all (fun b => b.a == 0) then s.setTile n t 1
  else
    let w := s.memWrite (s.engine 9 true) (s.slotAt k) (freeBytes s.free 0x4000)
    if w.st = .ok then
      let s := w.s.skipFree 0x4000
      { s with cmp := { s.cmp with base := AMap.set s.cmp.base k r.1 [] } }.setTile n t (k + 2)
    else w.s.slotFail (s.slotBank k)

/-- The composer flattens the next INVALID tile, in time in which no head has a line that it may produce (R201). -/
def State.flattenTile (s : State) : State :=
  if ¬ s.domOn 118 ∨ ¬ s.flag F.CMP_FC_CFG_FC_EN ∨ (List.range 6).any (fun n => (s.lineDue n s.now).isSome) then s
  else
    let cs := s.flatCands
    match (cs.find? (fun c => decide (s.cmp.fcNext ≤ c))).or cs.head? with
    | none => s
    | some c =>
      let n := c / 4096
      let t := c % 4096
      let s := { s with cmp := { s.cmp with fcNext := c + 1 } }
      if ¬ (s.head n).staticOn n then s.setTile n t 1
      else
        match s.freeSlot with
        | none => s.setFld F.CMP_FC_STATUS_FULL 1
        | some k => s.flattenInto n t k

/-- The slots of the VALID tiles on line `y` are read: of each the 256 bytes that hold its row (log entry 48). -/
def State.slotReads (s : State) (n y : Nat) : State :=
  if (s.head n).live then s else
  ((s.head n).tiles.filter (fun (t : Nat × Nat) => decide (t.1 / 64 = y / 64) && decide (2 ≤ t.2))).foldl (fun s (t : Nat × Nat) =>
    let k := t.2 - 2
    if AMap.get (s.head n).tiles t.1 0 = 0 then s
    else
      let r := s.memRead (s.engine 9 true) (s.slotAt k + y % 64 * 256) 256
      if r.st = .ok then r.s else r.s.slotFail (s.slotBank k)) s

/-! ### Write-back (R215 to R218) -/

/-- Pieces of 64 bytes written in turn: how many writes failed. -/
def State.putPieces (s : State) (q : Req) (a : Nat) (bs : List Byte) : Nat → Nat × State
  | 0 => (0, s)
  | k + 1 =>
    let r := s.putPieces q a bs k
    let w := r.2.memWrite q (a + 64 * k) ((bs.drop (64 * k)).take 64)
    (if w.st = .ok then r.1 else r.1 + 1, w.s)

/-- The first `k` lines of the capture's queue are written, until a write fails. -/
def State.wbDrain (s : State) (n : Nat) : Nat → State
  | 0 => s
  | k + 1 =>
    match (s.head n).cap with
    | none => s
    | some c =>
      match c.queue with
      | [] => s
      | l :: rest =>
        if c.failed then s
        else
          let w := s.putPieces (s.ringReq (.wb n)) (c.addr + l.1 * c.pitch) l.2 (ceilDiv l.2.length 64)
          let c := if w.1 = 0 then { c with queue := rest } else { c with queue := [], failed := true }
          (w.2.setHead n { w.2.head n with cap := some c }).wbDrain n k

/-- A committed line enters the queue of the capture, which holds 8 lines, once `drained` of those in it have been written
(R217). -/
def State.wbLine (s : State) (n y : Nat) (ps : List Px) (drained : Nat) : State :=
  let s := s.wbDrain n drained
  let x := s.head n
  match x.cap with
  | none => s
  | some c =>
    if c.frame ≠ x.cFrame ∨ c.failed ∨ c.ended then s
    else if 8 ≤ c.queue.length then
      (s.setHead n { x with cap := some { c with dropped := c.dropped + 1 } }).setFld (F.CMP_HEAD_STATUS_WB_DROP n) 1
    else
      let j := s.jobBytes (.wb n) (ps.flatMap (fun p => (p.store c.fmt).bytes c.fmt))
      j.2.setHead n { j.2.head n with cap := some { c with queue := c.queue ++ [(y, j.1)] } }

/-- The capture ends (R218) once every line of its frame has been composed or was late, a write has failed or scan-out has
stopped; what its queue holds is written first. -/
def State.wbComplete (s : State) (n : Nat) : State :=
  let x := s.head n
  match x.cap with
  | none => s
  | some c =>
    let past : Bool := decide (c.frame ≠ x.cFrame) || decide (s.vActive n ≤ max x.cLine x.lateTo)
    if !past && !c.ended && !c.failed then s
    else
      let s := s.wbDrain n c.queue.length
      let c := ((s.head n).cap).getD c
      let st := if c.stopped then 4 else if c.failed then 2 else if c.late + c.dropped ≠ 0 then 1 else 0
      let s := (s.setHead n { s.head n with cap := none }).setFld (Ring.wb n).busy 0
      s.complete (.wb n) st c.tag c.frame (c.late % 65536 + c.dropped % 65536 * 65536)

/-! ### Lines (R200 to R205) -/

/-- `k` sprite entries of head `n` from the table (R182). -/
def State.sprites (s : State) (n : Nat) : Nat → List (List Byte) × State
  | 0 => ([], s)
  | k + 1 =>
    let r := s.sprites n k
    let x := r.2.head n
    let e := r.2.offRead n (x.afld (F.HEAD_SP_ATTR_OFFSET n) * 64 + 16 * k) 16
    (r.1 ++ [toBytes 16 (e.1.getD 0)], e.2)

/-- The sprites drawn on line `y`: the 96 lowest-numbered that count (R183). -/
def State.lineSprites (s : State) (n y : Nat) : List Nat × State :=
  let x := s.head n
  let t := x.spr.getD []
  let l := (List.range t.length).filter (fun i => sprCounts (t.getD i []) x.cFrame y (s.hActive n))
  if 96 < l.length then
    (l.take 96, ((s.bump (R.HEAD_SPR_OVERFLOW_COUNT n)).setFld (F.HEAD_LAYER_STATUS_SPR_OVERFLOW n) 1).fire (Src.HEAD n 5))
  else (l, s)

/-- The alarm cells of line `y`, as a mask over `k` cells (R225). -/
def State.alarmMask (s : State) (n y : Nat) : Nat → Nat × State
  | 0 => (0, s)
  | k + 1 =>
    let r := s.alarmMask n y k
    let x := r.2.head n
    let e := r.2.alarmEntry n x (16 * k) y
    (r.1 + (if x.alarmShown n e.1 x.cFrame then 2 ^ k else 0), e.2)

/-- The line scroll words of line `y` (R170). -/
def State.lineScroll (s : State) (n y : Nat) : List Nat × State :=
  [0, 1, 2, 3].foldl (fun (z : List Nat × State) p =>
    let x := z.2.head n
    if x.afld (F.HEAD_TP_CFG_LS_EN n p) = 1 then
      let r := z.2.offRead n (x.afld (F.HEAD_TP_LS_OFFSET n p) * 64 + 4 * y) 4
      (z.1 ++ [r.1.getD 0], r.2)
    else (z.1 ++ [0], z.2)) ([], s)

/-- What the composer does once before it produces a line. -/
def State.lineBegin (s : State) (n : Nat) : State :=
  let y := (s.head n).cLine
  let s := match (s.head n).spr with
    | some _ => s
    | none =>
      let r := s.sprites n (min 512 ((s.head n).afld (F.HEAD_SP_CFG_COUNT n)))
      r.2.setHead n { r.2.head n with spr := some r.1 }
  let l := s.lineSprites n y
  let c := l.2.lineScroll n y
  let m := if (s.head n).afld (F.HEAD_AL_CFG_ENABLE n) = 1 then c.2.alarmMask n y (ceilDiv (s.hActive n) 16) else (0, c.2)
  let s := m.2.setHead n { m.2.head n with lineSpr := l.1, ls := c.1, mask := m.1, buf := [] }
  s.slotReads n y

/-- Every raster-time register of head `n` takes a free value (U-06). -/
def State.scramble (s : State) (n : Nat) : State :=
  (List.range 1088).foldl (fun (s : State) r =>
    match regAt (R.HEAD_PAL n 0 + 4 * r) with
    | some (row, k) => (s.plainWrite ⟨row, k, 0xFFFFFFFF, s.freeVal % 2 ^ 32⟩).skipFree
    | none => s) s

/-- `k` pixels produced from the beam on, each from free raster-time registers once those are unpredictable (U-06). -/
def State.produce (s : State) (n : Nat) : Nat → List Px × State
  | 0 => ([], s)
  | k + 1 =>
    let r := s.produce n k
    let t := if (r.2.head n).u06 then r.2.scramble n else r.2
    let p := t.composePx n ((t.head n).cPix + k) (t.head n).cLine
    (r.1 ++ [p.1], p.2)

/-- The composer produces pixels of the next line, as far as Meridian lets it (R188, R200), when it is the line's turn
(R201); a line whose cut-off has passed is late (R203). -/
def State.lineCompose (s : State) (n : Nat) : State :=
  if ¬ s.scanning n ∨ ¬ s.domOn 118 ∨ ¬ (s.head n).comp then s
  else
    let s := ((s.merFrameStart n).wbStart n).passLate n
    let x := s.head n
    if s.vActive n ≤ x.cLine ∨ x.cLine < x.lateTo then s
    else if s.cutOff n x.cLine ≤ s.now then (s.linesLate n x.cLine).passLate n
    else if ¬ s.composeTurn n x.cLine (max s.now (s.lineFrom n x.cLine)) then s
    else
      match s.beamLimit n with
      | none => if x.u06 then s.skipFree else s
      | some p =>
        if p ≤ x.cPix then s
        else
          let s := s.until (s.lineFrom n x.cLine)
          let s := if x.ls.isEmpty then s.lineBegin n else s
          let r := s.produce n (p - x.cPix)
          let y := r.2.head n
          r.2.setHead n { y with buf := y.buf ++ r.1, cPix := p, merW := [] }

/-- A committed line enters AL_EXP (R225). -/
def HeadSt.alarmLine (x : HeadSt) (n y : Nat) (ps : List Px) : Nat :=
  (List.zip (List.range ps.length) ps).foldl (fun (c : Nat) (e : Nat × Px) =>
    if x.inAlarm n x.mask e.1 then
      crcWord c (pxWord (x.dither n x.cFrame e.1 y true (e.2.store (x.afld (F.HEAD_FS_FORMAT n)))))
    else c) x.alExp

/-- The composed line is committed (R202, R205), and goes to the capture, of whose queue `drained` lines have been written.
From its cut-off on it is late. -/
def State.lineCommit (s : State) (n drained : Nat) : State :=
  let x := s.head n
  let y := x.cLine
  if ¬ s.scanning n ∨ ¬ s.domOn 118 ∨ ¬ x.comp ∨ s.vActive n ≤ y ∨ y < x.lateTo ∨ x.cPix < s.hActive n then s
  else if s.cutOff n y ≤ s.now then (s.linesLate n y).passLate n
  else
    let fmt := x.afld (F.HEAD_FS_FORMAT n)
    let bs := x.buf.flatMap (fun p => (p.store fmt).bytes fmt)
    let a := poolBase + x.afld (F.HEAD_FS_FIRST_BANK n) * bankSize + y * x.afld (F.HEAD_FS_STRIDE n)
    let w := s.putPieces (s.engine 9 true) a bs (ceilDiv bs.length 64)
    let s := if w.1 = 0 then w.2 else (w.2.setFld (F.CMP_HEAD_STATUS_WRITE_ERR n) 1).fire (Src.HEAD n 7)
    let s := s.wbLine n y x.buf drained
    let z := s.head n
    let z := { z with alExp := x.alarmLine n y x.buf, masks := AMap.set z.masks y x.mask 0 }
    s.setHead n { z with cLine := y + 1, cPix := 0, buf := [], ls := [] }

/-- The cut-off of the first line that is neither committed nor late passes (R203). -/
def State.lineLate (s : State) (n : Nat) : State :=
  let x := s.head n
  let y := max x.cLine x.lateTo
  if ¬ s.scanning n ∨ ¬ x.comp ∨ s.vActive n ≤ y then s
  else
    let s := (s.merFrameStart n).wbStart n
    ((s.until (s.cutOff n y)).linesLate n y).passLate n

/-! ### CMP registers -/

/-- A write to CMP_FC_CFG. -/
def State.fcWrite (s : State) (w : RegW) : State :=
  let old := s.reg w.k
  let w := if bit old 31 then w.without 0x7FFFFFFF else w
  let v := w.merged old
  if ¬ bit w.m 31 then s.setReg w.k v
  else
    let s := { s with cmp := { s.cmp with banned := [] } }
    if bit v 31 then
      let c := bits v 16 8
      let f := bits v 0 9
      let ok : Bool := decide (1 ≤ c) && decide (c ≤ 128) && decide (f + c ≤ 288) &&
        (List.range c).all (fun i => decide (bits (s.ownInForce (f + i)) 0 4 = 9))
      if ok then (s.setReg w.k v).setFld F.CMP_FC_STATUS_CFG_ERR 0
      else (s.setReg w.k (putBits v 31 1 (b2n (bit old 31)))).setFld F.CMP_FC_STATUS_CFG_ERR 1
    else (s.setReg w.k v).tilesInvalid

/-- A write to a CMP register. -/
def cmpWrite (s : State) (q : Req) (w : RegW) : Acc :=
  let n := (w.k - R.CMP_HEAD_CFG 0) / 0x40
  if w.k = R.CMP_FC_CFG then okAcc (s.fcWrite w)
  else if w.row.key = R.CMP_HEAD_CFG 0 then
    let l := w.newFld (s.reg w.k) (F.CMP_HEAD_CFG_LEAD n)
    okAcc (if l < 8 ∨ 128 < l then s else s.plainWrite w)
  else if w.row.key = R.CMP_WB_BASE 0 then okAcc (s.ringBase (.wb n) w)
  else if w.row.key = R.CMP_WB_CFG 0 then
    if w.newFld (s.reg w.k) (F.CMP_WB_CFG_DIVIDER n) = 0 then okAcc s
    else
      match s.ringCfg (.wb n) w with
      | none => okAcc s
      | some t =>
        okAcc (if (t.ringSt (.wb n)).stopping then (t.ringStopped (.wb n)).setHead n { t.head n with cap := none } else t)
  else if w.row.key = R.CMP_WB_DB 0 then s.doorbell q (.wb n) (w.newFld (s.reg w.k) (Ring.wb n).prod)
  else okAcc (s.plainWrite w)

/-- What a read of a CMP register returns: SLOTS_USED and COMPOSING are formed when read. -/
def cmpRead (s : State) (k : Nat) : Nat :=
  if k = R.CMP_FC_STATUS then putBits (s.reg k) 16 13 s.slotsUsed.length
  else
    let n := (k - R.CMP_HEAD_CFG 0) / 0x40
    if k = R.CMP_HEAD_STATUS n then putBits (s.reg k) 0 1 (b2n (s.scanning n)) else s.reg k

end Sys2Proof.Machine
end

