-- ==== Sys2Proof/Machine/Gust.lean ====
section
/-! DEFINITION. Gust engines (chapter 12): steps, instructions, FIFOs, starting and stopping, ownership. -/

namespace Sys2Proof.Machine

/-- Engine `e` beside its registers. -/
def State.eng (s : State) (e : Nat) : GstEng := AMap.get s.gst e {}

def State.setEng (s : State) (e : Nat) (x : GstEng) : State := { s with gst := AMap.set s.gst e x {} }

/-- Group `g` admits `q` (R331). -/
def State.gstAdmits (s : State) (q : Req) (g : Nat) : Bool := s.admits q (s.fld (F.GST_GROUP_OWN_OWNER g)) (s.gstS g)

/-- A length or count field in which 0 stands for 32. -/
def or32 (v : Nat) : Nat := if v = 0 then 32 else v

/-- The frame length of register `r` (0 SA, 1 SB). -/
def State.gstLen (s : State) (e r : Nat) : Nat :=
  or32 (if r = 0 then s.fld (F.GST_ENG_CFG_LEN_A e) else s.fld (F.GST_ENG_CFG_LEN_B e))

/-- The link of register `r`: 1 fed from the TX FIFO, 2 drained to the RX FIFO (R315). -/
def State.gstLink (s : State) (e r : Nat) : Nat :=
  if r = 0 then s.fld (F.GST_ENG_CFG_LINK_A e) else s.fld (F.GST_ENG_CFG_LINK_B e)

/-- Shift register `r` and its bit count. -/
def GstEng.sr (x : GstEng) (r : Nat) : Nat × Nat := if r = 0 then (x.sa, x.ca) else (x.sb, x.cb)

def GstEng.setSr (x : GstEng) (r v c : Nat) : GstEng := if r = 0 then { x with sa := v, ca := c } else { x with sb := v, cb := c }

/-- RX_REQ and TX_REQ of engine `e` (R328). -/
def State.rxReq (s : State) (e : Nat) : Bool :=
  s.gstOn (e / 4) && decide (max (s.fld (F.GST_ENG_CFG_RX_WM e)) 1 ≤ (s.eng e).rxf.length)

def State.txReq (s : State) (e : Nat) : Bool :=
  s.gstOn (e / 4) && decide (max (s.fld (F.GST_ENG_CFG_TX_WM e)) 1 ≤ 8 - (s.eng e).txf.length)

/-! ### Pins (R322 to R325) -/

/-- The input at window position `p` (R314, R322, R324). Beyond pin 255 it is undefined (U-08). -/
def State.gstIn (s : State) (e p : Nat) : Bool :=
  if 32 ≤ p ∨ s.fld (F.GST_ENG_WIN_WIN_COUNT e) ≤ p then false
  else
    let pin := s.fld (F.GST_ENG_WIN_WIN_BASE e) + p
    if 255 < pin then bit (Config.freeValue (s.free + p)).toNat 0
    else s.pinIn pin && (s.gstS (e / 4) || !s.pinS pin)

/-- The window reaches beyond pin 255 (U-08). -/
def State.gstBeyond (s : State) (e : Nat) : Bool :=
  decide (256 < s.fld (F.GST_ENG_WIN_WIN_BASE e) + s.fld (F.GST_ENG_WIN_WIN_COUNT e))

/-- Bit `p` of OUT_VAL, or of OUT_EN when `en`, takes `b`; positions from 32 up are ignored. -/
def State.gstPut (s : State) (e : Nat) (en : Bool) (p : Nat) (b : Bool) : State :=
  if 32 ≤ p then s else s.setFld ⟨if en then R.GST_ENG_OUTE e else R.GST_ENG_OUTV e, p, 1⟩ (b2n b)

/-- Positions `p`, `p + 1`, … take the low `n` bits of `d`. -/
def State.gstPuts (s : State) (e : Nat) (en : Bool) (p n d : Nat) : State :=
  (List.range n).foldl (fun s i => s.gstPut e en (p + i) (bit d i)) s

/-- The side pins take entry `m` (R313). -/
def State.gstSide (s : State) (e m : Nat) : State :=
  let ent := bits (s.reg (R.GST_ENG_SIDE e (m / 4))) (8 * (m % 4)) 8
  let p := s.fld (F.GST_ENG_CFG_SIDE_POS e)
  (List.range 4).foldl (fun s i => if bit ent (4 + i) then s.gstPut e false (p + i) (bit ent i) else s) s

/-! ### Instructions (R311 to R321) -/

/-- One bit into LINE_CRC (R314). -/
def crc16Bit (c : Nat) (b : Bool) : Nat :=
  let v := c * 2 % 2 ^ 16
  if bit c 15 != b then Nat.xor v 0x1021 else v

/-- A legal instruction (R311). -/
def gstLegal (w : Nat) : Bool :=
  match bits w 28 4 with
  | 1 => if bit w 18 then decide (bits w 13 3 ≤ 4) else decide (bits w 13 3 ≤ 4) && decide (bits w 13 3 ≠ 1)
  | 3 => decide (bits w 17 2 ≠ 3)
  | 4 => decide (bits w 15 4 ≤ 12) && decide (bits w 13 2 ≠ 3)
  | 2 => true
  | 5 => true
  | 6 => true
  | 7 => true
  | 8 => true
  | 9 => true
  | _ => false

/-- What one try of an instruction gives: whether it completed, the branch target taken, the machine. -/
structure GstTry where
  done  : Bool
  taken : Option Nat := none
  s     : State

/-- The sent bits and the register after it, for `n` bits of frame `v` of `c` bits (R314). -/
def gstSend (msb : Bool) (v c n : Nat) : Nat × Nat :=
  if msb then (v % 2 ^ c * 2 ^ n / 2 ^ c % 2 ^ n, v) else (v % 2 ^ n, v / 2 ^ n)

/-- The register after `n` bits `d` are received into `v`, which counts `c` bits (R314). -/
def gstTake (msb : Bool) (v c n d : Nat) : Nat :=
  if msb then (v * 2 ^ n + d) % 2 ^ 32
  else if c < 32 then putBits v c (min n (32 - c)) d else v

/-- SHIFT out (R314, R315). -/
def State.gstShiftOut (s : State) (e w : Nat) : GstTry :=
  let x := s.eng e
  let r := bits w 16 1
  let n := or32 (bits w 0 5)
  let go (x : GstEng) (v c : Nat) : GstTry :=
    let d := gstSend (bit w 17) v c n
    let s := s.setEng e (x.setSr r d.2 (c - n))
    match bits w 13 3 with
    | 0 => ⟨true, none, s.gstPuts e false (s.fld (F.GST_ENG_WIN_OUT_POS e)) n d.1⟩
    | 1 => ⟨true, none, s.gstPuts e true (s.fld (F.GST_ENG_WIN_OUT_POS e)) n d.1⟩
    | 2 => ⟨true, none, s.setReg (R.GST_ENG_X e) d.1⟩
    | 3 => ⟨true, none, s.setReg (R.GST_ENG_Y e) d.1⟩
    | _ => ⟨true, none, s⟩
  if s.gstLink e r = 1 ∧ (x.sr r).2 = 0 then
    match x.txf with
    | [] => ⟨false, none, s⟩
    | v :: t => go { x with txf := t } v (s.gstLen e r)
  else go x (x.sr r).1 (x.sr r).2

/-- SHIFT in (R314, R315). -/
def State.gstShiftIn (s : State) (e w : Nat) : GstTry :=
  let x := s.eng e
  let r := bits w 16 1
  let n := or32 (bits w 0 5)
  let msb := bit w 17
  let v := (x.sr r).1
  let c := (x.sr r).2
  let c' := min (c + n) 32
  let push : Bool := decide (s.gstLink e r = 2) && decide (s.gstLen e r ≤ c')
  if push && decide (8 ≤ x.rxf.length) then ⟨false, none, s⟩
  else
    let p := s.fld (F.GST_ENG_WIN_IN_POS e)
    let pin := (List.range n).map (fun i => s.gstIn e (p + i))
    let d : Nat := match bits w 13 3 with
      | 0 => (List.range n).foldl (fun a i => a + b2n (pin.getD i false) * 2 ^ i) 0
      | 2 => s.reg (R.GST_ENG_X e) % 2 ^ n
      | 3 => s.reg (R.GST_ENG_Y e) % 2 ^ n
      | _ => 0
    let crc := if bits w 13 3 = 0 then (if msb then pin.reverse else pin).foldl crc16Bit x.crc else x.crc
    let v' := gstTake msb v c n d
    let x := { x with crc := crc }
    ⟨true, none, s.setEng e (if push then { x.setSr r 0 0 with rxf := x.rxf ++ [v'] } else x.setSr r v' c')⟩

/-- SHIFT. -/
def State.gstShift (s : State) (e w : Nat) : GstTry := if bit w 18 then s.gstShiftOut e w else s.gstShiftIn e w

/-- DRIVE. -/
def State.gstDrive (s : State) (e w : Nat) : GstTry :=
  ⟨true, none, s.gstPuts e (bit w 18) (bits w 13 5) (bits w 8 3 + 1) (bits w 0 8)⟩

/-- AWAIT (R316); a pulse counts from the issue edge on, and completes a step later than the edge of its arrival. -/
def State.gstAwait (s : State) (e w : Nat) (issue : Bool) : GstTry :=
  match bits w 17 2 with
  | 0 => ⟨s.gstIn e (bits w 8 5) == bit w 16, none, s⟩
  | 1 =>
    let c := bits w 8 8
    if issue then
      ⟨false, none, s.setEng e { s.eng e with
        pulse := if s.here.contains c && (s.gstS (e / 4) || !s.chS c) then some s.now else none }⟩
    else ⟨(s.eng e).pulse.any (fun a => decide (a < s.now)), none, s⟩
  | _ =>
    let k := if bit w 8 then R.GST_ENG_Y e else R.GST_ENG_X e
    if s.reg k = 0 then ⟨true, none, s⟩ else ⟨false, none, s.setReg k (s.reg k - 1)⟩

/-- The condition of a BRANCH. -/
def State.gstCond (s : State) (e w : Nat) : Bool :=
  let x := s.reg (R.GST_ENG_X e)
  let y := s.reg (R.GST_ENG_Y e)
  match bits w 15 4 with
  | 0 => true
  | 1 => x == 0
  | 2 => x != 0
  | 3 => y == 0
  | 4 => y != 0
  | 5 => x == y
  | 6 => x != y
  | 7 => s.gstIn e (bits w 8 5)
  | 8 => !s.gstIn e (bits w 8 5)
  | 9 => (s.eng e).txf.isEmpty
  | 10 => decide (8 ≤ (s.eng e).rxf.length)
  | 11 => (s.eng e).ca == 0
  | _ => decide (s.gstLen e 1 ≤ (s.eng e).cb)

/-- A counter minus 1, modulo 2^32. -/
def dec32 (v : Nat) : Nat := (v + 2 ^ 32 - 1) % 2 ^ 32

/-- BRANCH. -/
def State.gstBranch (s : State) (e w : Nat) : GstTry :=
  let hit := s.gstCond e w
  let s' := match bits w 13 2 with
    | 1 => s.setReg (R.GST_ENG_X e) (dec32 (s.reg (R.GST_ENG_X e)))
    | 2 => s.setReg (R.GST_ENG_Y e) (dec32 (s.reg (R.GST_ENG_Y e)))
    | _ => s
  ⟨true, if hit then some (bits w 0 6) else none, s'⟩

/-- COUNT. -/
def State.gstCount (s : State) (e w : Nat) : GstTry :=
  let k := if bit w 18 then R.GST_ENG_Y e else R.GST_ENG_X e
  let o := if bit w 18 then R.GST_ENG_X e else R.GST_ENG_Y e
  let v := match bits w 16 2 with
    | 0 => bits w 0 16
    | 1 => dec32 (s.reg k)
    | 2 => s.reg k % 2 ^ 16 + bits w 0 16 * 2 ^ 16
    | _ => s.reg o
  ⟨true, none, s.setReg k v⟩

/-- XFER (R317). -/
def State.gstXfer (s : State) (e w : Nat) : GstTry :=
  let x := s.eng e
  let r := bits w 14 2
  let pull := bit w 18
  let len := s.gstLen e r
  let c := (x.sr r).2
  if r < 2 ∧ (bit w 16 = true) ∧ (if pull then c ≠ 0 else c < len) then ⟨true, none, s⟩
  else if pull then
    match x.txf with
    | [] => ⟨!bit w 17, none, s⟩
    | v :: t =>
      let x := { x with txf := t }
      if r < 2 then ⟨true, none, s.setEng e (x.setSr r v len)⟩
      else ⟨true, none, (s.setEng e x).setReg (if r = 2 then R.GST_ENG_X e else R.GST_ENG_Y e) v⟩
  else
    let v := if r < 2 then (x.sr r).1 else if r = 2 then s.reg (R.GST_ENG_X e) else s.reg (R.GST_ENG_Y e)
    let y := if r < 2 then x.setSr r 0 0 else x
    if 8 ≤ x.rxf.length then
      if bit w 17 then ⟨false, none, s⟩
      else ⟨true, none, (s.setEng e y).setFld (F.GST_ENG_STATUS_RX_DROP e) 1⟩
    else ⟨true, none, s.setEng e { y with rxf := x.rxf ++ [v] }⟩

/-- SIGNAL (R318). -/
def State.gstSignal (s : State) (e w : Nat) : GstTry :=
  ⟨true, none, s.directFire (s.engine 12 (s.gstS (e / 4))) (bits w 0 8)⟩

/-- STAMP (R319). -/
def State.gstStamp (s : State) (e w : Nat) : GstTry :=
  let x := s.eng e
  let t := s.stc % 2 ^ 32
  if bit w 18 then
    if 8 ≤ x.rxf.length then ⟨false, none, s⟩ else ⟨true, none, s.setEng e { x with rxf := x.rxf ++ [t] }⟩
  else ⟨true, none, s.setEng e { x with stamp := some t }⟩

/-- The sample record of a CHECK (R320). -/
def State.gstRecord (s : State) (e w : Nat) : List Byte :=
  let x := s.eng e
  let cx := s.reg (R.GST_ENG_X e)
  let v := match bits w 17 2 with
    | 0 => x.sb
    | 1 => if x.cb = 0 then 0 else wrap 64 (sext x.cb x.sb)
    | 2 => cx * 2 ^ 32 + x.sb
    | _ => cx
  let r := toBytes 8 v ++ toBytes 4 (x.stamp.getD (s.stc % 2 ^ 32)) ++
    toBytes 2 (s.fld (F.GST_ENG_SRC_SRC_BASE e) + bits w 0 8)
  r ++ toBytes 2 (crc16 r)

/-- CHECK (R320, R321). -/
def State.gstCheck (s : State) (e w : Nat) : GstTry :=
  let x := s.eng e
  let clr := { x with sb := 0, cb := 0, crc := 0xFFFF, stamp := none }
  if bit w 16 && x.crc != 0 then
    let s := ((s.setEng e clr).bump (R.GST_ENG_ERRCNT e)).setFld (F.GST_ENG_STATUS_LINE_ERR e) 1
    ⟨true, none, s.fire Src.GST_LINE_ERR⟩
  else if 8 < x.rxf.length + 4 then ⟨false, none, s⟩
  else
    let r := s.gstRecord e w
    ⟨true, none, s.setEng e { clr with rxf := x.rxf ++ (List.range 4).map (fun i => leAt r (4 * i) 4) }⟩

/-- One try of a legal instruction `w`. -/
def State.gstTry (s : State) (e w : Nat) (issue : Bool) : GstTry :=
  match bits w 28 4 with
  | 1 => s.gstShift e w
  | 2 => s.gstDrive e w
  | 3 => s.gstAwait e w issue
  | 4 => s.gstBranch e w
  | 5 => s.gstCount e w
  | 6 => s.gstXfer e w
  | 7 => s.gstSignal e w
  | 8 => s.gstStamp e w
  | _ => s.gstCheck e w

/-! ### Steps (R308 to R310, R312) -/

/-- STATE follows the phase of an engine that runs. -/
def State.gstShow (s : State) (e : Nat) : State :=
  let x := s.eng e
  let st : Nat := if ¬ s.flag (F.GST_ENG_CTRL_ENABLE e) then 0 else if x.word.isSome then 2 else if x.delay ≠ 0 then 3 else 1
  s.setFld (F.GST_ENG_STATUS_STATE e) st

/-- RESTART's effect (R329). -/
def State.gstClear (s : State) (e : Nat) : State :=
  let x := s.eng e
  let s := s.setEng e { txf := x.txf, rxf := x.rxf, k := x.k, next := x.next }
  ((s.setFld (F.GST_ENG_STATUS_PC e) (s.fld (F.GST_ENG_PC_START e))).setReg (R.GST_ENG_LOOPS e) 0).setAll
    [(R.GST_ENG_X e, 0), (R.GST_ENG_Y e, 0)]

/-- PC advances past a completed instruction (R310). -/
def State.gstAdvance (s : State) (e : Nat) : State :=
  let x := s.eng e
  let pc := s.fld (F.GST_ENG_STATUS_PC e)
  if ¬ x.done then s
  else
    let s := s.setEng e { x with done := false, taken := none }
    match x.taken with
    | some t => s.setFld (F.GST_ENG_STATUS_PC e) t
    | none =>
      if pc = s.fld (F.GST_ENG_PC_WRAP_TOP e) then
        (s.setFld (F.GST_ENG_STATUS_PC e) (s.fld (F.GST_ENG_PC_WRAP_BOTTOM e))).setFld (F.GST_ENG_LOOPS_LOOPS e)
          (s.fld (F.GST_ENG_LOOPS_LOOPS e) + 1)
      else s.setFld (F.GST_ENG_STATUS_PC e) (pc + 1)

/-- What a try leaves of the phase: completed with its delay, or stalled with the word latched. -/
def GstTry.close (t : GstTry) (e w : Nat) : State :=
  let x := t.s.eng e
  t.s.setEng e (if t.done then { x with word := none, done := true, taken := t.taken, delay := bits w 23 5 }
    else { x with word := some w })

/-- The word at PC of engine `e`. -/
def State.gstWord (s : State) (e : Nat) : Nat := s.reg (R.GST_PROG (e / 4) (s.fld (F.GST_ENG_STATUS_PC e)))

/-- The instruction at PC issues (R309, R312, R313). -/
def State.gstIssue (s : State) (e : Nat) : State :=
  let w := s.gstWord e
  if gstLegal w then
    let t := s.gstTry e w true
    { t with s := t.s.gstSide e (bits w 19 4) }.close e w |>.gstShow e
  else
    (((s.setFld (F.GST_ENG_CTRL_ENABLE e) 0).setFld (F.GST_ENG_STATUS_STATE e) 4).setFld
      (F.GST_ENG_STATUS_ILLEGAL e) 1).fire Src.GST_FAULT

/-- Engine `e` runs: enabled, in a group that is on. -/
def State.gstRuns (s : State) (e : Nat) : Bool := s.gstOn (e / 4) && s.flag (F.GST_ENG_CTRL_ENABLE e)

/-- The interval after a step with step counter `k` (R308). -/
def State.gstInterval (s : State) (e k : Nat) : Nat :=
  let n := s.fld (F.GST_ENG_DIV_DIV_INT e)
  (if n = 0 then 65536 else n) + b2n (decide (reverseBits 8 k < s.fld (F.GST_ENG_DIV_DIV_FRAC e)))

/-- RESTART and DIV_RESTART that wait for the step take effect, and the next step is placed (R308, R329). -/
def State.gstBegin (s : State) (e : Nat) : State :=
  let s := s.until (s.eng e).next
  let s := if s.flag (F.GST_ENG_CTRL_RESTART e) then (s.setFld (F.GST_ENG_CTRL_RESTART e) 0).gstClear e else s
  let x := s.eng e
  let k := if s.flag (F.GST_ENG_CTRL_DIV_RESTART e) then 0 else x.k
  (s.setFld (F.GST_ENG_CTRL_DIV_RESTART e) 0).setEng e
    { x with k := (k + 1) % 256, next := x.next + s.gstInterval e k }

/-- The step that engine `e` has taken is noted: its edge, and the words it pushed to an RX FIFO that held `n` (R329). -/
def State.gstNote (s : State) (e n : Nat) : State :=
  s.setEng e { s.eng e with stepAt := some s.now, put := (s.eng e).rxf.length - n }

/-- A step of engine `e` (R309). -/
def State.gstStep (s : State) (e : Nat) : State :=
  if ¬ s.gstRuns e then s
  else
    let n := (s.eng e).rxf.length
    let s := s.gstBegin e
    let x := s.eng e
    let s := if x.delay ≠ 0 then (s.setEng e { x with delay := x.delay - 1 }).gstShow e
      else match x.word with
        | some w => ((s.gstTry e w false).close e w).gstShow e
        | none => (s.gstAdvance e).gstIssue e
    let s := s.gstNote e n
    if s.gstBeyond e then s.skipFree 32 else s

/-- A step of engine `e` that is due on this edge is taken: it sees the FIFOs as they stood before the edge (R327). -/
def State.gstDue (s : State) (e : Nat) : State := if s.gstRuns e && decide ((s.eng e).next = s.now) then s.gstStep e else s

/-- The word that the engine's next step tries: the latched one, or the one it issues; none in a delay. -/
def State.gstNext (s : State) (e : Nat) : Option Nat :=
  if ¬ s.gstRuns e then none
  else
    let s := s.gstBegin e
    if (s.eng e).delay ≠ 0 then none
    else match (s.eng e).word with
      | some w => some w
      | none => some ((s.gstAdvance e).gstWord e)

/-- A step that tries a legal instruction of TYPE `t`; nothing where the next step does not. -/
def State.gstRun (s : State) (e t : Nat) : State :=
  match s.gstNext e with
  | some w => if gstLegal w && decide (bits w 28 4 = t) then s.gstStep e else s
  | none => s

/-- A step that issues an illegal instruction (R312). -/
def State.gstIllegal (s : State) (e : Nat) : State :=
  match s.gstNext e with
  | some w => if gstLegal w then s else s.gstStep e
  | none => s

/-- A stalled instruction completes at the step at which it can (R309). -/
def State.gstStallEnd (s : State) (e : Nat) : State :=
  if s.gstRuns e && !s.flag (F.GST_ENG_CTRL_RESTART e) && (s.eng e).word.isSome then
    let t := s.gstStep e
    if (t.eng e).word.isNone then t else s
  else s

/-! ### Starting and stopping (R329) -/

/-- A start of engine `e`: the step counter and LOOPS begin at 0, and the first step falls now. -/
def State.gstStart (s : State) (e : Nat) : State :=
  let s := (s.setFld (F.GST_ENG_CTRL_ENABLE e) 1).setEng e { s.eng e with k := 0, next := s.now }
  (s.setReg (R.GST_ENG_LOOPS e) 0).gstShow e

/-- ENABLE becomes 0: the engine freezes. -/
def State.gstStop (s : State) (e : Nat) : State :=
  if s.flag (F.GST_ENG_CTRL_ENABLE e) then (s.setFld (F.GST_ENG_CTRL_ENABLE e) 0).gstShow e else s

/-- RESTART: at once on an engine that does not run, at its next step otherwise. -/
def State.gstRestart (s : State) (e : Nat) : State :=
  if s.flag (F.GST_ENG_CTRL_ENABLE e) then s.setFld (F.GST_ENG_CTRL_RESTART e) 1 else (s.gstClear e).gstShow e

/-- FIFO_CLR (R329): what a step pushed on this edge stays. -/
def State.gstFifoClr (s : State) (e : Nat) : State :=
  let s := s.gstDue e
  let x := s.eng e
  let keep := if x.stepAt = some s.now then x.put else 0
  s.setEng e { x with txf := [], rxf := x.rxf.drop (x.rxf.length - keep) }

/-- The engines among those of mask `m` that `q` may start or stop, and whether a bit is refused. -/
def State.gstPick (s : State) (q : Req) (m : Nat) : List Nat × Bool :=
  let l := (List.range 64).filter (fun e => bit m e)
  (l.filter (fun e => s.gstAdmits q (e / 4) && s.gstOn (e / 4)), l.any (fun e => !s.gstAdmits q (e / 4)))

/-- A write of `m` to GST_START or GST_STOP. -/
def State.gstGroupCmd (s : State) (q : Req) (start : Bool) (m : Nat) : Acc :=
  let p := s.gstPick q m
  let s := p.1.foldl (fun s e => if start then s.gstStart e else s.gstStop e) s
  if p.2 then refAcc s q true .gst 0 else okAcc s

/-! ### GST registers (R326, R327, R330, R331) -/

/-- The engine whose register lies at key `k`. -/
def gstEngOf (k : Nat) : Nat := (k - 0x91000) / 0x400 * 4 + (k % 0x400 - 0x200) / 0x80

/-- A word is pushed to the TX FIFO (R327). -/
def State.gstTxPush (s : State) (e v : Nat) : State :=
  let s := s.gstDue e
  let x := s.eng e
  if 8 ≤ x.txf.length then s.setFld (F.GST_ENG_STATUS_TX_OVER e) 1 else s.setEng e { x with txf := x.txf ++ [v] }

/-- A word is popped from the RX FIFO (R327). -/
def State.gstRxPop (s : State) (e : Nat) : Nat × State :=
  let s := s.gstDue e
  match (s.eng e).rxf with
  | [] => (0, s.setFld (F.GST_ENG_STATUS_RX_UNDER e) 1)
  | v :: r => (v, s.setEng e { s.eng e with rxf := r })

/-- A write to CTRL of engine `e`. -/
def State.gstCtrl (s : State) (e : Nat) (w : RegW) : State :=
  let was := s.flag (F.GST_ENG_CTRL_ENABLE e)
  let s := if w.one (F.GST_ENG_CTRL_FIFO_CLR e) then s.gstFifoClr e else s
  let s := if w.one (F.GST_ENG_CTRL_DIV_RESTART e) then s.setFld (F.GST_ENG_CTRL_DIV_RESTART e) 1 else s
  let s := if w.one (F.GST_ENG_CTRL_RESTART e) then s.gstRestart e else s
  if w.one (F.GST_ENG_CTRL_ENABLE e) && !was then s.gstStart e
  else if w.nil (F.GST_ENG_CTRL_ENABLE e) then s.gstStop e else s

/-- A write to a GST register. -/
def gstWrite (s : State) (q : Req) (w : RegW) : Acc :=
  if w.k = R.GST_START then s.gstGroupCmd q true (Nat.land w.v w.m)
  else if w.k = R.GST_STOP then s.gstGroupCmd q false (Nat.land w.v w.m)
  else if w.k < 0x91000 then okAcc (s.plainWrite w)
  else
    let g := (w.k - 0x91000) / 0x400
    if ¬ s.gstAdmits q g then refAcc s q true .gst 0
    else if w.row.key = R.GST_GROUP_OWN 0 then okAcc (s.setReg w.k (ownMerged q w (s.reg w.k)))
    else if ¬ s.gstOn g then offAcc s true 0
    else if w.row.key = R.GST_PROG 0 0 then okAcc (s.plainWrite w)
    else
      let e := gstEngOf w.k
      let run := s.flag (F.GST_ENG_CTRL_ENABLE e)
      let v := w.merged (s.reg w.k)
      if w.k = R.GST_ENG_CTRL e then okAcc (s.gstCtrl e w)
      else if w.row.key = R.GST_ENG_TXF 0 0 then okAcc (s.gstTxPush e (Nat.land w.v w.m))
      else if w.k = R.GST_ENG_DIV e ∨ w.k = R.GST_ENG_PC e then okAcc (s.plainWrite w)
      else if w.k = R.GST_ENG_WIN e then okAcc (if run ∨ 32 < bits v 8 6 then s else s.plainWrite w)
      else if w.k = R.GST_ENG_CFG e then
        okAcc (if run ∨ bits v 30 2 = 3 ∨ bits v 28 2 = 3 ∨ 8 < bits v 9 4 ∨ 8 < bits v 5 4 then s else s.plainWrite w)
      else if w.k = R.GST_ENG_STATUS e ∨ w.k = R.GST_ENG_ERRCNT e then okAcc (s.plainWrite w)
      else okAcc (if run then s else s.plainWrite w)

/-- A read of a GST register: its 4 or 8 bytes. -/
def gstRead (s : State) (q : Req) (k n : Nat) : Acc :=
  if k < 0x91000 then ⟨.ok, toBytes n (s.reg k), s⟩
  else
    let g := (k - 0x91000) / 0x400
    let o := k % 0x400
    if o = 0 then ⟨.ok, toBytes n (s.reg k), s⟩
    else if ¬ s.gstAdmits q g then refAcc s q false .gst n
    else if ¬ s.gstOn g then offAcc s false n
    else if o < 0x200 then ⟨.ok, toBytes n (s.reg k), s⟩
    else
      let e := gstEngOf k
      if R.GST_ENG_RXF e 0 ≤ k ∧ k < R.GST_ENG_RXF e 4 then
        let p := s.gstRxPop e
        ⟨.ok, toBytes n p.1, p.2⟩
      else if k = R.GST_ENG_STATUS e then
        ⟨.ok, toBytes n (putBits (putBits (s.reg k) 16 4 (s.eng e).rxf.length) 12 4 (s.eng e).txf.length), s⟩
      else ⟨.ok, toBytes n (s.reg k), s⟩

end Sys2Proof.Machine
end

