-- ==== Sys2Proof/Machine/Gpio.lean ====
section
/-! DEFINITION. Pins (chapter 13): functions, output writes, ownership and lock, detectors, supplies, pad latches. -/

namespace Sys2Proof.Machine

/-- Pin `p` carries function `f` (R333). -/
def carries (p f : Nat) : Bool :=
  match f with
  | 4 => decide (192 ≤ p ∧ p ≤ 211)
  | 5 => decide (224 ≤ p ∧ p ≤ 227)
  | 6 => decide (228 ≤ p ∧ p ≤ 231)
  | 7 => decide (232 ≤ p ∧ p ≤ 241)
  | 8 => decide (242 ≤ p ∧ p ≤ 245)
  | 9 => decide (p = 254 ∨ p = 255)
  | _ => decide (f < 4)

/-! ### Detectors (R344) -/

/-- A sample of pin `p` at level `v` (R336, R344): GPIO_IN takes it and the detector compares it with the sample
before. -/
def State.pinSample (s : State) (p : Nat) (v : Bool) : State :=
  let was := bit (s.reg (R.GPIO_IN (p / 32))) (p % 32)
  let s := s.setFld ⟨R.GPIO_IN (p / 32), p % 32, 1⟩ (b2n v)
  let hit : Bool := match s.fld (F.GPIO_PIN_INT_MODE p) with
    | 1 => !was && v
    | 2 => was && !v
    | 3 => was != v
    | 4 => v
    | 5 => !v
    | _ => false
  let f : Fld := ⟨R.GPIO_INT_STAT (p / 32), p % 32, 1⟩
  if hit && !s.flag f then (s.setFld f 1).fire (Src.PIN p) else s

/-- The level that the input of pin `p` shows (R325, R337, R339): 0 while the supply is bad; the device's own drive; what
the board drives; else what the pull gives, where a keeper holds the last level and no pull leaves a free level. -/
def State.padInput (s : State) (p : Nat) (board : Option Bool) : Bool :=
  if ¬ s.pinPg p then false
  else
    match s.padSeen p, board, s.fld (F.GPIO_PIN_CFG_PULL p) with
    | some v, _, _ => v
    | none, some v, _ => v
    | none, none, 0 => bit s.freeVal 0
    | none, none, 1 => true
    | none, none, 2 => false
    | none, none, _ => s.pinIn p

/-- The pad of pin `p` floats without a pull. -/
def State.padFloats (s : State) (p : Nat) (board : Option Bool) : Bool :=
  s.pinPg p && (s.padSeen p).isNone && board.isNone && decide (s.fld (F.GPIO_PIN_CFG_PULL p) = 0)

/-- The pin's input is sampled on one GUST edge; `board` is the level that the board drives at the pad, if it drives one. -/
def State.pinDetect (s : State) (p : Nat) (board : Option Bool) : State :=
  let v := s.padInput p board
  (if s.padFloats p board then s.skipFree else s).pinSample p v

/-- The supply of bank `k` crosses its power-good threshold (R339): while it is bad the bank's inputs read 0. -/
def State.vddio (s : State) (k : Nat) (good : Bool) : State :=
  let s := s.setFld (F.GPIO_BANK_CFG_PG k) (b2n good)
  if good then s else (List.range 32).foldl (fun s i => s.pinSample (32 * k + i) false) s

/-! ### Hold (R347, R348) -/

/-- Pin `p` enters hold with the drive that its pad shows; a waveform is caught at a free level. -/
def State.pinHold (s : State) (p : Nat) : State :=
  if s.pinHeld p then s
  else
    let d := s.padShown p
    let t := if d.wave then s.skipFree else s
    let d := if d.wave then
        { d with v := bit s.freeVal 0, en := !d.turn || bit s.freeVal 1, wave := false, turn := false }
      else d
    let t := { t with pins := { t.pins with held := AMap.set t.pins.held p d {} } }
    t.setFld ⟨R.GPIO_HOLD (p / 32), p % 32, 1⟩ 1

/-- Pins enter hold. -/
def State.pinsHold (s : State) (l : List Nat) : State := l.foldl State.pinHold s

/-- Pin `p` leaves hold. -/
def State.pinRelease (s : State) (p : Nat) : State :=
  if s.pinHeld p then
    { s.setFld ⟨R.GPIO_HOLD (p / 32), p % 32, 1⟩ 0 with pins := { s.pins with held := AMap.erase s.pins.held p } }
  else s

/-- The pins whose function-1 drive group `g` supplies (R347). -/
def State.gstPins (s : State) (g : Nat) : List Nat :=
  (List.range 256).filter (fun p => decide (s.pinFunc p = 1) && (List.range 4).any (fun k =>
    let b := s.fld (F.GST_ENG_WIN_WIN_BASE (4 * g + k))
    decide (b ≤ p) && decide (p < b + s.fld (F.GST_ENG_WIN_WIN_COUNT (4 * g + k)))))

/-- The pins of a list that select function `f`. -/
def State.pinsOf (s : State) (l : List Nat) (f : Nat) : List Nat := l.filter (fun p => decide (s.pinFunc p = f))

/-- The pins that enter hold when domain `d` switches off (R347). -/
def State.holdOf (s : State) (d : Nat) : List Nat :=
  if 125 ≤ d ∧ d < 141 then s.gstPins (d - 125)
  else if d = 124 then s.pinsOf ((List.range 20).map (· + 192)) 4
  else if 112 ≤ d ∧ d < 118 then s.pinsOf [232 + (d - 112)] 7
  else if d = 141 ∨ d = 142 then s.pinsOf [238 + (d - 141), 240 + (d - 141)] 7
  else if d = 147 then s.pinsOf [242, 243, 244] 8
  else if d = 148 then s.pinsOf [245] 8
  else []

/-! ### GPIO registers (R340 to R343) -/

/-- Pin `p` admits writes of `q` (R341). -/
def State.pinAdmits (s : State) (q : Req) (p : Nat) : Bool := s.admits q (s.fld (F.GPIO_PIN_OWN_OWNER p)) (s.pinS p)

/-- A masked write of 16 pins from `p0` on to the register at key `k`: the bits of `mask`, with values `v`; whether a
bit was refused (R340). -/
def State.pinBits (s : State) (q : Req) (k p0 mask v : Nat) : Bool × State :=
  (List.range 16).foldl (fun (a : Bool × State) i =>
    if ¬ bit mask i then a
    else if a.2.pinAdmits q (p0 + i) then (a.1, (a.2.setFld ⟨k, i, 1⟩ (b2n (bit v i))).pinRelease (p0 + i))
    else (true, a.2)) (false, s)

/-- An access of which some bits may be refused. -/
def partAcc (q : Req) (t : Target) (r : Bool × State) : Acc := if r.1 then refAcc r.2 q true t 0 else okAcc r.2

/-- A write to an output or enable register (R340). -/
def State.gpioOutWrite (s : State) (q : Req) (w : RegW) : Acc :=
  let o := (w.k - R.GPIO_OUT_LO 0) % 0x40
  let mask := Nat.land (bits (Nat.land w.v w.m) 16 16) (bits w.m 0 16)
  let rel := Nat.land (bits (Nat.land w.v w.m) 16 16) (2 ^ 16 - 1 - bits w.m 0 16)
  let r := s.pinBits q w.k (o * 4) mask w.v
  let x := (List.range 16).foldl (fun (a : Bool × State) i =>
    if ¬ bit rel i then a
    else if a.2.pinAdmits q (o * 4 + i) then (a.1, a.2.pinRelease (o * 4 + i)) else (true, a.2)) r
  partAcc q .gpio x

/-- A write to GPIO_INT_STAT: each bit is checked against its own pin (R341). -/
def State.gpioStatWrite (s : State) (q : Req) (w : RegW) : Acc :=
  let k := (w.k - R.GPIO_INT_STAT 0) / 4
  let v := Nat.land w.v w.m
  partAcc q .gpio ((List.range 32).foldl (fun (a : Bool × State) i =>
    if ¬ bit v i then a
    else if a.2.pinAdmits q (32 * k + i) then (a.1, a.2.setFld ⟨w.k, i, 1⟩ 0)
    else (true, a.2)) (false, s))

/-- An admitted write to GPIO_PIN_CFG_p (R335, R343, R346, R347). -/
def State.pinCfgWrite (s : State) (p : Nat) (w : RegW) : State :=
  let s := s.pinRelease p
  if s.flag (F.GPIO_PIN_LOCK_LOCKED p) then s.setFld F.GPIO_STATUS_LOCK_WR 1
  else
    let v := w.merged (s.reg w.k)
    if carries p (bits v 0 4) then s.setReg w.k v
    else (s.setReg w.k (putBits v 0 4 (s.pinFunc p))).setFld F.GPIO_STATUS_FUNC_ERR 1

/-- An admitted write to KEY of GPIO_PIN_LOCK_p (R342). -/
def State.pinKeyWrite (s : State) (p : Nat) (w : RegW) : State :=
  if Nat.land w.m 0xFFFF = 0 then s
  else
    let key := if Nat.land w.m 0xFFFF = 0xFFFF then bits w.v 0 16 else 0
    let was := s.pins.armed.contains p
    let l := s.pins.armed.filter (· != p)
    let s := { s with pins := { s.pins with armed := if key = 0xC3A5 then p :: l else l } }
    if was && decide (key = 0x5A3C) then s.setFld (F.GPIO_PIN_LOCK_LOCKED p) 1 else s

/-- A write to a GPIO register. -/
def gpioWrite (s : State) (q : Req) (w : RegW) : Acc :=
  if w.k < 0x71000 then
    let p := w.k % 0x400 / 4
    if ¬ s.pinAdmits q p then refAcc s q true .gpio 0
    else if w.row.key = R.GPIO_PIN_LOCK 0 then okAcc (s.pinKeyWrite p w)
    else if w.row.key = R.GPIO_PIN_CFG 0 then okAcc (s.pinCfgWrite p w)
    else if s.flag (F.GPIO_PIN_LOCK_LOCKED p) then okAcc (s.setFld F.GPIO_STATUS_LOCK_WR 1)
    else if w.row.key = R.GPIO_PIN_OWN 0 then okAcc (s.setReg w.k (ownMerged q w (s.reg w.k)))
    else okAcc (if 6 ≤ bits (w.merged (s.reg w.k)) 0 3 then s else s.plainWrite w)
  else if w.k < 0x71080 then s.gpioOutWrite q w
  else if w.row.key = R.GPIO_INT_STAT 0 then s.gpioStatWrite q w
  else if w.row.key = R.GPIO_BANK_CFG 0 then
    if ¬ q.s then refAcc s q true .gpio 0
    else okAcc (if bits (w.merged (s.reg w.k)) 0 2 = 3 then s else s.plainWrite w)
  else okAcc (s.plainWrite w)

/-- The bits of `v` whose pins, from `p0` on, have attribute N. -/
def State.onlyN (s : State) (p0 n v : Nat) : Nat :=
  (List.range n).foldl (fun a i => if s.pinS (p0 + i) then a else a + v / 2 ^ i % 2 * 2 ^ i) 0

/-- The inputs of bank `k`. -/
def State.pinsIn (s : State) (k : Nat) : Nat :=
  (List.range 32).foldl (fun a i => a + b2n (s.pinIn (32 * k + i)) * 2 ^ i) 0

/-- What a read of a GPIO register returns: an N requester reads 0 for an S pin (R341). -/
def gpioRead (s : State) (q : Req) (k : Nat) : Nat :=
  let v := if R.GPIO_IN 0 ≤ k ∧ k < R.GPIO_INT_STAT 0 then s.pinsIn ((k - R.GPIO_IN 0) / 4) else s.reg k
  if q.s then v
  else if k < 0x71000 then if s.pinS (k % 0x400 / 4) then 0 else v
  else if k < 0x71080 then s.onlyN ((k - 0x71000) % 0x40 * 4) 16 v
  else if k < 0x710E0 then s.onlyN ((k - 0x71080) % 0x20 * 8) 32 v
  else v

end Sys2Proof.Machine
end

