-- ==== Sys2Proof/Machine/Gale.lean ====
section
/-! DEFINITION. Gale (chapter 18): tone channels, crosspoint, equalisers, TDM ports and memory streams. -/

namespace Sys2Proof.Machine

/-! ### Tone channels (R411 to R414) -/

def State.tone (s : State) (c : Nat) : Tone := AMap.get s.gal.tones c {}

def State.setTone (s : State) (c : Nat) (x : Tone) : State :=
  { s with gal := { s.gal with tones := AMap.set s.gal.tones c x {} } }

/-- Key-on (R412). -/
def State.keyOn (s : State) (c : Nat) : State :=
  (s.setTone c { s.tone c with phi := 0 }).setFld (F.GAL_TONE_STATUS_STATE c) 1

/-- Key-off (R412). -/
def State.keyOff (s : State) (c : Nat) : State :=
  if s.fld (F.GAL_TONE_STATUS_STATE c) = 0 then s else s.setFld (F.GAL_TONE_STATUS_STATE c) 4

/-- The cadence ends. -/
def State.cadEnd (s : State) (c : Nat) : State :=
  (s.setTone c { s.tone c with next := 0, left := 0, toneB := false }).setFld (F.GAL_TONE_STATUS_CAD_RUN c) 0

/-- A start action (R413). -/
def State.toneStart (s : State) (c : Nat) : State :=
  if s.flag (F.GAL_TONE_CFG_CAD_EN c) then
    (s.setTone c { s.tone c with next := 0, left := 0, toneB := false }).setFld (F.GAL_TONE_STATUS_CAD_RUN c) 1
  else s.keyOn c

/-- A stop action (R413). -/
def State.toneStop (s : State) (c : Nat) : State :=
  (if s.flag (F.GAL_TONE_STATUS_CAD_RUN c) then s.cadEnd c else s).keyOff c

/-- Key action `a` of channel `c`: 0 start, 1 stop, 2 toggle, 3 nothing (R413). -/
def State.toneKey (s : State) (c a : Nat) : State :=
  match a with
  | 0 => s.toneStart c
  | 1 => s.toneStop c
  | 2 =>
    let st := s.fld (F.GAL_TONE_STATUS_STATE c)
    if s.flag (F.GAL_TONE_STATUS_CAD_RUN c) ∨ (1 ≤ st ∧ st ≤ 3) then s.toneStop c else s.toneStart c
  | _ => s

/-- Step `k` of the cadence starts (R414). -/
def State.cadStep (s : State) (c k : Nat) : State :=
  let v := s.reg (R.GAL_TONE_CAD c k)
  let s := (s.setTone c { s.tone c with next := k + 1, left := bits v 0 16 * 48, toneB := bit v 30 }).setFld
    (F.GAL_TONE_STATUS_CAD_STEP c) k
  if bit v 31 then s.keyOn c else s.keyOff c

/-- The table ends at step `k`. -/
def State.cadOver (s : State) (c k : Nat) : Bool := decide (8 ≤ k) || decide (bits (s.reg (R.GAL_TONE_CAD c k)) 0 16 = 0)

/-- The step of a running cadence that is due starts; at the table's end step 0 does, or the cadence stops. -/
def State.cadDue (s : State) (c : Nat) : State :=
  if ¬ s.flag (F.GAL_TONE_STATUS_CAD_RUN c) ∨ (s.tone c).left ≠ 0 then s
  else
    let k := (s.tone c).next
    if s.cadOver c k = false then s.cadStep c k
    else if s.flag (F.GAL_TONE_CFG_CAD_LOOP c) ∧ s.cadOver c 0 = false then s.cadStep c 0
    else (s.cadEnd c).keyOff c

/-- The envelope and its state in the next frame (R412), from the rates and the sustain level. -/
def envStep (e st a d r sus : Nat) : Nat × Nat :=
  match st with
  | 1 => let e := if a = 0 then 2 ^ 23 else min (e + a) (2 ^ 23)
         (e, if e = 2 ^ 23 then 2 else 1)
  | 2 => let e := if d = 0 then sus else max (e - d) sus
         (e, if e = sus then 3 else 2)
  | 3 => (sus, 3)
  | 4 => let e := if r = 0 then 0 else e - r
         (e, if e = 0 then 0 else 4)
  | _ => (0, st)

/-- wave(φ) of R411. -/
def State.wave (s : State) (c phi l : Nat) : Int :=
  match s.fld (F.GAL_TONE_CFG_WAVE c) with
  | 0 => if phi < 2 ^ 31 then 2 ^ 23 - 1 else -(2 ^ 23 - 1)
  | 1 =>
    let u : Int := (phi / 2 ^ 7 : Nat)
    if u < 2 ^ 24 then u - 2 ^ 23 else (2 ^ 25 - 1 - u) - 2 ^ 23
  | 2 => ((phi / 2 ^ 8 : Nat) : Int) - 2 ^ 23
  | 3 => ((l * 2 : Nat) : Int) - 2 ^ 23
  | 4 => sext 24 (s.reg (R.GAL_WT (s.fld (F.GAL_TONE_CFG_WTABLE c)) (phi / 2 ^ 24)))
  | _ => 0

/-- The noise register after one advance (R411). -/
def noiseStep (l : Nat) : Nat := (l * 2 + (bit l 22 != bit l 17).toNat) % 2 ^ 23

/-- Tone channel `c` in a frame after its key actions (R411): its sample. -/
def State.toneFrame (s : State) (c : Nat) : Int × State :=
  let s := s.cadDue c
  let x := s.tone c
  let st := s.fld (F.GAL_TONE_STATUS_STATE c)
  if st = 0 ∧ x = {} ∧ s.fld (F.GAL_TONE_STATUS_ENV c) = 0 ∧ s.reg (R.GAL_TONE_INC_A c) = 0 then (0, s)
  else
    let v (k : Nat) : Nat := s.reg k
    let e := envStep (s.fld (F.GAL_TONE_STATUS_ENV c)) st (v (R.GAL_TONE_ATTACK c)) (v (R.GAL_TONE_DECAY c))
      (v (R.GAL_TONE_RELEASE c)) (min (v (R.GAL_TONE_SUSTAIN c)) (2 ^ 23))
    let inc := v (if x.toneB then R.GAL_TONE_INC_B c else R.GAL_TONE_INC_A c)
    let w := s.wave c x.phi x.l
    let l := if s.fld (F.GAL_TONE_CFG_WAVE c) = 3 && Nat.ble (2 ^ 32) (x.phi + inc) then noiseStep x.l else x.l
    let y := asr (asr (w * (e.1 : Int)) 23 * (s.fld (F.GAL_TONE_CFG_LEVEL c) : Int)) 16
    let s := s.setTone c { x with phi := (x.phi + inc) % 2 ^ 32, l := l, left := x.left - 1 }
    (y, (s.setFld (F.GAL_TONE_STATUS_STATE c) e.2).setFld (F.GAL_TONE_STATUS_ENV c) e.1)

/-- The AUD cycle in which GUST cycle `t` lies: 512 take 31,250 thirds of a GUST cycle. -/
def audCycle (t : Nat) : Nat := 3 * 512 * t / 31250

/-- Key action `e` is due in a frame that starts at `t3`: a register write takes effect before the start edge (R410), an
event reaches the task input at least 4 AUD cycles before it (R413). -/
def Key.due (e : Key) (t3 : Nat) : Bool :=
  if e.act = 2 then Nat.ble (3 * 512 * e.at_ + 4 * 31250) (512 * t3) else Nat.blt (3 * e.at_) t3

/-- The action of key `e`: an event takes what ACT selects (R413). -/
def State.keyAct (s : State) (e : Key) : Nat := if e.act = 2 then s.fld (F.GAL_TONE_CFG_ACT e.ch) else e.act

/-- Key actions and tone channels of a frame that starts at `t3`: the 32 tone samples. -/
def State.tonesFrame (s : State) (t3 : Nat) : List Int × State :=
  let s := (s.gal.keys.filter (·.due t3)).foldl (fun (s : State) e => s.toneKey e.ch (s.keyAct e))
    { s with gal := { s.gal with keys := s.gal.keys.filter (fun e => !e.due t3) } }
  (List.range 32).foldl (fun (a : List Int × State) c =>
    let r := a.2.toneFrame c
    (a.1 ++ [r.1], r.2)) ([], s)

/-! ### Memory streams (R422 to R427) -/

/-- The buffer of stream `n`. -/
def State.galBuf (s : State) (n : Nat) : Option GalBuf := AMap.get s.gal.bufs n none

def State.setGalBuf (s : State) (n : Nat) (b : Option GalBuf) : State :=
  { s with gal := { s.gal with bufs := AMap.set s.gal.bufs n b none } }

def State.setGalNext (s : State) (n : Nat) (b : Option (Nat × GalBuf)) : State :=
  { s with gal := { s.gal with next := AMap.set s.gal.next n b none } }

/-- The doorbell that covers the descriptor at index `i` was accepted at least 1,024 AUD cycles before a frame that
starts at `t3` (R424). -/
def State.galRipe (s : State) (n i t3 : Nat) : Bool :=
  match (AMap.get s.gal.bells n []).find? (fun (e : Nat × Nat) =>
      let d := (e.1 + 65536 - i) % 65536
      decide (0 < d) && decide (d ≤ 4096)) with
  | some e => Nat.ble (3 * e.2 + 62500) t3
  | none => false

/-- Ring `n` stops (R532). -/
def State.galStop (s : State) (n : Nat) : State :=
  if (s.ringSt (.gal n)).stopping then ((s.setGalBuf n none).setGalNext n none).ringStopped (.gal n) else s

/-- A CANCEL that waits ends the buffer in progress at the frame boundary (R427). -/
def State.galCancelBuf (s : State) (n : Nat) : State :=
  match s.galBuf n with
  | some b => if b.code.isNone ∧ ((s.ringSt (.gal n)).cancelTo.isSome = true) then
      s.setGalBuf n (some { b with code := some (1, 1, 0) }) else s
  | none => s

/-- The buffer that the descriptor at index `i` of stream `n` names (R422); one that breaks the limits, or that could not be
read, has ended. -/
def State.galDescr (s : State) (n i : Nat) : GalBuf × State :=
  let r := Ring.gal n
  let a := s.slotAddr r i
  let d := s.memRead (s.ringReq r) a 32
  let b : GalBuf := { addr := leAt d.data 0 8, frames := leAt d.data 8 4, tag := leAt d.data 12 4, first := 0 }
  match d.st with
  | .ok =>
    if b.addr % 64 ≠ 0 ∨ (Nat.ble (2 ^ 44) b.addr = true) ∨ b.frames = 0 ∨ 65536 < b.frames then
      ({ b with code := some (1, 2, 0) }, d.s)
    else (b, d.s)
  | st => ({ b with tag := d.s.freeVal % 2 ^ 32, code := some (2, (match st with | .refused => 1 | _ => 3), a) }, d.s.skipFree)

/-- Stream `n` takes its next descriptor in a frame that starts at `t3` (R424); it may have been read ahead. -/
def State.galTake (s : State) (n t3 : Nat) : State :=
  let r := Ring.gal n
  let i := s.fld r.cons
  if (s.galBuf n).isSome ∨ s.flag (F.GAL_STR_STATUS_HALTED n) ∨ s.ringReady r = false ∨ s.galRipe n i t3 = false then s
  else
    let d := match AMap.get s.gal.next n none with
      | some (j, b) => if j = i then (b, s) else s.galDescr n i
      | none => s.galDescr n i
    let b := if d.1.code.isNone then { d.1 with first := s.reg R.GAL_FRAME } else d.1
    let s := ((d.2.setGalNext n none).setFld r.busy 1).setGalBuf n (some b)
    if b.code.any (fun c => c.1 == 2) then s.setFld (F.GAL_STR_STATUS_HALTED n) 1 else s

/-- The buffer of stream `n` that this frame processes. -/
def State.galLive (s : State) (n : Nat) : Option GalBuf :=
  match s.galBuf n with
  | some b => if b.code.isNone then some b else none
  | none => none

/-- An access of stream `n` failed (R426). -/
def State.galFail (s : State) (n st a : Nat) : State :=
  match s.galBuf n with
  | some b => if b.code.isSome then s else
      (s.setGalBuf n (some { b with code := some (2, st, a) })).setFld (F.GAL_STR_STATUS_HALTED n) 1
  | none => s

/-- The bytes of a stream sample. -/
def State.galB (s : State) (n : Nat) : Nat := if s.flag (F.GAL_STR_FMT_FMT n) then 2 else 4

/-- The address of sample `j` of the present frame of a buffer (R423). -/
def State.galAddr (s : State) (n : Nat) (b : GalBuf) (j : Nat) : Nat :=
  b.addr + (b.k * s.fld (F.GAL_STR_FMT_CHANNELS n) + j) * s.galB n

/-- The answers to the reads of frame `b.k` of a playback buffer. -/
def State.galFetch (s : State) (n : Nat) (b : GalBuf) : List (Status × Nat × Nat) × State :=
  (List.range (s.fld (F.GAL_STR_FMT_CHANNELS n))).foldl (fun (x : List (Status × Nat × Nat) × State) j =>
    let a := x.2.galAddr n b j
    let r := x.2.memRead (x.2.ringReq (.gal n)) a (x.2.galB n)
    (x.1 ++ [(r.st, ofBytes r.data, a)], r.s)) ([], s)

/-- The sample that the answer `e` to a read gives (R423); a failed one is 0 (R426). -/
def State.galSample (s : State) (n : Nat) (e : Status × Nat × Nat) : Int × State :=
  match e.1 with
  | .ok =>
    let d := s.jobBytes (.gal n) (toBytes (s.galB n) e.2.1)
    let v := ofBytes d.1
    (if s.galB n = 2 then sext 24 (v * 256) else sext 24 (v / 256), d.2)
  | .refused => (0, s.galFail n 1 e.2.2)
  | .error => (0, s.galFail n 3 e.2.2)

/-- The descriptor at index `i` of stream `n`, `held` others before it, is read ahead with the reads of its frame 0, where
it can be taken in the frame that starts at `t3`. -/
def State.galReadAhead (s : State) (n i held t3 : Nat) : State :=
  let r := Ring.gal n
  if s.flag (F.GAL_STR_STATUS_HALTED n) || !s.flag r.enable || (s.ringSt r).stopping || (s.ringSt r).cancelTo.isSome ||
     Nat.ble (s.ringHeld r) held || !s.galRipe n i t3 then s
  else
    let d := s.galDescr n i
    if d.1.code.isSome then d.2.setGalNext n (some (i, d.1))
    else
      let f := d.2.galFetch n d.1
      f.2.setGalNext n (some (i, { d.1 with ahead := some f.1 }))

/-- In the frame before the one that starts at `t3`, playback stream `n` sends the reads of that frame (R424): of its
buffer, or of the next one once the descriptor is ripe. -/
def State.galAhead (s : State) (n t3 : Nat) : State :=
  let cons := s.fld (Ring.gal n).cons
  let more := match s.galLive n with
    | some b => decide (b.k + 1 < b.frames)
    | none => false
  match s.galBuf n with
  | some b =>
    if more then
      let f := s.galFetch n { b with k := b.k + 1 }
      f.2.setGalBuf n (some { b with ahead := some f.1 })
    else s.galReadAhead n ((cons + 1) % 65536) 1 t3
  | none => s.galReadAhead n cons 0 t3

/-- The memory inputs that playback stream `n` feeds in this frame; `late` says that its reads have not returned. The reads
of the next frame, which starts at `t3`, are sent. -/
def State.galPlayFrame (s : State) (n t3 : Nat) (late : Bool) : List (Nat × Int) × State :=
  if s.flag (F.GAL_STR_FMT_DIR n) then ([], s)
  else
    let i (j : Nat) : Nat := s.fld (F.GAL_STR_FMT_FIRST n) + j
    let p : List (Nat × Int) × State := match s.galLive n with
      | none => ([], s)
      | some b =>
        if late then
          ((List.range (s.fld (F.GAL_STR_FMT_CHANNELS n))).map (fun j => (i j, 0)), s.setFld (F.GAL_STR_STATUS_LATE n) 1)
        else
          let f := match b.ahead with
            | some l => (l, s)
            | none => s.galFetch n b
          f.1.foldl (fun (a : List (Nat × Int) × State) e =>
            let r := a.2.galSample n e
            (a.1 ++ [(i a.1.length, r.1)], r.2)) ([], f.2)
    (p.1, p.2.galAhead n t3)

/-- Capture stream `n` writes its samples of this frame from the outputs `y`. -/
def State.galCapture (s : State) (n : Nat) (y : List Int) : State :=
  match s.galLive n with
  | none => s
  | some b =>
    if ¬ s.flag (F.GAL_STR_FMT_DIR n) then s
    else (List.range (s.fld (F.GAL_STR_FMT_CHANNELS n))).foldl (fun (s : State) j =>
      let a := s.galAddr n b j
      let v := y.getD (s.fld (F.GAL_STR_FMT_FIRST n) + j) 0
      let bs := if s.galB n = 2 then toBytes 2 (wrap 16 (asr v 8)) else toBytes 4 (wrap 24 v * 256)
      let d := s.jobBytes (.gal n) bs
      let r := d.2.memWrite (d.2.ringReq (.gal n)) a d.1
      match r.st with
      | .ok => r.s
      | .refused => r.s.galFail n 2 a
      | .error => r.s.galFail n 4 a) s

/-- Stream `n` at the end of a frame: a frame of its buffer is done, or the frame was a gap (R424, R425). -/
def State.galStreamEnd (s : State) (n : Nat) (had : Bool) : State :=
  if ¬ s.flag (F.GAL_STR_CFG_ENABLE n) then s
  else if ¬ had then s.bump (R.GAL_STR_GAP n)
  else match s.galBuf n with
    | some b =>
      let b := { b with k := b.k + 1 }
      s.setGalBuf n (some (if b.code.isNone ∧ b.k = b.frames then { b with code := some (1, 0, 0) } else b))
    | none => s

/-- The record of the buffer of stream `n` that has ended goes to Lull (R425 to R427); without one, a descriptor that a
CANCEL covers completes. -/
def State.galComplete (s : State) (n : Nat) : State :=
  let r := Ring.gal n
  match s.galBuf n with
  | some b =>
    match b.code with
    | none => s
    | some (kind, st, a) =>
      let s := (s.setGalBuf n none).setFld r.busy 0
      if kind = 1 then s.complete r st b.tag b.first b.k
      else s.offer ⟨2, st, 6, n, a % 2 ^ 32, bits a 32 12, b.tag, some r, s.fld r.queue, s.fld r.owner, s.flag r.attr⟩
  | none =>
    if s.flag r.enable ∧ ((s.ringSt r).stopping = false) ∧ ((s.ringSt r).cancelTo.isSome = true) ∧ s.ringHeld r ≠ 0 ∧
       s.holds r = false then
      let d := s.memRead (s.ringReq r) (s.slotAddr r (s.fld r.cons)) 32
      d.s.skipFree.complete r 1 (if d.st = .ok then leAt d.data 12 4 else d.s.freeVal % 2 ^ 32) 0 0
    else s

/-! ### Crosspoint (R415 to R417) -/

/-- Node `k` = output × 64 + input. -/
def State.xpNode (s : State) (k : Nat) : XpNode := AMap.get s.gal.xp k {}

/-- The gain of a node after `k` frames of its ramp (R416). -/
def XpNode.gain (x : XpNode) : Nat := ((x.g0 : Int) + (((x.gt : Int) - (x.g0 : Int)) * (x.k : Int)).tdiv 64).toNat

/-- A node in the next frame: a new endpoint starts a ramp from the last gain; a finished ramp keeps its gain. -/
def XpNode.frame (x : XpNode) : XpNode :=
  let x := if x.endp = x.gt then x else { x with gt := x.endp, g0 := x.gain, k := 0 }
  if x.k < 64 then
    let x := { x with k := x.k + 1 }
    if x.k = 64 then { x with g0 := x.gt } else x
  else x

/-- The endpoint of node `k` takes `v`. -/
def State.setEndpoint (s : State) (k v : Nat) : State :=
  { s with gal := { s.gal with xp := AMap.set s.gal.xp k { s.xpNode k with endp := v } {} } }

/-- Every node moves on by a frame, and CURRENT shows its gain. -/
def State.xpFrame (s : State) : State :=
  let l := s.gal.xp.map (fun (e : Nat × XpNode) => (e.1, e.2.frame))
  let s := l.foldl (fun (s : State) (e : Nat × XpNode) =>
    s.setFld (F.GAL_XP_CURRENT (e.1 / 64) (e.1 % 64)) e.2.gain) s
  { s with gal := { s.gal with xp := l.filter (fun (e : Nat × XpNode) => decide (e.2 ≠ {})) } }

/-- XP_HOLD changes from 1 to 0 (R417): every node takes TARGET as its endpoint. -/
def State.xpRelease (s : State) : State :=
  let ks := s.regs.filterMap (fun (e : Nat × Word) =>
    if R.GAL_XP 0 0 ≤ e.1 ∧ e.1 < R.GAL_XP 32 0 then some ((e.1 - R.GAL_XP 0 0) / 4) else none)
  (s.gal.xp.map (fun (e : Nat × XpNode) => e.1) ++ ks).foldl (fun (s : State) k =>
    s.setEndpoint k (s.fld (F.GAL_XP_TARGET (k / 64) (k % 64)))) s

/-- acc of R415 over the nodes of output `o`, and whether a step saturated. -/
def xpSum (o : Nat) (x : List Int) : List (Nat × XpNode) → Int → Bool → Int × Bool
  | [], a, f => (a, f)
  | e :: r, a, f =>
    if e.1 / 64 = o then
      let v := a + asr (x.getD (e.1 % 64) 0 * (e.2.gain : Int)) 13
      xpSum o x r (satS 32 v) (f || satS 32 v != v)
    else xpSum o x r a f

/-- Output `o` sets its saturation bit. -/
def State.outSat (s : State) (o : Nat) (f : Bool) : State := if f then s.orReg R.GAL_OUT_SAT (2 ^ o) else s

/-- Output `o` of the crosspoint for the inputs `x`. -/
def State.xpOut (s : State) (o : Nat) (x : List Int) : Int × State :=
  let a := xpSum o x s.gal.xp 0 false
  let y := satS 24 a.1
  (y, s.outSat o (a.2 || y != a.1))

/-! ### Equalisers (R418, R419) -/

def State.bq (s : State) (k : Nat) : Bq := AMap.get s.gal.bq k {}

def State.setBq (s : State) (k : Nat) (x : Bq) : State := { s with gal := { s.gal with bq := AMap.set s.gal.bq k x {} } }

/-- A free sample. -/
def State.freeSample (s : State) : Int × State := (sext 24 s.freeVal, s.skipFree)

/-- Section `k` of output `o` turns `x` into its output (R418); undefined for two frames after a coefficient write. -/
def State.section (s : State) (o k : Nat) (x : Int) : Int × State :=
  let b := s.bq k
  if b.free ≠ 0 then
    let f := s.freeSample
    (f.1, f.2.setBq k { free := b.free - 1 })
  else if s.flag (F.GAL_BQ_CTL_BYPASS k) then (x, s.setBq k {})
  else
    let c (r : Nat → Nat) : Int := sext 32 (s.reg (r k))
    let acc := c R.GAL_BQ_B0 * x + c R.GAL_BQ_B1 * b.x1 + c R.GAL_BQ_B2 * b.x2 - c R.GAL_BQ_A1 * b.y1 - c R.GAL_BQ_A2 * b.y2
    let v := asr (acc + 2 ^ 29) 30
    let y := satS 24 v
    (y, (s.setBq k { x1 := x, x2 := b.x1, y1 := y, y2 := b.y1 }).outSat o (y != v))

/-- The chain of output `o` (R418): sections 8o to 8o + 7. -/
def State.chain (s : State) (o : Nat) (x : Int) : Int × State :=
  let open_ := (List.range 8).any (fun i => decide ((s.bq (8 * o + i)).free ≠ 0))
  let r := (List.range 8).foldl (fun (a : Int × State) i => a.2.section o (8 * o + i) a.1) (x, s)
  if open_ then r.2.freeSample else r

/-! ### TDM ports (R420, R421) -/

/-- The slots of port `p`. -/
def State.tdmSlots (s : State) (p : Nat) : Nat := 2 * 2 ^ s.fld (F.GAL_TDM_CFG_SLOTS p)

/-- TDM input `j` for the words `w` received in the wire frame before (port × 16 + slot). -/
def State.tdmIn (s : State) (w : List Nat) (j : Nat) : Int :=
  let p := s.fld (F.GAL_TDM_IN_PORT j)
  let k := s.fld (F.GAL_TDM_IN_SLOT j)
  if s.flag (F.GAL_TDM_IN_EN j) && s.flag (F.GAL_TDM_CFG_EN p) && decide (k < s.tdmSlots p) && s.pinTo (195 + 5 * p) 4 then
    sext 24 (w.getD (16 * p + k) 0 / 256)
  else 0

/-- The word of slot `k` of port `p` in the next wire frame, for the outputs `y`. -/
def State.tdmWord (s : State) (p k : Nat) (y : List Int) : Nat :=
  match (List.range 32).find? (fun o => s.flag (F.GAL_OUT_CFG_EN o) && decide (s.fld (F.GAL_OUT_CFG_PORT o) = p) &&
      decide (s.fld (F.GAL_OUT_CFG_SLOT o) = k)) with
  | some o => wrap 24 (y.getD o 0) * 256
  | none => 0

/-- The words that every running port sends in the next wire frame. -/
def State.tdmSend (s : State) (y : List Int) : State :=
  (List.range 4).foldl (fun (s : State) p =>
    if s.flag (F.GAL_TDM_CFG_EN p) then
      s.emit ⟨.tdmWords, p :: (List.range (s.tdmSlots p)).map (fun k => s.tdmWord p k y), []⟩
    else s) s

/-! ### Sample frames (R409, R410) -/

/-- PEAK of output `o` follows its sample. -/
def State.peak (s : State) (o : Nat) (y : Int) : State :=
  if s.fld (F.GAL_OUT_PEAK_PEAK o) < y.natAbs then s.setFld (F.GAL_OUT_PEAK_PEAK o) y.natAbs else s

/-- The 64 inputs of a frame from the tones, the TDM words and the fed memory inputs. -/
def State.galInputs (s : State) (tones : List Int) (w : List Nat) (mem : List (Nat × Int)) : List Int :=
  tones ++ (List.range 16).map (s.tdmIn w) ++
  (List.range 16).map (fun i => match mem.find? (fun (e : Nat × Int) => e.1 == i) with
    | some e => e.2
    | none => 0)

/-- One sample frame (R410): `w` holds the TDM words received in the wire frame before, `late` the streams whose reads
have not returned. -/
def State.sampleFrame (s : State) (w : List Nat) (late : Nat) : State :=
  if ¬ s.flag F.GAL_CTRL_ENABLE ∨ ¬ s.domOn 124 then s
  else
    let t3 := s.gal.t3
    let s := s.until (ceilDiv t3 3)
    let s := if s.gal.begun then s.setReg R.GAL_FRAME ((s.reg R.GAL_FRAME + 1) % 2 ^ 32) else s
    let s := { s with gal := { s.gal with begun := true, t3 := t3 + 31250 } }
    let ns := List.range 16
    let s := ns.foldl (fun (s : State) n => ((s.galStop n).galCancelBuf n).galTake n t3) s
    let had := ns.map (fun n => (s.galLive n).isSome)
    let tn := s.tonesFrame t3
    let pl := ns.foldl (fun (a : List (Nat × Int) × State) n =>
      let r := a.2.galPlayFrame n (t3 + 31250) (bit late n)
      (a.1 ++ r.1, r.2)) ([], tn.2)
    let s := pl.2.xpFrame
    let x := s.galInputs tn.1 w pl.1
    let out := (List.range 32).foldl (fun (a : List Int × State) o =>
      let y := a.2.xpOut o x
      let z := y.2.chain o y.1
      (a.1 ++ [z.1], z.2.peak o z.1)) ([], s)
    let s := out.2.tdmSend out.1
    let s := ns.foldl (fun (s : State) n => s.galCapture n out.1) s
    ns.foldl (fun (s : State) n => s.galStreamEnd n (had.getD n false)) s

/-! ### GAL registers (R428) -/

/-- A start or stop that a register write gives waits for its frame, before the events that arrived in the same AUD cycle
(R411). -/
def State.galKey (s : State) (c a : Nat) : State :=
  let same (e : Key) : Bool := e.act == 2 && audCycle e.at_ == audCycle s.now
  let l := s.gal.keys.reverse
  { s with gal := { s.gal with
      keys := (l.dropWhile same).reverse ++ ⟨c, a, s.now⟩ :: (l.takeWhile same).reverse } }

/-- A Breeze event that reached the key of tone channel `c` in cycle `t` waits for its frame (R413). -/
def State.galEvent (s : State) (c t : Nat) : State :=
  if s.domOn 124 then { s with gal := { s.gal with keys := s.gal.keys ++ [⟨c, 2, t⟩] } } else s

/-- A coefficient write to section `k` (R419). -/
def State.bqCoef (s : State) (k : Nat) (w : RegW) : State :=
  let s := s.plainWrite w
  if s.flag F.GAL_CTRL_ENABLE && !s.flag (F.GAL_BQ_CTL_BYPASS k) then s.setBq k { free := 2 } else s

/-- A doorbell of stream `n`. -/
def State.galDoorbell (s : State) (q : Req) (n p : Nat) : Acc :=
  let was := s.fld (Ring.gal n).prod
  let r := s.doorbell q (.gal n) p
  if r.s.fld (Ring.gal n).prod = was then r
  else
    let cons := s.fld (Ring.gal n).cons
    let l := (AMap.get s.gal.bells n []).filter (fun (e : Nat × Nat) =>
      let d := (e.1 + 65536 - cons) % 65536
      decide (0 < d) && decide (d ≤ 4096))
    { r with s := { r.s with gal := { r.s.gal with bells := AMap.set r.s.gal.bells n (l ++ [(p, s.now)]) [] } } }

/-- A write to GAL_STR_CFG of stream `n`. -/
def State.galStrCfg (s : State) (n : Nat) (w : RegW) : State :=
  let r := Ring.gal n
  let was := s.flag r.enable
  match s.ringCfg r w with
  | none => s
  | some t =>
    let t := if !was && t.flag r.enable then
        let t := t.setFld (F.GAL_STR_STATUS_HALTED n) 0
        { t with gal := { t.gal with bells := AMap.erase t.gal.bells n, next := AMap.erase t.gal.next n } }
      else t
    if w.one r.cancel && !s.flag r.cancel then t.ringCancel r else t

/-- A write to a TDM port's set-up. -/
def State.tdmCfgWrite (s : State) (p : Nat) (w : RegW) : State :=
  let v := w.merged (s.reg w.k)
  if bit v 1 ∧ bits v 2 2 ≠ 0 then s
  else s.setReg w.k ((if s.flag (F.GAL_TDM_CFG_EN p) then w.without (fieldMask 1 5) else w).merged (s.reg w.k))

/-- A write to a GAL register. -/
def galWrite (s : State) (q : Req) (w : RegW) : Acc :=
  if ¬ s.admits q (s.fld F.GAL_OWN_OWNER) (s.flag F.GAL_OWN_S) then refAcc s q true (.sys 0x18) 0
  else if w.k = R.GAL_OWN then okAcc (s.setReg w.k (ownMerged q w (s.reg w.k)))
  else if w.k = R.GAL_CTRL then
    let on := s.flag F.GAL_CTRL_ENABLE
    let hold := s.flag F.GAL_CTRL_XP_HOLD
    let s := s.plainWrite w
    let s := if !on && s.flag F.GAL_CTRL_ENABLE then { s with gal := { s.gal with t3 := max (3 * s.now) s.gal.t3 } } else s
    okAcc (if hold && !s.flag F.GAL_CTRL_XP_HOLD then s.xpRelease else s)
  else if w.row.key = R.GAL_TDM_CFG 0 then okAcc (s.tdmCfgWrite ((w.k - R.GAL_TDM_CFG 0) / 0x10) w)
  else if w.row.key = R.GAL_TONE_CTRL 0 then
    let c := (w.k - R.GAL_TONE_CTRL 0) / 0x40
    let s := if w.one (F.GAL_TONE_CTRL_KEY_ON c) then s.galKey c 0 else s
    okAcc (if w.one (F.GAL_TONE_CTRL_KEY_OFF c) then s.galKey c 1 else s)
  else if w.row.key = R.GAL_XP 0 0 then
    let s := s.plainWrite w
    let k := (w.k - R.GAL_XP 0 0) / 4
    okAcc (if s.flag F.GAL_CTRL_XP_HOLD then s else s.setEndpoint k (s.reg w.k % 65536))
  else if R.GAL_BQ_B0 0 ≤ w.k ∧ w.k < R.GAL_BQ_B0 256 then
    let k := (w.k - R.GAL_BQ_B0 0) / 0x20
    if w.k = R.GAL_BQ_CTL k then
      let s := s.plainWrite w
      okAcc (if w.one (F.GAL_BQ_CTL_CLEAR k) then s.setBq k { free := (s.bq k).free } else s)
    else okAcc (s.bqCoef k w)
  else if w.row.key = R.GAL_STR_BASE 0 then okAcc (s.ringBase (.gal ((w.k - R.GAL_STR_BASE 0) / 0x20)) w)
  else if w.row.key = R.GAL_STR_CFG 0 then okAcc (s.galStrCfg ((w.k - R.GAL_STR_CFG 0) / 0x20) w)
  else if w.row.key = R.GAL_STR_DB 0 then
    let n := (w.k - R.GAL_STR_DB 0) / 0x20
    s.galDoorbell q n (w.newFld (s.reg w.k) (Ring.gal n).prod)
  else if w.row.key = R.GAL_STR_FMT 0 then
    let n := (w.k - R.GAL_STR_FMT 0) / 0x20
    let v := w.merged (s.reg w.k)
    let ch := bits v 8 5
    okAcc (if s.flag (F.GAL_STR_CFG_ENABLE n) ∨ ch = 0 ∨ 16 < ch ∨ (if bit v 16 then 32 else 16) < bits v 0 5 + ch then s
      else s.setReg w.k v)
  else okAcc (s.plainWrite w)

end Sys2Proof.Machine
end

