-- ==== Sys2Proof/Machine/PoolRegs.lean ====
section
/-! DEFINITION. The pool's own machinery (chapter 11): ownership writes and handovers, the scrubber, spare banks, and
the meeting of two ports on one word. -/

namespace Sys2Proof.Machine

/-- Whether `q` may write OWN or GRANT of bank `b` (R294). -/
def State.bankWriter (s : State) (q : Req) (b : Nat) : Bool :=
  let own := s.reg (R.POOL_BANK_OWN b)
  let o := bits own 0 4
  s.secure q ||
  (decide (ownerOf q = o) && attrOk (bit own 4) q) ||
  ((decide (8 ≤ o ∧ o ≤ 13) || decide (o = 15)) && decide (ownerOf q = bits own 5 4) && (q.s || q.s == bit own 9))

/-- The OWN word that an admitted write by `q` leaves (R294): OWNER 14 leaves OWNER and S; S from an N requester is 0;
RET_OWNER and RET_S follow the writer. -/
def State.newOwn (s : State) (q : Req) (w : RegW) : Nat :=
  let old := s.reg w.k
  let v := w.merged old
  let v := if bit v 4 && bit w.m 4 && !q.s then putBits v 4 1 0 else v
  let covers : Bool := Nat.land w.m 0xF != 0
  let o := bits v 0 4
  let v := if o = 14 then putBits v 0 5 (bits old 0 5) else v
  if s.secure q = true ∨ (covers ∧ o < 8) then putBits (putBits v 5 4 0xF) 9 1 1
  else if covers ∧ o ≠ 14 then putBits (putBits v 5 4 (ownerOf q)) 9 1 (b2n q.s)
  else v

/-- A write to OWN or GRANT of bank `b` (R294, R295): ignored while a handover is under way; otherwise the registers
take the new values and the bank checks against the old ones until the handover. -/
def State.bankOwnWrite (s : State) (q : Req) (w : RegW) : Acc :=
  let b := (w.k - R.POOL_BANK_OWN 0) / 8
  if ¬ s.bankWriter q b then refAcc s q true (.pool b) 0
  else if bit (s.reg (R.POOL_BANK_OWN b)) 31 then okAcc s
  else
    let own := s.reg (R.POOL_BANK_OWN b)
    let grant := s.reg (R.POOL_BANK_GRANT b)
    let s := { s with pool := { s.pool with old := s.pool.old ++ [(b, (own, grant))] } }
    let s := if w.row.key = R.POOL_BANK_OWN 0 then s.setReg w.k (s.newOwn q w)
      else if s.secure q then (s.plainWrite w).setReg (R.POOL_BANK_OWN b) (putBits (putBits own 5 4 0xF) 9 1 1)
      else s.plainWrite w
    okAcc (s.orReg (R.POOL_BANK_OWN b) (2 ^ 31))

/-- A write to a POOL register. -/
def poolRegWrite (s : State) (q : Req) (w : RegW) : Acc :=
  if w.row.key = R.POOL_BANK_OWN 0 ∨ w.row.key = R.POOL_BANK_GRANT 0 then s.bankOwnWrite q w
  else if w.k = R.POOL_SCRUB then
    if bits (w.merged (s.reg w.k)) 0 16 < 100 then okAcc s else okAcc (s.plainWrite w)
  else okAcc (s.plainWrite w)

/-- The handover of bank `b` (R295): its dirty lines are written back, its copies invalidated, and the bank checks
against the new values. An armed bank that leaves its owner cancels the switch (R71), and one under validation fails it
(R70). -/
def State.handover (s : State) (b : Nat) : State :=
  if ¬ bit (s.reg (R.POOL_BANK_OWN b)) 31 then s
  else
    let was := bits (s.ownInForce b) 0 4
    let s := { s with pool := { s.pool with old := s.pool.old.filter (fun e => e.1 != b) },
                      dirty := s.dirty.filter (fun d => d.addr < poolBase || (d.addr - poolBase) / bankSize != b) }
    let s := s.clrReg (R.POOL_BANK_OWN b) (2 ^ 31)
    let now := s.fld (F.POOL_BANK_OWN_OWNER b)
    if was = now ∨ s.hse.valBank ≠ b then s
    else
      let s := { s with hse := { s.hse with valLost := true } }
      if s.flag F.HSE_MODEL_ARM_ARM then
        s.setAll [(R.HSE_MODEL_ARM, 0), (R.HSE_MODEL_VAL_DETAIL, b * 2 ^ 16),
          (R.HSE_MODEL_STATUS, putBits (putBits (s.reg R.HSE_MODEL_STATUS) 24 3 3) 16 8 0x0F)]
      else s

/-- An upset of a stored word: 1 turns a clean word single, anything else makes it uncorrectable; a poisoned word
keeps its mark. -/
def State.upset (s : State) (a k : Nat) : State :=
  if k = 0 then s
  else match s.eccAt a with
    | .clean => s.setEcc a (if k = 1 then .single else .double)
    | .single => s.setEcc a .double
    | _ => s

/-! ### Scrubber (R301) -/

/-- Whether the scrubber reads bank `b`: its group is on and it is not FAILED. -/
def State.scrubbed (s : State) (b : Nat) : Bool := s.bankOn b && decide (s.fld (F.POOL_BANK_STATE_STATE b) ≠ 3)

/-- The next word to scrub from `p` (bank × 65,536 + word): `p` itself or the start of the next bank that is read. -/
def State.scrubAt (s : State) (p : Nat) : Option Nat :=
  if s.scrubbed (p / 65536) then some p
  else ((List.range 287).map (fun j => (p / 65536 + 1 + j) % 288)).find? s.scrubbed |>.map (· * 65536)

/-- A scrub read of the word at `a`: corrected, or poisoned in place when it cannot be. -/
def State.scrubWord (s : State) (a : Nat) : State :=
  match s.eccAt a with
  | .clean => s
  | .single => s.noteCe a
  | .double => ((s.noteUe a 3).remapTrigger (eccBank a)).setEcc a .poisoned
  | .poisoned => s

/-- One scrub read, after an upset `k` of the word; `slow` says that the pass has run longer than PASS_MS. -/
def State.scrub (s : State) (k : Nat) (slow : Bool) : State :=
  if ¬ s.flag F.POOL_SCRUB_ENABLE ∨ s.held = true then s
  else match s.scrubAt s.pool.scrub with
    | none => s
    | some p =>
      let a := poolBase + 8 * p
      let s := (s.upset a k).scrubWord a
      let s := { s with pool := { s.pool with scrub := (p + 1) % (288 * 65536) } }
      if slow then s.setFld F.POOL_SCRUB_SCRUB_SLOW 1 else s

/-! ### Spare banks (R302, R303) -/

/-- The lowest free spare for bank `b`: of its quadrant, or else of the device. -/
def State.freeSpare (s : State) (b : Nat) : Option Nat :=
  let used := s.fld F.POOL_SPARE_USED
  let q := b / 72
  ((List.range 8).filter (fun k => k / 2 == q) ++ List.range 8).find? (fun k => !bit used k)

/-- The first waiting remap starts: a spare is taken and the bank is COPYING, or with no spare left it is FAILED. -/
def State.remapStart (s : State) : State :=
  match s.pool.copy, s.pool.queue with
  | some _, _ => s
  | none, [] => s
  | none, b :: r =>
    let s := { s with pool := { s.pool with queue := r } }
    match s.freeSpare b with
    | some k =>
      let used := Nat.lor (s.fld F.POOL_SPARE_USED) (2 ^ k)
      let s := (s.setFld F.POOL_SPARE_USED used).setFld F.POOL_SPARE_EXHAUSTED (b2n (used == 0xFF))
      let s := (s.setFld (F.POOL_BANK_STATE_STATE b) 1).setFld (F.POOL_BANK_STATE_SPARE b) k
      { s with pool := { s.pool with copy := some { bank := b, spare := k, next := 0 } } }
    | none =>
      let own := s.ownInForce b
      ((s.setFld (F.POOL_BANK_STATE_STATE b) 3).setReg R.POOL_FAIL_LAST
        (2 ^ 31 + b * 2 ^ 16 + bits own 0 5)).fire Src.POOL_FAILED

/-- The copier copies its next word (R302): corrected, or written poisoned. A copy waits while the bank is off. -/
def State.spareCopy (s : State) : State :=
  match s.pool.copy with
  | none => s
  | some c =>
    if 65536 ≤ c.next ∨ ¬ s.bankOn c.bank then s
    else
      let a := poolBase + c.bank * bankSize + 8 * c.next
      let e := s.eccAt a
      let s := if e = .single then s.noteCe a else s
      let bad : Bool := e == .double || e == .poisoned
      let p := if bad then c.poisoned ++ [c.next] else c.poisoned
      { s with pool := { s.pool with copy := some { c with next := c.next + 1, poisoned := p } } }

/-- At the end of the copy the spare takes over (R302). -/
def State.spareTakeover (s : State) : State :=
  match s.pool.copy with
  | none => s
  | some c =>
    if c.next < 65536 then s
    else
      let a := poolBase + c.bank * bankSize
      let ecc := c.poisoned.foldl (fun m w => AMap.set m (a + 8 * w) Ecc.poisoned .clean)
        (s.ecc.dropKeys (fun k => decide (a ≤ k) && decide (k < a + bankSize)))
      let s := { s with ecc := ecc, pool := { s.pool with copy := none } }
      ((s.setFld (F.POOL_BANK_STATE_STATE c.bank) 2).setFld (F.POOL_BANK_STATE_CE_COUNT c.bank) 0).fire Src.POOL_REMAP

/-! ### Accesses at a bank port (R293, R297) -/

/-- A meeting of two ports on the word at pool offset `o` (R297): the later request's owner code `c` is marked. -/
def State.portMeeting (s : State) (o c : Nat) : State :=
  (s.orReg R.POOL_BUSY (2 ^ c)).setReg R.POOL_BUSY_LAST (o / bankSize * 2 ^ 16 + o % bankSize / 8)

/-- Whether an access of `q` is served at port B (R292): the HSE's, and the heads' scan-out, which only reads. -/
def State.atPortB (s : State) (q : Req) (write : Bool) : Bool :=
  bit q.tag.toNat 8 && decide (posOf q = s.pos) && (decide (ownerOf q = 8) || (decide (ownerOf q = 9) && !write))

/-- Whether the request that `m` names can stand at port B: the HSE's, or a read of code 9. -/
def meetsAtB (m : Meeting) : Bool := decide (m.other.val = 8) || (decide (m.other.val = 9) && m.lanes.isNone)

/-- The word on which an access of `size` bytes at address `a` meets the request `m` (R297): the two stand at different
ports, at least one writes, and the bank takes accesses. -/
def State.meetingWord (s : State) (q : Req) (a size : Nat) (write : Bool) (m : Meeting) : Option Nat :=
  if (s.atPortB q write || meetsAtB m) && (write || m.lanes.isSome) && decide (m.word < wordsOf a size) &&
     s.bankTakes ((a - poolBase) / bankSize) then some (a / 8 * 8 + 8 * m.word) else none

/-- The access at a pool port: direct or rotated. -/
def State.portDo (s : State) (q : Req) (o : Nat) (rot write : Bool) (n : Nat) (bs : List Byte) : Acc :=
  match rot, write with
  | false, false => s.poolRead q o n
  | false, true => s.poolWrite q o bs
  | true, false => s.rotRead q o n
  | true, true => s.rotWrite q o bs

/-- A write at port A keeps, of the word at `w`, the bytes that the request at port B writes in the same cycle (R297): they
stand as `s` holds them, or as its own access will write them. -/
def State.keepLanes (t s : State) (w : Nat) (m : BitVec 8) : State :=
  (List.range 8).foldl (fun (t : State) i =>
    if bit m.toNat i then { t with mem := AMap.set t.mem (w + i) (s.byte (w + i)) 0 } else t) t

/-- The access `q`, `o`, … that meets `m` on the word at `w` (R297): what it reads of that word is undefined (U-01) and
raises no error there; of two writes port B's bytes remain. -/
def State.portMet (s : State) (q : Req) (o : Nat) (rot write : Bool) (n : Nat) (bs : List Byte) (m : Meeting) (w : Nat) :
    State :=
  let e := s.eccAt w
  let r := (if write then s else s.setEcc w .clean).portDo q o rot write n bs
  let t := if write then r.s else r.s.setEcc w e
  if r.st = .ok then
    let t := (t.portMeeting (w - poolBase) (if m.later then ownerOf q else m.other.val))
    if write then
      let t := if s.atPortB q true then t else t.keepLanes s w (m.lanes.getD 0)
      { t.answer .ok with busy := m.later }
    else
      let bs := (List.zip (List.range n) r.data).map (fun e =>
        if rot = true ∨ (poolBase + o + e.1) / 8 * 8 = w then BitVec.ofNat 8 (Config.freeValue (t.free + e.1)).toNat else e.2)
      { (t.answer .ok bs).skipFree n with busy := m.later }
  else { t.answer r.st r.data with busy := false }

/-- A pool access by `q` at offset `o` of the direct or the rotated window: `n` bytes read, or `bs` written; `k` upsets the
first word before it; `meet` is a request that it met on one of its words. -/
def State.poolAccess (s : State) (q : Req) (o : Nat) (rot write : Bool) (n : Nat) (bs : List Byte) (k : Nat)
    (meet : Option Meeting) : State :=
  let size := if rot then 1 else if write then bs.length else n
  if poolSize < o + size then { s.answer .error with busy := false }
  else
    let a := poolBase + o
    let s := if s.bankTakes (o / bankSize) then s.upset (a / 8 * 8) k else s
    match meet.bind (fun m => (s.meetingWord q a size write m).map (fun w => (m, w))) with
    | some (m, w) => s.portMet q o rot write n bs m w
    | none =>
      let r := s.portDo q o rot write n bs
      { r.s.answer r.st r.data with busy := false }

end Sys2Proof.Machine
end

