-- ==== Sys2Proof/Machine/Float.lean ====
section
/-! DEFINITION. IEEE 754-2019 binary64 and binary32 on bit patterns held as numbers: every operation is computed
exactly and rounded once, to nearest with ties to even. The NaN an operation produces is the one of R51 and R266. -/

namespace Sys2Proof.Machine

/-- A binary interchange format: `p` bits of significand (the hidden one among them) and `eb` exponent bits. -/
structure FloatFmt where
  p  : Nat
  eb : Nat
  deriving DecidableEq, Repr

/-- binary64. -/
def b64 : FloatFmt := ⟨53, 11⟩

/-- binary32. -/
def b32 : FloatFmt := ⟨24, 8⟩

namespace FloatFmt

/-- The width in bits. -/
def width (f : FloatFmt) : Nat := f.p + f.eb

/-- The exponent bias. -/
def bias (f : FloatFmt) : Nat := 2 ^ (f.eb - 1) - 1

/-- The exponent of the lowest significand bit of the smallest numbers. -/
def eMin (f : FloatFmt) : Int := 2 - (f.bias : Int) - (f.p : Int)

/-- Plus infinity. -/
def inf (f : FloatFmt) : Nat := (2 ^ f.eb - 1) * 2 ^ (f.p - 1)

/-- The sign bit. -/
def sign (f : FloatFmt) : Nat := 2 ^ (f.width - 1)

/-- The NaN that operations produce. -/
def nan (f : FloatFmt) : Nat := f.inf + 2 ^ (f.p - 2)

end FloatFmt

/-- A floating-point datum: a NaN, an infinity, or (−1)^neg × m × 2^e. -/
inductive FVal where
  | nan
  | inf (neg : Bool)
  | fin (neg : Bool) (m : Nat) (e : Int)
  deriving DecidableEq, Repr

/-- The status flags of one operation, in the order of VSTAT (R267): NV, DZ, OF, UF, NX. -/
structure FFlags where
  nv : Bool := false
  dz : Bool := false
  of : Bool := false
  uf : Bool := false
  nx : Bool := false
  deriving DecidableEq, Repr

/-- The flags as the bits of VSTAT, NV in bit 4. -/
def FFlags.toNat (f : FFlags) : Nat := 16 * b2n f.nv + 8 * b2n f.dz + 4 * b2n f.of + 2 * b2n f.uf + b2n f.nx

/-- The datum of a bit pattern. -/
def funpack (f : FloatFmt) (x : Nat) : FVal :=
  let neg := bit x (f.width - 1)
  let ex := bits x (f.p - 1) f.eb
  let fr := bits x 0 (f.p - 1)
  if ex = 2 ^ f.eb - 1 then (if fr = 0 then .inf neg else .nan)
  else if ex = 0 then .fin neg fr f.eMin
  else .fin neg (fr + 2 ^ (f.p - 1)) (f.eMin + (ex : Int) - 1)

/-- The sign bit of a pattern, as its weight. -/
def fsignOf (f : FloatFmt) (neg : Bool) : Nat := if neg then f.sign else 0

/-- `q` ÷ 2^drop rounded to nearest, ties to even, and whether the result is inexact. -/
def nearest (q : Nat) (drop : Int) : Nat × Bool :=
  let m0 : Nat := if drop ≤ 0 then q * 2 ^ (-drop).toNat else q / 2 ^ drop.toNat
  let rem : Nat := if drop ≤ 0 then 0 else q % 2 ^ drop.toNat
  let half : Nat := if drop ≤ 0 then 1 else 2 ^ (drop.toNat - 1)
  (m0 + b2n (decide (half < rem) || (decide (half = rem) && m0 % 2 == 1)), decide (rem ≠ 0))

/-- (−1)^neg × (q + ε) × 2^e rounded once, where 0 ≤ ε < 1 is zero exactly when `sticky` is false. `q` has at least
p + 2 bits, or is exact. -/
def fround (f : FloatFmt) (neg : Bool) (q : Nat) (sticky : Bool) (e : Int) : Nat × FFlags :=
  if q = 0 ∧ ¬ sticky then (fsignOf f neg, {}) else
  let q2 := 4 * q + b2n sticky
  let e2 := e - 2
  let top : Int := (Nat.log2 q2 : Int) + e2
  let free : Int := top - ((f.p : Int) - 1)
  let lsb : Int := if free < f.eMin then f.eMin else free
  let r := nearest q2 (lsb - e2)
  let m := r.1
  let inexact := r.2
  let big := decide (2 ^ f.p ≤ m)
  let m' := if big then m / 2 else m
  let lsb' := if big then lsb + 1 else lsb
  let ex : Int := if m' < 2 ^ (f.p - 1) then 0 else lsb' - f.eMin + 1
  if (2 ^ f.eb : Nat) - 1 ≤ ex then (fsignOf f neg + f.inf, { of := true, nx := true })
  else
    let tinyBefore := decide (free < f.eMin)
    let tinyAfter := tinyBefore && !(decide (free = f.eMin - 1) && (nearest q2 (free - e2)).1 == 2 ^ f.p)
    let uf := inexact && (if Config.tinyAfterRounding then tinyAfter else tinyBefore)
    (fsignOf f neg + ex.toNat * 2 ^ (f.p - 1) + m' % 2 ^ (f.p - 1), { uf := uf, nx := inexact })

/-- (−1)^neg × n / d × 2^e rounded once (d > 0). -/
def froundRat (f : FloatFmt) (neg : Bool) (n d : Nat) (e : Int) : Nat × FFlags :=
  if n = 0 then (fsignOf f neg, {}) else
  let s := (f.p + 3 + Nat.log2 d) - Nat.log2 n
  let n' := n * 2 ^ s
  fround f neg (n' / d) (decide (n' % d ≠ 0)) (e - (s : Int))

/-- Whether a pattern is a NaN. -/
def fisNan (f : FloatFmt) (x : Nat) : Bool := decide (funpack f x = .nan)

/-- Whether a pattern is a signalling NaN: its topmost fraction bit is 0. -/
def fisSNan (f : FloatFmt) (x : Nat) : Bool := fisNan f x && !bit x (f.p - 2)

/-- Whether a pattern is finite. -/
def fisFinite (f : FloatFmt) (x : Nat) : Bool := bits x (f.p - 1) f.eb != 2 ^ f.eb - 1

/-- The NaN result of an operation on `a` and `b`, of which one is a NaN: NV when one signals. -/
def fnanResult (f : FloatFmt) (a b : Nat) : Nat × FFlags := (f.nan, { nv := fisSNan f a || fisSNan f b })

/-- The signed integer value m·2^(e − base) of a finite datum, for base ≤ e. -/
def fscaled (neg : Bool) (m : Nat) (e base : Int) : Int :=
  let v : Int := ((m * 2 ^ (e - base).toNat : Nat) : Int)
  if neg then -v else v

/-- Sum, with flags. -/
def faddFl (f : FloatFmt) (a b : Nat) : Nat × FFlags :=
  match funpack f a, funpack f b with
  | .nan, _ => fnanResult f a b
  | _, .nan => fnanResult f a b
  | .inf x, .inf y => if x = y then (fsignOf f x + f.inf, {}) else (f.nan, { nv := true })
  | .inf x, .fin _ _ _ => (fsignOf f x + f.inf, {})
  | .fin _ _ _, .inf y => (fsignOf f y + f.inf, {})
  | .fin x m e, .fin y n g =>
    let base := if e < g then e else g
    let v := fscaled x m e base + fscaled y n g base
    if v = 0 then (fsignOf f (x && y), {}) else fround f (decide (v < 0)) v.natAbs false base

/-- The pattern with its sign inverted. -/
def fneg (f : FloatFmt) (x : Nat) : Nat := if bit x (f.width - 1) then x - f.sign else x + f.sign

/-- The pattern with its sign cleared. -/
def fabs (f : FloatFmt) (x : Nat) : Nat := if bit x (f.width - 1) then x - f.sign else x

/-- Difference, with flags. -/
def fsubFl (f : FloatFmt) (a b : Nat) : Nat × FFlags :=
  if fisNan f b then fnanResult f a b else faddFl f a (fneg f b)

/-- Product, with flags. -/
def fmulFl (f : FloatFmt) (a b : Nat) : Nat × FFlags :=
  match funpack f a, funpack f b with
  | .nan, _ => fnanResult f a b
  | _, .nan => fnanResult f a b
  | .inf x, .inf y => (fsignOf f (x != y) + f.inf, {})
  | .inf x, .fin y n _ => if n = 0 then (f.nan, { nv := true }) else (fsignOf f (x != y) + f.inf, {})
  | .fin x m _, .inf y => if m = 0 then (f.nan, { nv := true }) else (fsignOf f (x != y) + f.inf, {})
  | .fin x m e, .fin y n g => fround f (x != y) (m * n) false (e + g)

/-- Quotient, with flags. -/
def fdivFl (f : FloatFmt) (a b : Nat) : Nat × FFlags :=
  match funpack f a, funpack f b with
  | .nan, _ => fnanResult f a b
  | _, .nan => fnanResult f a b
  | .inf _, .inf _ => (f.nan, { nv := true })
  | .inf x, .fin y _ _ => (fsignOf f (x != y) + f.inf, {})
  | .fin x _ _, .inf y => (fsignOf f (x != y), {})
  | .fin x m e, .fin y n g =>
    if n = 0 then
      if m = 0 then (f.nan, { nv := true }) else (fsignOf f (x != y) + f.inf, { dz := true })
    else froundRat f (x != y) m n (e - g)

/-- The integer square root of `n`, digit by digit over `k` bits of the root. -/
def isqrtGo : Nat → Nat → Nat → Nat
  | 0, _, r => r
  | k + 1, n, r => let t := r + 2 ^ k; if t * t ≤ n then isqrtGo k n t else isqrtGo k n r

/-- The integer square root of `n`. -/
def isqrt (n : Nat) : Nat := isqrtGo (Nat.log2 n / 2 + 1) n 0

/-- Square root, with flags. -/
def fsqrtFl (f : FloatFmt) (a : Nat) : Nat × FFlags :=
  match funpack f a with
  | .nan => fnanResult f a a
  | .inf neg => if neg then (f.nan, { nv := true }) else (f.inf, {})
  | .fin neg m e =>
    if m = 0 then (fsignOf f neg, {})
    else if neg then (f.nan, { nv := true })
    else
      let s := 2 * f.p + 4
      let s' := if (e - (s : Int)) % 2 = 0 then s else s + 1
      let n := m * 2 ^ s'
      let r := isqrt n
      fround f false r (decide (r * r ≠ n)) ((e - (s' : Int)) / 2)

/-- The order of two finite or infinite data: −1, 0 or 1; none with a NaN. -/
def fcompare (f : FloatFmt) (a b : Nat) : Option Int :=
  match funpack f a, funpack f b with
  | .nan, _ => none
  | _, .nan => none
  | .inf x, .inf y => some (if x = y then 0 else if x then -1 else 1)
  | .inf x, .fin _ _ _ => some (if x then -1 else 1)
  | .fin _ _ _, .inf y => some (if y then 1 else -1)
  | .fin x m e, .fin y n g =>
    let base := if e < g then e else g
    let d := fscaled x m e base - fscaled y n g base
    some (if d < 0 then -1 else if d = 0 then 0 else 1)

/-- `n` × 2^e for a signed integer, rounded. -/
def ofIntFl (f : FloatFmt) (n : Int) (e : Int) : Nat × FFlags :=
  if n = 0 then (0, {}) else fround f (decide (n < 0)) n.natAbs false e

/-- A datum of one format in another, with flags. -/
def fconvFl (f g : FloatFmt) (a : Nat) : Nat × FFlags :=
  match funpack f a with
  | .nan => (g.nan, { nv := fisSNan f a })
  | .inf neg => (fsignOf g neg + g.inf, {})
  | .fin neg m e => fround g neg m false e

/-- A finite datum as an exact signed integer towards zero, and whether it was not one. -/
def ftrunc (neg : Bool) (m : Nat) (e : Int) : Int × Bool :=
  let q : Nat := if 0 ≤ e then m * 2 ^ e.toNat else m / 2 ^ (-e).toNat
  let r : Nat := if 0 ≤ e then 0 else m % 2 ^ (-e).toNat
  (if neg then -(q : Int) else (q : Int), decide (r ≠ 0))

/-! ### binary64 without flags, as the HSE computes (R51) -/

/-- binary64 sum. -/
def dadd (a b : Nat) : Nat := (faddFl b64 a b).1
/-- binary64 difference. -/
def dsub (a b : Nat) : Nat := (fsubFl b64 a b).1
/-- binary64 product. -/
def dmul (a b : Nat) : Nat := (fmulFl b64 a b).1
/-- binary64 quotient. -/
def ddiv (a b : Nat) : Nat := (fdivFl b64 a b).1
/-- Sign inverted. -/
def dneg (a : Nat) : Nat := fneg b64 a
/-- Sign cleared. -/
def dabs (a : Nat) : Nat := fabs b64 a
/-- a < b; false with a NaN. -/
def dlt (a b : Nat) : Bool := fcompare b64 a b == some (-1)
/-- a ≤ b; false with a NaN. -/
def dle (a b : Nat) : Bool := match fcompare b64 a b with | some c => decide (c ≤ 0) | none => false
/-- a = b; false with a NaN. -/
def deq (a b : Nat) : Bool := fcompare b64 a b == some 0
/-- Finite. -/
def dfin (a : Nat) : Bool := fisFinite b64 a
/-- The binary64 nearest to an integer times 2^e. -/
def dofInt (n : Int) (e : Int := 0) : Nat := (ofIntFl b64 n e).1
/-- The binary64 nearest to a decimal n / d. -/
def dofRat (neg : Bool) (n d : Nat) : Nat := (froundRat b64 neg n d 0).1
/-- A binary32 pattern as binary64. -/
def dofB32 (a : Nat) : Nat := (fconvFl b32 b64 a).1
end Sys2Proof.Machine
end

