-- ==== Sys2Proof/Machine/Operands.lean ====
section
/-! DEFINITION. A Knarn thread's registers, segments, instruction fields and fetch (R240 to R247, R264), its traps (R259
to R261), and how a Knarn instruction ends. -/

namespace Sys2Proof.Machine

/-! ### Registers of a thread (R240, R241) -/

/-- General register `r`. -/
def Thread.gpr (x : Thread) (r : Nat) : Nat := (AMap.get x.w r 0).toNat

def Thread.setGpr (x : Thread) (r v : Nat) : Thread := { x with w := AMap.set x.w r (BitVec.ofNat 64 v) 0 }

/-- The reset value of system register `n`: PRIV of ST. -/
def sysReset (n : Nat) : Word := if n = 0 then 0x400 else 0

/-- System register `n`. -/
def Thread.sr (x : Thread) (n : Nat) : Nat := (AMap.get x.sys n (sysReset n)).toNat

def Thread.setSr (x : Thread) (n v : Nat) : Thread :=
  { x with sys := AMap.set x.sys n (BitVec.ofNat 64 v) (sysReset n) }

abbrev Sr.ST : Nat := 0x00
abbrev Sr.CAUSE : Nat := 0x01
abbrev Sr.EPC : Nat := 0x02
abbrev Sr.TVAL : Nat := 0x03
abbrev Sr.EST : Nat := 0x04
abbrev Sr.ESP : Nat := 0x05
abbrev Sr.TSP : Nat := 0x06
abbrev Sr.TVEC : Nat := 0x07
abbrev Sr.ESG0_B : Nat := 0x08
abbrev Sr.TSG0_B : Nat := 0x0C
abbrev Sr.TID : Nat := 0x18
abbrev Sr.CYCLE : Nat := 0x19

/-- Bits of ST. -/
abbrev St.C : Nat := 0
abbrev St.V : Nat := 1
abbrev St.DZ : Nat := 2
abbrev St.DZE : Nat := 8
abbrev St.IE : Nat := 9
abbrev St.PRIV : Nat := 10
abbrev St.SATTR : Nat := 11
abbrev St.IN_TRAP : Nat := 15

/-- Bit `i` of ST. -/
def Thread.st (x : Thread) (i : Nat) : Bool := bit (x.sr Sr.ST) i

/-- Bit `i` of ST set to `b`. -/
def Thread.setSt (x : Thread) (i : Nat) (b : Bool) : Thread := x.setSr Sr.ST (putBits (x.sr Sr.ST) i 1 (b2n b))

/-- A segment's B and L words (R242). -/
structure Seg where
  b : Nat
  l : Nat
  deriving DecidableEq, Repr

def Seg.limit (g : Seg) : Nat := bits g.l 0 45
def Seg.mode (g : Seg) : Nat := bits g.l 52 2
def Seg.r (g : Seg) : Bool := bit g.l 48
def Seg.w (g : Seg) : Bool := bit g.l 49
def Seg.x (g : Seg) : Bool := bit g.l 50

/-- The checks of R257 that SGSET makes. -/
def Seg.ok (g : Seg) : Bool :=
  decide (g.b < 2 ^ 44) && decide (bits g.l 54 10 = 0) && !bit g.l 51 && decide (bits g.l 45 3 = 0) &&
  decide (g.mode ≠ 3) && decide (g.b + g.limit ≤ 2 ^ 44)

/-- Segment register `n`. -/
def Thread.seg (x : Thread) (n : Nat) : Seg := ⟨(AMap.get x.sgB n 0).toNat, (AMap.get x.sgL n 0).toNat⟩

def Thread.setSeg (x : Thread) (n : Nat) (g : Seg) : Thread :=
  { x with sgB := AMap.set x.sgB n (BitVec.ofNat 64 g.b) 0, sgL := AMap.set x.sgL n (BitVec.ofNat 64 g.l) 0 }

/-- Lane `i` of vector register `r`. -/
def Thread.lane (x : Thread) (r i : Nat) : Nat := (AMap.get x.v (4 * r + i) 0).toNat

def Thread.setLane (x : Thread) (r i v : Nat) : Thread :=
  { x with v := AMap.set x.v (4 * r + i) (BitVec.ofNat 64 v) 0 }

/-- Vector register `r` from its lanes. -/
def Thread.setVec (x : Thread) (r : Nat) (l : List Nat) : Thread :=
  (List.range 4).foldl (fun (x : Thread) i => x.setLane r i (l.getD i 0)) x

/-- The lanes of vector register `r`. -/
def Thread.vec (x : Thread) (r : Nat) : List Nat := (List.range 4).map (x.lane r)

/-- Field register `r`. -/
def Thread.fr (x : Thread) (r : Nat) : Nat := AMap.get x.f r 0

def Thread.setFr (x : Thread) (r v : Nat) : Thread := { x with f := AMap.set x.f r v 0 }

/-- Thread `t` with `f` applied to it. -/
def State.modTh (s : State) (t : Nat) (f : Thread → Thread) : State := s.setTh t (f (s.th t))

/-- General register `r` of thread `t` set to `v` modulo 2^64. -/
def State.setW (s : State) (t r v : Nat) : State := s.modTh t (fun x => x.setGpr r v)

/-- The requester of thread `t` (R10, R241). -/
def State.kReq (s : State) (t : Nat) : Req := s.threadReq t ((s.th t).st St.SATTR)

/-! ### Instruction fields (R246) -/

/-- Bits [25:21]. -/
def kD (w : Nat) : Nat := bits w 21 5
/-- Bits [20:16]. -/
def kA (w : Nat) : Nat := bits w 16 5
/-- Bits [15:11]. -/
def kB (w : Nat) : Nat := bits w 11 5
/-- IMM16 or OFF16. -/
def kImm (w : Nat) : Nat := bits w 0 16
/-- SG of format M. -/
def kSgM (w : Nat) : Nat := bits w 13 3
/-- SG of format A, SGX of format R. -/
def kSgA (w : Nat) : Nat := bits w 8 3
/-- X of format C. -/
def kX (w : Nat) : Nat := bits w 0 5

/-- How a mnemonic is encoded: the bits that select it and their value. -/
structure KPat where
  mask : Nat
  val  : Nat
  deriving DecidableEq, Repr

/-- `w` is an instruction of pattern `p`. -/
def KPat.is (p : KPat) (w : Nat) : Bool := decide (Nat.land w p.mask = p.val)

/-- The major opcode alone: formats I, M, B and J. -/
def kOp (op : Nat) : KPat := ⟨0xFC000000, op * 2 ^ 26⟩
/-- IMMS and IMMI: RA[4:2] is reserved (R251). -/
def kOpK (op : Nat) : KPat := ⟨0xFC1C0000, op * 2 ^ 26⟩
/-- Format R of opcodes 0x00 and 0x28: bits [10:0]. -/
def kFn (op fn : Nat) : KPat := ⟨0xFC0007FF, op * 2 ^ 26 + fn⟩
/-- Format R of opcode 0x30 and format A: FN[7:0]. -/
def kFn8 (op fn : Nat) : KPat := ⟨0xFC0000FF, op * 2 ^ 26 + fn⟩
/-- Format C: FN in bits [10:5]. -/
def kCp (op fn : Nat) : KPat := ⟨0xFC0007E0, op * 2 ^ 26 + fn * 2 ^ 5⟩

/-- Every instruction of R247, R248, R253, R255, R256, R267, R268, R269 to R272. -/
def kAll : List KPat :=
  ([0x01, 0x02, 0x03, 0x04, 0x05, 0x06, 0x07, 0x08, 0x09, 0x0A, 0x0B, 0x0C, 0x0D, 0x10, 0x11, 0x12, 0x18, 0x19, 0x1A,
    0x1C, 0x1D, 0x1E, 0x1F, 0x20, 0x21, 0x22, 0x23, 0x24, 0x25, 0x28, 0x29, 0x2A, 0x2B, 0x2C, 0x2D, 0x2E].map (kFn 0)) ++
  ([0x01, 0x02, 0x03, 0x04, 0x05, 0x06, 0x07, 0x08, 0x09, 0x0C, 0x10, 0x11, 0x12, 0x13, 0x14, 0x15, 0x16, 0x18, 0x19,
    0x1A, 0x1B, 0x20, 0x21, 0x22, 0x23, 0x24, 0x25, 0x26, 0x27].map kOp) ++
  [kOpK 0x0A, kOpK 0x0B] ++
  ((List.range 6).map (kFn8 0x1C)) ++ ((List.range 5).map (kFn 0x28)) ++
  ([0x00, 0x01, 0x02, 0x03, 0x04, 0x08, 0x09, 0x10, 0x11, 0x12, 0x20, 0x21, 0x22].map (kFn8 0x30)) ++
  ([0x01, 0x02, 0x03, 0x04, 0x05, 0x06, 0x07, 0x08, 0x09, 0x0A, 0x0B, 0x0C, 0x0D, 0x10, 0x11, 0x12, 0x13, 0x18, 0x19,
    0x1C, 0x1D, 0x1E, 0x20, 0x21, 0x30].map (kCp 0x38)) ++
  ([0x01, 0x02, 0x03].map (kCp 0x39)) ++ ([0x01, 0x02, 0x03, 0x04].map (kCp 0x3A)) ++
  ([0x01, 0x02, 0x03, 0x04, 0x05, 0x06, 0x07, 0x08, 0x09, 0x10, 0x11, 0x12, 0x13, 0x14, 0x15].map (kCp 0x3B))

/-- The table gives the system register a number and an access (R241). -/
def srNamed (n : Nat) : Bool := decide (n ≤ 0x11) || decide (n = 0x18) || decide (n = 0x19)

/-- `w` is an illegal instruction (R241, R246, R247). -/
def kIllegal (w : Nat) : Bool :=
  !kAll.any (fun p => p.is w) ||
  (((kFn8 0x30 0x08).is w || (kFn8 0x30 0x09).is w) && !srNamed (kB w))

/-! ### Segment accesses (R243, R244) -/

/-- log2 of a power of two. -/
def log2Exact (n : Nat) : Option Nat := if 2 ^ Nat.log2 n = n then some (Nat.log2 n) else none

/-- An offset as the 64-bit pattern that TVAL holds. -/
def off64 (o : Int) : Nat := wrap 64 o

/-- The offset in bit-reversed mode; free where R244, or a SIZE that is no power of two, leaves it undefined. -/
def State.bitRev (s : State) (limit size : Nat) (off : Int) : Int × State :=
  match log2Exact limit, log2Exact size with
  | some ll, some ls =>
    let o := (off % (limit : Int)).toNat
    ((reverseBits (ll - ls) (o / 2 ^ ls % 2 ^ (ll - ls)) * 2 ^ ls : Nat), s)
  | _, _ => ((s.freeVal : Nat), s.skipFree)

/-- The address of an access of `size` bytes at `off` of segment `g`, or the trap code and TVAL (R243); the machine
counts the free offset it used. -/
def State.segAddr (s : State) (g : Seg) (off : Int) (size : Nat) (needR needW : Bool) :
    Except (Nat × Nat) Nat × State :=
  if (needR && !g.r) || (needW && !g.w) then (.error (3, off64 off), s)
  else if g.mode = 3 ∨ 2 ^ 44 < g.b + g.limit ∨ g.limit < size then (.error (2, off64 off), s)
  else
    let lim : Int := ((g.limit - size : Nat) : Int)
    let x : Int × State := match g.mode with
      | 0 => (off, s)
      | 1 => (off % (g.limit : Int), s)
      | _ => s.bitRev g.limit size off
    if x.1 < 0 ∨ lim < x.1 then (.error (2, off64 x.1), x.2)
    else
      let a := g.b + x.1.toNat
      if a % min size 8 ≠ 0 then (.error (4, a), x.2) else (.ok a, x.2)

/-! ### Fetch (R245, R264) and targets (R254) -/

/-- Offset `o` of sg0 passes the checks of R245. -/
def Thread.fetchOk (x : Thread) (o : Nat) : Bool :=
  let g := x.seg 0
  g.x && decide (g.b + g.limit ≤ 2 ^ 44) && decide (o + 4 ≤ g.limit) && decide (o % 4 = 0) &&
  decide ((g.b + o) % 4 = 0)

/-- What a fetch at PC gives: a word of this device's plain memory and the machine after it, an address outside plain
memory, or a trap code and TVAL. -/
inductive Fetched where
  | word (s : State) (w : Nat)
  | outside (a : Nat)
  | bad (s : State) (code tval : Nat)

/-- Plain memory answers an access of `n` bytes at `a`: no register, no CXL configuration, no other device's window. -/
def State.plainAt (s : State) (a n : Nat) : Bool :=
  match regionOf a n with
  | some (.reg _) => false
  | some (.cxlCfg _) => false
  | some (.peer d _) => decide (d = s.pos)
  | _ => true

/-- The fetch of thread `t` (R245, R264). -/
def State.kFetch (s : State) (t : Nat) : Fetched :=
  let x := s.th t
  let pc := x.pc.toNat
  if ¬ x.fetchOk pc then .bad s 5 pc
  else
    let a := (x.seg 0).b + pc
    if ¬ s.plainAt a 4 then .outside a
    else
      let r := s.memRead (s.kReq t) a 4
      match r.st with
      | .error => .bad r.s 7 a
      | .refused => .word r.s 0
      | .ok => .word r.s (ofBytes r.data)

/-! ### Traps (R259 to R261) -/

/-- Trap entry of R260 for thread `t`. -/
def Thread.enter (x : Thread) (cause tval epc : Nat) : Thread :=
  let st := x.sr Sr.ST
  let g0 := x.seg 0
  let g7 := x.seg 7
  let x := { ((((x.setSr Sr.EST st).setSr Sr.EPC epc).setSr Sr.CAUSE cause).setSr Sr.TVAL tval) with
    pc := BitVec.ofNat 64 (x.sr Sr.TVEC / 4 * 4) }
  let x := ((((x.setSr Sr.ESG0_B g0.b).setSr 0x09 g0.l).setSr 0x0A g7.b).setSr 0x0B g7.l).setSr Sr.ESP (x.gpr 31)
  let x := (x.setSeg 0 ⟨x.sr Sr.TSG0_B, x.sr 0x0D⟩).setSeg 7 ⟨x.sr 0x0E, x.sr 0x0F⟩
  ((x.setGpr 31 (x.sr Sr.TSP)).setSt St.PRIV true |>.setSt St.IE false).setSt St.IN_TRAP true

/-- A synchronous trap of thread `t` (R260, R261): while IN_TRAP is 1 it is a double fault. The entry of DIVZERO sets
DZ (R250). -/
def State.trap (s : State) (t code tval detail epc : Nat) (imprecise : Bool := false) : State :=
  let x := s.th t
  if x.st St.IN_TRAP then
    (((s.setFld (F.CORE_TH_CTRL_STATE t) 4).setFld (F.CORE_TH_CTRL_DF_CODE t) code).setTh t
      { x with wait := none }).fire Src.CORE_DFAULT
  else
    let y := x.enter (b2n imprecise * 2 ^ 63 + detail * 256 + code) tval epc
    s.setTh t (if code = 8 then y.setSt St.DZ true else y)

/-! ### How an instruction runs -/

/-- What an instruction does to its thread: goes on to the next instruction, jumps, traps (code, TVAL, DETAIL), or stays
where it is. -/
inductive KOut where
  | done (s : State)
  | jump (s : State) (pc : Nat)
  | trap (s : State) (code tval detail : Nat)
  | stay (s : State)

/-- The PC of thread `t` set. -/
def State.setPc (s : State) (t pc : Nat) : State := s.modTh t (fun x => { x with pc := BitVec.ofNat 64 pc })

/-- The thread's next instruction follows. -/
def State.retire (s : State) (t : Nat) : State := s.setPc t ((s.th t).pc.toNat + 4)

/-- The end of an instruction of thread `t`. EPC of SYSCALL names the next instruction (R259). A thread that its own
store has switched off or reset completes nothing (R487, R497). -/
def KOut.finish (o : KOut) (t : Nat) : State :=
  match o with
  | .done s => if s.thState t = 0 then s else s.retire t
  | .jump s pc => if s.thState t = 0 then s else s.setPc t pc
  | .trap s code tval detail =>
    let pc := (s.th t).pc.toNat
    if s.thState t = 0 then s else s.trap t code tval detail (if code = 9 then pc + 4 else pc)
  | .stay s => s

/-- A privileged instruction: trap 0x01 at user level (R256). -/
def State.kPriv (s : State) (t : Nat) (w : Nat) (o : KOut) : KOut :=
  if (s.th t).st St.PRIV then o else .trap s 1 w 0

/-- A jump to `target`, checked first (R254). -/
def State.kJump (s : State) (t target : Nat) : KOut :=
  if (s.th t).fetchOk target then .jump s target else .trap s 5 target 0

end Sys2Proof.Machine
end

