-- ==== Sys2Proof/Machine/Flags.lean ====
section
/-! DEFINITION. Knarn arithmetic and the status bits it sets (R248 to R251): each operation gives the result and the
bits C, V and DZ. -/

namespace Sys2Proof.Machine

/-- The value of a 64-bit word as a signed number. -/
def s64 (v : Nat) : Int := sext 64 v

/-- A result with the status bits of R249: C when the operation writes it, V and DZ when they are set. -/
structure Alu where
  v  : Nat
  c  : Option Bool := none
  ov : Bool := false
  dz : Bool := false
  deriving DecidableEq, Repr

/-- A result that leaves ST unchanged. -/
def plainAlu (v : Nat) : Alu := { v := v % 2 ^ 64 }

/-- NOT b, 64 bits. -/
def not64 (b : Nat) : Nat := 2 ^ 64 - 1 - b % 2 ^ 64

/-- The sum `a + b + cin`: C its carry out of bit 63, V its signed overflow (R249). -/
def addFlags (a b cin : Nat) : Alu :=
  let u := a + b + cin
  let r := u % 2 ^ 64
  { v := r, c := some (decide (2 ^ 64 ≤ u)),
    ov := bit a 63 == bit b 63 && bit r 63 != bit a 63 }

/-- A signed result clamped to 64 bits, V when clamped. -/
def clampS (x : Int) : Alu := { v := wrap 64 (satS 64 x), ov := decide (satS 64 x ≠ x) }

/-- An unsigned result clamped to 64 bits, V when clamped. -/
def clampU (x : Int) : Alu :=
  let y := clampI 0 ((2 ^ 64 - 1 : Nat) : Int) x
  { v := y.toNat, ov := decide (y ≠ x) }

def aluAdd (a b : Nat) : Alu := addFlags a b 0
def aluSub (a b : Nat) : Alu := addFlags a (not64 b) 1
def aluAdc (c : Bool) (a b : Nat) : Alu := addFlags a b (b2n c)
def aluSbc (c : Bool) (a b : Nat) : Alu := addFlags a (not64 b) (b2n c)
/-- 0 − A; V for −2^63 (R250). -/
def aluNeg (a : Nat) : Alu := { v := (2 ^ 64 - a) % 2 ^ 64, ov := decide (a = 2 ^ 63) }
def aluAdds (a b : Nat) : Alu := clampS (s64 a + s64 b)
def aluSubs (a b : Nat) : Alu := clampS (s64 a - s64 b)
def aluAddus (a b : Nat) : Alu := clampU ((a : Int) + (b : Int))
def aluSubus (a b : Nat) : Alu := clampU ((a : Int) - (b : Int))
def aluAnd (a b : Nat) : Alu := plainAlu (Nat.land a b)
def aluOr (a b : Nat) : Alu := plainAlu (Nat.lor a b)
def aluXor (a b : Nat) : Alu := plainAlu (Nat.xor a b)
def aluAndn (a b : Nat) : Alu := plainAlu (Nat.land a (not64 b))
/-- Shifts take the whole unsigned amount (R250). -/
def aluSll (a n : Nat) : Alu := plainAlu (if n < 64 then a * 2 ^ n else 0)
def aluSrl (a n : Nat) : Alu := plainAlu (if n < 64 then a / 2 ^ n else 0)
def aluSra (a n : Nat) : Alu := plainAlu (wrap 64 (asr (s64 a) (min n 64)))
def aluMul (a b : Nat) : Alu := plainAlu (a * b)
def aluMulh (a b : Nat) : Alu := plainAlu (wrap 64 (asr (s64 a * s64 b) 64))
def aluMulhu (a b : Nat) : Alu := plainAlu (a * b / 2 ^ 64)
/-- The quotient truncated toward zero; −2^63 by −1 sets V, by 0 sets DZ (R250). -/
def aluDiv (a b : Nat) : Alu :=
  if b = 0 then { v := 0, dz := true }
  else { v := wrap 64 ((s64 a).tdiv (s64 b)), ov := decide (a = 2 ^ 63 ∧ b = 2 ^ 64 - 1) }
def aluDivu (a b : Nat) : Alu := if b = 0 then { v := 2 ^ 64 - 1, dz := true } else plainAlu (a / b)
def aluRem (a b : Nat) : Alu := if b = 0 then { v := a, dz := true } else plainAlu (wrap 64 ((s64 a).tmod (s64 b)))
def aluRemu (a b : Nat) : Alu := if b = 0 then { v := a, dz := true } else plainAlu (a % b)
def aluSlt (a b : Nat) : Alu := plainAlu (b2n (decide (s64 a < s64 b)))
def aluSltu (a b : Nat) : Alu := plainAlu (b2n (decide (a < b)))
def aluMin (a b : Nat) : Alu := plainAlu (if s64 a ≤ s64 b then a else b)
def aluMax (a b : Nat) : Alu := plainAlu (if s64 a ≤ s64 b then b else a)
def aluMinu (a b : Nat) : Alu := plainAlu (min a b)
def aluMaxu (a b : Nat) : Alu := plainAlu (max a b)
/-- Leading zeros of 64 bits. -/
def aluClz (a : Nat) : Alu := plainAlu ((lowestSet 64 (reverseBits 64 a)).getD 64)
def aluCtz (a : Nat) : Alu := plainAlu ((lowestSet 64 a).getD 64)
def aluPopc (a : Nat) : Alu := plainAlu (popc 64 a)
def aluSext (w a : Nat) : Alu := plainAlu (wrap 64 (sext w a))
def aluZextw (a : Nat) : Alu := plainAlu (a % 2 ^ 32)
/-- IMMS (R251). -/
def aluImms (imm k : Nat) : Alu := plainAlu (wrap 64 (sext 16 imm * ((2 ^ (16 * k) : Nat) : Int)))
/-- IMMI (R251). -/
def aluImmi (d imm k : Nat) : Alu := plainAlu (putBits d (16 * k) 16 imm)

/-- The status bits of a result put into ST: C written, V and DZ only ever set (R249). -/
def Thread.putFlags (x : Thread) (r : Alu) : Thread :=
  let x := match r.c with
    | some c => x.setSt St.C c
    | none => x
  let x := if r.ov then x.setSt St.V true else x
  if r.dz then x.setSt St.DZ true else x

/-- The result of an integer operation written to `rd`; with DZE set a division by zero traps instead (R250). -/
def State.kAlu (s : State) (t rd : Nat) (r : Alu) : KOut :=
  if r.dz && (s.th t).st St.DZE then .trap s 8 0 0
  else .done (s.modTh t (fun x => (x.putFlags r).setGpr rd r.v))

end Sys2Proof.Machine
end

