-- ==== Sys2Proof/Machine/Trig.lean ====
section
/-! DEFINITION. Correctly rounded sin, cos, tan and atan on binary64 (R81). Each is computed in fixed point with far
more bits than any binary64 argument needs, and its rounding is accepted when both ends of the error interval round
alike; the precision is doubled once otherwise. -/

namespace Sys2Proof.Machine

/-- The partial sums of an alternating factorial series: `t` the last term, `x2` the squared argument, both scaled by
2^P; `n` the next factor of the factorial. -/
def taylorGo (P x2 : Nat) : Nat → Nat → Int → Nat → Int → Int
  | 0, _, _, _, acc => acc
  | k + 1, n, sg, t, acc =>
    let t' := t * x2 / 2 ^ P / (n * (n + 1))
    taylorGo P x2 k (n + 2) (-sg) t' (acc + sg * (t' : Int))

/-- sin of r / 2^P for r below 2^(P+1), scaled by 2^P. -/
def sinFix (P r : Nat) : Int := taylorGo P (r * r / 2 ^ P) 160 2 (-1) r (r : Int)

/-- cos of r / 2^P, scaled by 2^P. -/
def cosFix (P r : Nat) : Int := taylorGo P (r * r / 2 ^ P) 160 1 (-1) (2 ^ P) ((2 ^ P : Nat) : Int)

/-- The partial sums of Σ ± t / n, where `t` shrinks by `num / den` each time. -/
def atanGo (num den : Nat) : Nat → Nat → Int → Nat → Int → Int
  | 0, _, _, _, acc => acc
  | k + 1, n, sg, t, acc =>
    let t' := t * num / den
    atanGo num den k (n + 2) (-sg) t' (acc + sg * ((t' / n : Nat) : Int))

/-- atan(1 / k) scaled by 2^Q. -/
def atanInv (Q k : Nat) : Int := atanGo 1 (k * k) (Q / 4 + 4) 3 (-1) (2 ^ Q / k) ((2 ^ Q / k : Nat) : Int)

/-- π scaled by 2^Q (Machin), to within a few hundred units. -/
def piFix (Q : Nat) : Nat := (16 * atanInv Q 5 - 4 * atanInv Q 239).toNat

/-- m × 2^e scaled by 2^Q. -/
def fixOf (m : Nat) (e : Int) (Q : Nat) : Nat :=
  let k := e + (Q : Int)
  if 0 ≤ k then m * 2 ^ k.toNat else m / 2 ^ (-k).toNat

/-- m × 2^e reduced by π / 2: the quadrant, and the rest scaled by 2^P. -/
def reduceFix (P m : Nat) (e : Int) : Nat × Nat :=
  let big := (e + (Nat.log2 m : Int)).toNat
  let Q := P + big + 64
  let h := piFix Q / 2
  let x := fixOf m e Q
  (x / h % 4, x % h / 2 ^ (Q - P))

/-- sin (`c` 0) or cos (`c` 1) of m × 2^e, scaled by 2^P. -/
def trigFix (c P m : Nat) (e : Int) : Int :=
  let r := reduceFix P m e
  match (r.1 + c) % 4 with
  | 0 => sinFix P r.2
  | 1 => cosFix P r.2
  | 2 => -sinFix P r.2
  | _ => -cosFix P r.2

/-- An inexact signed value v / 2^P rounded. -/
def roundFix (P : Nat) (v : Int) : Nat := (fround b64 (decide (v < 0)) v.natAbs true (-(P : Int))).1

/-- The rounding of v / 2^P when both ends of its error interval agree. -/
def agreeFix (P : Nat) (v : Int) : Option Nat :=
  let lo := roundFix P (v - 2 ^ 24)
  if lo = roundFix P (v + 2 ^ 24) then some lo else none

/-- sin (`c` 0) or cos (`c` 1) of a positive m × 2^e. -/
def trigPos (c m : Nat) (e : Int) : Nat :=
  match agreeFix 320 (trigFix c 320 m e) with
  | some r => r
  | none => roundFix 800 (trigFix c 800 m e)

/-- Whether m × 2^e is below 2^-27, where sin, tan and atan round to their argument and cos to 1. -/
def tinyArg (m : Nat) (e : Int) : Bool := decide (e + (Nat.log2 m : Int) < -27)

/-- sin. -/
def dsin (x : Nat) : Nat :=
  match funpack b64 x with
  | .nan => b64.nan
  | .inf _ => b64.nan
  | .fin neg m e =>
    if m = 0 ∨ tinyArg m e then x
    else let r := trigPos 0 m e; if neg then dneg r else r

/-- cos. -/
def dcos (x : Nat) : Nat :=
  match funpack b64 x with
  | .nan => b64.nan
  | .inf _ => b64.nan
  | .fin _ m e => if m = 0 ∨ tinyArg m e then dofInt 1 else trigPos 1 m e

/-- tan of a positive m × 2^e with precision P, rounded, if both ends of its error interval agree. -/
def tanAt (P m : Nat) (e : Int) : Option Nat :=
  let sn := trigFix 0 P m e
  let cs := trigFix 1 P m e
  let neg := decide (sn < 0) != decide (cs < 0)
  let lo := (froundRat b64 neg (sn.natAbs - 2 ^ 24) (cs.natAbs + 2 ^ 24) 0).1
  let hi := (froundRat b64 neg (sn.natAbs + 2 ^ 24) (cs.natAbs - 2 ^ 24) 0).1
  if lo = hi then some lo else none

/-- tan. -/
def dtan (x : Nat) : Nat :=
  match funpack b64 x with
  | .nan => b64.nan
  | .inf _ => b64.nan
  | .fin neg m e =>
    if m = 0 ∨ tinyArg m e then x
    else
      let r := match tanAt 320 m e with
        | some r => r
        | none => (tanAt 800 m e).getD b64.nan
      if neg then dneg r else r

/-- The tangent of half the angle whose tangent is y / 2^P: y / (1 + √(1 + y²)). -/
def halfTan (P y : Nat) : Nat := y * 2 ^ P / (2 ^ P + isqrt (2 ^ (2 * P) + y * y))

/-- atan of y / 2^P for y at most 2^P, scaled by 2^P. -/
def atanFix (P y : Nat) : Int :=
  let z := halfTan P (halfTan P (halfTan P y))
  8 * atanGo (z * z / 2 ^ P) (2 ^ P) (P / 6 + 4) 3 (-1) z (z : Int)

/-- atan of a positive m × 2^e, scaled by 2^P. -/
def atanPosFix (P m : Nat) (e : Int) : Int :=
  if e + (Nat.log2 m : Int) < 0 then atanFix P (fixOf m e P)
  else (piFix P / 2 : Nat) - atanFix P (let d := fixOf m e 1100; 2 ^ (P + 1100) / d)

/-- atan. -/
def datan (x : Nat) : Nat :=
  match funpack b64 x with
  | .nan => b64.nan
  | .inf neg => let r := roundFix 320 (piFix 320 / 2 : Nat); if neg then dneg r else r
  | .fin neg m e =>
    if m = 0 ∨ tinyArg m e then x
    else
      let r := match agreeFix 320 (atanPosFix 320 m e) with
        | some r => r
        | none => roundFix 800 (atanPosFix 800 m e)
      if neg then dneg r else r

end Sys2Proof.Machine
end

