-- ==== Sys2Proof/Machine/Ship.lean ====
section
/-! DEFINITION. The ship model, the CTS lookup (chapter 2) and steps 2 to 10 of an HSE evaluation (chapter 3): what the
live cycle, sweep candidates and self-test candidates compute. -/

namespace Sys2Proof.Machine

/-! ### The ship model (R57 to R65) -/

/-- The header of a ship model at address `m` (R58). -/
structure Ship where
  m        : Nat
  flags    : Nat
  modelId  : Nat
  axisBase : Nat
  tanks    : Nat
  fixed    : Nat
  points   : Nat
  stations : Nat
  tables   : Nat
  axes     : Nat
  crits    : Nat
  marks    : Nat
  hydro    : Nat
  kn       : Nat
  section_ : Nat
  strength : Nat
  pointAddr : Nat
  rhoRef   : Nat
  lpp      : Nat
  deriving DecidableEq, Repr

/-- The header read from the model at address `m`. -/
def State.ship (s : State) (m : Nat) : Ship :=
  { m := m, flags := s.num (m + 6) 2, modelId := s.num (m + 8) 4, axisBase := s.num (m + 12) 4,
    tanks := s.num (m + 16) 2, fixed := s.num (m + 18) 2, points := s.num (m + 20) 2, stations := s.num (m + 22) 2,
    tables := s.num (m + 24) 2, axes := s.num (m + 26) 2, crits := s.num (m + 28) 2, marks := s.num (m + 30) 1,
    hydro := s.num (m + 32) 2, kn := s.num (m + 34) 2, section_ := s.num (m + 36) 2, strength := s.num (m + 38) 1,
    pointAddr := s.num (m + 40) 8, rhoRef := s.num (m + 48) 8, lpp := s.num (m + 56) 8 }

/-- The address of the model in bank `b`. -/
def modelAddr (b : Nat) : Nat := poolBase + b * bankSize

/-- Heel angle `k`. -/
def Ship.angle (h : Ship) (s : State) (k : Nat) : Nat := s.num (h.m + 0x100 + 8 * k) 8

/-- The address of tank record `i`. -/
def Ship.tank (h : Ship) (i : Nat) : Nat := h.m + 0x9000 + 192 * i

/-- The address of table descriptor `t`. -/
def Ship.table (h : Ship) (t : Nat) : Nat := h.m + 0x1800 + 16 * t

/-- QUANTITY of axis `a`. -/
def Ship.quantity (h : Ship) (s : State) (a : Nat) : Nat := bits (s.num (h.m + 0x800 + 4 * a) 4) 8 4

/-- COUNT of axis `a`. -/
def Ship.axisCount (h : Ship) (s : State) (a : Nat) : Nat := bits (s.num (h.m + 0x800 + 4 * a) 4) 0 8

/-- Dimension `d` (1 to 3) of table `t`, its 16-bit field. -/
def Ship.dim (h : Ship) (s : State) (t d : Nat) : Nat := s.num (h.table t + 2 + 2 * d) 2

/-- The number of points of a dimension field: COUNT of its axis, or its own COUNT. -/
def Ship.dimCount (h : Ship) (s : State) (f : Nat) : Nat :=
  if bit f 15 then bits f 0 8 else h.axisCount s (bits f 0 10)

/-! ### CTS entries (R38 to R46) -/

/-- The 32 bytes of CTS entry `n`. -/
def State.ctsEntry (s : State) (n : Nat) : List Byte := s.bytes (ctsBase + n * 32) 32

/-- What is wrong with an entry that should carry `tag` (R44): 0 nothing, 1 CRC, 2 tag, 3 both. -/
def entryFault (e : List Byte) (tag : Nat) : Nat :=
  b2n (decide (crc32c (e.take 28) ≠ leAt e 28 4)) + 2 * b2n (decide (leAt e 24 4 ≠ tag))

/-- The tag of grid point (j1, j2, j3) of table `t` (R48). -/
def gridTag (t j1 j2 j3 : Nat) : Nat := 2 ^ 30 + t * 2 ^ 20 + j3 * 2 ^ 13 + j2 * 2 ^ 6 + j1

/-- The tag of piece `c` of axis `a` (R45). -/
def axisTag (a c : Nat) : Nat := 2 ^ 31 + a * 2 ^ 20 + c

/-- A fault found: the entry and its cause. -/
abbrev Faults := List (Nat × Nat)

/-- Faults with those of entries not yet listed added: an entry counts once in a unit (R53). -/
def addFaults (a b : Faults) : Faults := a ++ b.filter (fun e => !a.any (fun x => x.1 == e.1))

/-- The breakpoints of axis `a` as binary64, with the faults of its pieces (R45, R46). -/
def Ship.axisPoints (h : Ship) (s : State) (a : Nat) : List Nat × Faults :=
  let n := h.axisCount s a
  let pieces := (List.range 11).map (fun c =>
    let i := h.axisBase + 11 * a + c
    let e := s.ctsEntry i
    (i, entryFault e (axisTag a c), (List.range 6).map (fun k => dofB32 (leAt e (4 * k) 4))))
  ((pieces.flatMap (fun p => p.2.2)).take n,
   pieces.filterMap (fun p => if p.2.1 = 0 then none else some (p.1, p.2.1)))

/-- Whether breakpoints are strictly increasing (R47). -/
def increasing : List Nat → Bool
  | a :: b :: r => dlt a b && increasing (b :: r)
  | _ => true

/-- A query on a dimension: a value, or an index (R50). -/
inductive Query where
  | val (x : Nat)
  | idx (k : Nat)
  deriving DecidableEq, Repr

/-- A located query: the two neighbours, the fraction between them, and whether it was clamped (R50, R51). -/
structure Loc where
  i : Nat
  j : Nat
  t : Nat := 0
  clamped : Bool := false
  deriving DecidableEq, Repr

/-- The largest k with b[k] ≤ x, among breakpoints from position `k` on whose first is not above x. -/
def lastNotAbove (x : Nat) : Nat → List Nat → Nat
  | k, _ :: b :: r => if dle b x then lastNotAbove x (k + 1) (b :: r) else k
  | k, _ => k

/-- locate of R50 on breakpoints `b`. -/
def locate (b : List Nat) (x : Nat) : Loc :=
  let n := b.length
  if n ≤ 1 then ⟨0, 0, 0, false⟩
  else if fisNan b64 x || dle x (b.headD 0) then ⟨0, 0, 0, !deq x (b.headD 0)⟩
  else if dle (b.getD (n - 1) 0) x then ⟨n - 1, n - 1, 0, !deq x (b.getD (n - 1) 0)⟩
  else
    let i := min (lastNotAbove x 0 b) (n - 2)
    let lo := b.getD i 0
    ⟨i, i + 1, ddiv (dsub x lo) (dsub (b.getD (i + 1) 0) lo), false⟩

/-- A query located on the dimension field `f`: the place, and the faults of the axis. -/
def Ship.locateOn (h : Ship) (s : State) (f : Nat) (q : Query) : Loc × Faults :=
  match q with
  | .idx k => (⟨k, k, 0, false⟩, [])
  | .val x =>
    if bit f 15 then (⟨0, 0, 0, false⟩, [])
    else
      let p := h.axisPoints s (bits f 0 10)
      (locate p.1 x, p.2)

/-- lerp of R52. -/
def lerp (a b t : Nat) : Nat := dadd a (dmul t (dsub b a))

/-- A lookup: the values (none after a table fault), whether a dimension clamped, and the faults met. -/
structure Look where
  vals : Option (List Nat)
  clamped : Bool
  faults : Faults

/-- lookup of R52 in table `t` for values V0 to V(n−1). After a fault in a piece of an axis, whether the query is clamped
is still judged by the axis's breakpoints as they stand (log entry 46). -/
def Ship.lookup (h : Ship) (s : State) (t : Nat) (q1 q2 q3 : Query) (n : Nat) : Look :=
  let f1 := h.dim s t 1
  let f2 := h.dim s t 2
  let l1 := h.locateOn s f1 q1
  let l2 := h.locateOn s f2 q2
  let l3 := h.locateOn s (h.dim s t 3) q3
  let axisFaults := addFaults (addFaults l1.2 l2.2) l3.2
  let clamped := l1.1.clamped || l2.1.clamped || l3.1.clamped
  if ¬ axisFaults.isEmpty then ⟨none, clamped, axisFaults⟩
  else
    let n1 := h.dimCount s f1
    let n2 := h.dimCount s f2
    let base := s.num (h.table t) 2
    let corner (w v u : Nat) : Nat × Nat × List Byte :=
      let j1 := if u = 0 then l1.1.i else l1.1.j
      let j2 := if v = 0 then l2.1.i else l2.1.j
      let j3 := if w = 0 then l3.1.i else l3.1.j
      let i := base + (j3 * n2 + j2) * n1 + j1
      let e := s.ctsEntry i
      (i, entryFault e (gridTag t j1 j2 j3), e)
    let cs := [corner 0 0 0, corner 0 0 1, corner 0 1 0, corner 0 1 1, corner 1 0 0, corner 1 0 1, corner 1 1 0, corner 1 1 1]
    let faults := cs.foldl (fun a c => if c.2.1 = 0 then a else addFaults a [(c.1, c.2.1)]) []
    if ¬ faults.isEmpty then ⟨none, clamped, faults⟩
    else
      let val (k : Nat) : Nat :=
        let c := cs.map (fun c => dofB32 (leAt c.2.2 (4 * k) 4))
        let g (i : Nat) : Nat := c.getD i 0
        let d00 := lerp (g 0) (g 4) l3.1.t
        let d01 := lerp (g 1) (g 5) l3.1.t
        let d10 := lerp (g 2) (g 6) l3.1.t
        let d11 := lerp (g 3) (g 7) l3.1.t
        lerp (lerp d00 d10 l2.1.t) (lerp d01 d11 l2.1.t) l1.1.t
      ⟨some ((List.range n).map val), clamped, []⟩

/-! ### One evaluation (R86 to R99) -/

/-- What steps 2 to 4 give for a tank. -/
structure TankOut where
  vol   : Nat := 0
  mass  : Nat := 0
  rate  : Nat := 0
  age   : Nat := 0
  flags : Nat := 0
  mx    : Nat := 0
  my    : Nat := 0
  mz    : Nat := 0
  fst   : Nat := 0
  fsl   : Nat := 0
  six   : List Nat := []
  used  : Bool := false
  deriving DecidableEq, Repr

/-- The value fields of a result record from WEIGHT on (R102), as binary64 patterns. `v` holds WEIGHT to
GZ_MAX_ANGLE in the order of the layout. -/
structure Rec where
  v    : List Nat := List.replicate 24 0
  mark : List Nat := List.replicate 6 0
  rho  : Nat := 0
  gz   : List Nat := List.replicate 48 0
  area : List Nat := List.replicate 48 0
  met  : Nat := 0
  app  : Nat := 0
  sfo  : Nat := 0
  bmo  : Nat := 0
  crit : List Nat := List.replicate 32 0
  sf   : List Nat := List.replicate 128 0
  bm   : List Nat := List.replicate 128 0
  deriving DecidableEq, Repr

/-- Bytes 64 to 4,095 of a result record. -/
def Rec.body (r : Rec) : List Byte :=
  let d (l : List Nat) (n : Nat) : List Byte := padTo (8 * n) (l.flatMap (toBytes 8))
  d r.v 24 ++ d r.mark 6 ++ d [r.rho, 0] 2 ++ d r.gz 48 ++ d r.area 48 ++ toBytes 4 r.met ++ toBytes 4 r.app ++
  toBytes 16 r.sfo ++ toBytes 16 r.bmo ++ List.replicate 24 0 ++ d r.crit 32 ++ List.replicate 640 0 ++
  d r.sf 128 ++ d r.bm 128

/-- `n` binary64 patterns of `bs` from offset `o`. -/
def patternsAt (bs : List Byte) (o n : Nat) : List Nat := (List.range n).map (fun k => leAt bs (o + 8 * k) 8)

/-- The fields of a whole record. -/
def Rec.parse (bs : List Byte) : Rec :=
  { v := patternsAt bs 64 24, mark := patternsAt bs 256 6, rho := leAt bs 304 8, gz := patternsAt bs 320 48,
    area := patternsAt bs 704 48, met := leAt bs 1088 4, app := leAt bs 1092 4, sfo := leAt bs 1096 16,
    bmo := leAt bs 1112 16, crit := patternsAt bs 1152 32, sf := patternsAt bs 2048 128, bm := patternsAt bs 3072 128 }

/-- What an evaluation needs: the model, inputs by tank, the starting solution, the point loads, RHO_SEA and the limit
set; for the live cycle (`live`) the tanks' kept values and the tick period, and the previous record. -/
structure EvalIn where
  ship  : Ship
  ins   : List TankIn
  start : Nat × Nat × Nat
  pts   : Option (List Byte)
  rho   : Nat
  set   : Nat
  live  : Bool
  tanks : AMap Tank := []
  prev  : Option Rec := none

/-- What an evaluation gives: the record fields, the FLAGS bits it decides, the tanks, the faults, whether a lookup of
the HYDRO, the KN and the SECTION table failed, and the tables looked up. -/
structure EvalOut where
  r      : Rec
  flags  : Nat
  tanks  : List TankOut
  faults : Faults
  failed : Bool × Bool × Bool := (false, false, false)
  looked : List Nat

/-- FLAGS bits of a tank entry (R104) for present tank `i`, steps 2 to 4 (R86, R87, R54, R56). A tank whose table fault
leaves it INVALID has TABLE_ERR without STALE, and a clamp on faulty breakpoints sets RANGE (log entry 46). -/
def evalTank (s : State) (x : EvalIn) (i : Nat) : TankOut × Faults :=
  let a := x.ship.tank i
  let fl := s.num a 4
  if fl % 2 = 0 then ({}, []) else
  let inp := x.ins.getD i {}
  match inp.snd, inp.tmp, inp.den with
  | some snd, some tmp, some den =>
    let l := x.ship.lookup s (s.num (a + 4) 2) (.val snd) (.val x.start.2.1) (.val x.start.2.2) 6
    let kept : Option (List Nat) := if x.live then (AMap.get x.tanks i {}).six else none
    let six : Option (List Nat) := match l.vals with
      | some v => some v
      | none => kept
    let tf := b2n l.vals.isNone * 2 ^ 4 + b2n (l.vals.isNone && kept.isSome) * 2 ^ 3
    match six with
    | none => ({ flags := 1 + 4 + tf + b2n l.clamped * 2 ^ 5 }, l.faults)
    | some v =>
      let g (k : Nat) : Nat := v.getD k 0
      let f := dsub (dofInt 1) (dmul (s.num (a + 120) 8) (dsub tmp (s.num (a + 112) 8)))
      let vol := dmul (g 0) f
      let m := dmul vol den
      let past := dlt (s.num (a + 152) 8) vol
      ({ vol := vol, mass := m, mx := dmul m (g 1), my := dmul m (g 2), mz := dmul m (g 3),
         fst := dmul den (g 4), fsl := dmul den (g 5), six := v, used := true,
         flags := 1 + 2 + tf + b2n l.clamped * 2 ^ 5 + b2n past * 2 ^ 7 }, l.faults)
  | _, _, _ => ({ flags := 1 + 4 }, [])

/-- The six sums of step 5: W, MX, MY, MZ, FST, FSL. -/
abbrev Sums := Nat × Nat × Nat × Nat × Nat × Nat

/-- A fixed item or point load, its 64 bytes: present, mass, LCG, TCG, VCG, extent. -/
def itemOf (b : List Byte) : Bool × List Nat := (bit (leAt b 48 4) 0, patternsAt b 0 6)

/-- The fixed items and then the point loads that contribute, in the order of R89: the point loads last accepted, all of
them (R60, R67). -/
def contribItems (s : State) (x : EvalIn) : List (List Nat) :=
  let fx := (List.range x.ship.fixed).map (fun j => itemOf (s.bytes (x.ship.m + 0x5800 + 64 * j) 64))
  let pt := match x.pts with
    | none => []
    | some b => (List.range (b.length / 64)).map (fun j => itemOf ((b.drop (64 * j)).take 64))
  (fx ++ pt).filterMap (fun e => if e.1 then some e.2 else none)

/-- The sums of R89. -/
def shipSums (tanks : List TankOut) (items : List (List Nat)) : Sums :=
  let t := tanks.foldl (fun (a : Sums) o => if o.used then
      (dadd a.1 o.mass, dadd a.2.1 o.mx, dadd a.2.2.1 o.my, dadd a.2.2.2.1 o.mz, dadd a.2.2.2.2.1 o.fst, dadd a.2.2.2.2.2 o.fsl)
    else a) (0, 0, 0, 0, 0, 0)
  items.foldl (fun (a : Sums) it =>
    let m := it.getD 0 0
    (dadd a.1 m, dadd a.2.1 (dmul m (it.getD 1 0)), dadd a.2.2.1 (dmul m (it.getD 2 0)),
     dadd a.2.2.2.1 (dmul m (it.getD 3 0)), a.2.2.2.2.1, a.2.2.2.2.2)) t

/-- The state of the iteration of R92. -/
structure Iter where
  d   : Nat
  t   : Nat
  phi : Nat
  deriving DecidableEq, Repr

/-- The two Newton steps of R92 from the HYDRO values `h`. -/
def newton (w lcg rs rr : Nat) (h : List Nat) : Nat × Nat :=
  let g (k : Nat) : Nat := h.getD k 0
  (ddiv (dsub w (dmul rs (g 0))) (dmul (dmul (dofInt 100) (g 5)) rr),
   ddiv (dmul w (dsub (g 1) lcg)) (dmul (dmul (dofInt 100) (g 4)) rr))

/-- `n` iterations of R92; none after a table fault, with its faults. -/
def solveIter (s : State) (x : EvalIn) (w lcg tcg kgc rr half : Nat) : Nat → Iter → Option Iter × Faults
  | 0, it => (some it, [])
  | n + 1, it =>
    let l := x.ship.lookup s x.ship.hydro (.val it.d) (.val it.t) (.idx 0) 6
    match l.vals with
    | none => (none, l.faults)
    | some h =>
      let st := newton w lcg x.rho rr h
      let gm := dsub (h.getD 3 0) kgc
      solveIter s x w lcg tcg kgc rr half n
        { d := dadd (dadd it.d st.1) (ddiv (dmul st.2 (dsub (h.getD 2 0) half)) x.ship.lpp),
          t := dadd it.t st.2,
          phi := if dlt 0 gm then datan (ddiv tcg gm) else it.phi }

/-- draught(x) of R95. -/
def draughtAt (d t half lpp x : Nat) : Nat := dadd d (ddiv (dmul t (dsub half x)) lpp)

/-- KN lookups of R94 in angle order until one faults. -/
def knValues (s : State) (x : EvalIn) (vw : Nat) : Nat → Option (List Nat) × Bool × Faults
  | 0 => (some [], false, [])
  | n + 1 =>
    match knValues s x vw n with
    | (none, c, f) => (none, c, f)
    | (some l, c, _) =>
      let k := x.ship.lookup s x.ship.kn (.val vw) (.idx n) (.idx 0) 1
      match k.vals with
      | none => (none, c || k.clamped, k.faults)
      | some v => (some (l ++ [v.getD 0 0]), c || k.clamped, [])

/-- AREA of R94 from the angles and GZ. -/
def areas : Nat → List (Nat × Nat) → List Nat
  | acc, (p, g) :: (p', g') :: r =>
    let a := dadd acc (dmul (dmul (dsub p' p) (dadd g g')) (dofRat false 1 2))
    a :: areas a ((p', g') :: r)
  | _, _ => []

/-- GZ_MAX and GZ_MAX_ANGLE (R94): the largest, at its lowest angle; NaN when every value is NaN. -/
def gzMax : List (Nat × Nat) → Nat × Nat
  | [] => (b64.nan, b64.nan)
  | (p, g) :: r =>
    let m := gzMax r
    if fisNan b64 g then m else if fisNan b64 m.1 || dle m.1 g then (g, p) else m

/-- SECTION lookups of R96 in station order until one faults. -/
def sectionAreas (s : State) (x : EvalIn) (d t half : Nat) : Nat → Option (List Nat) × Bool × Faults
  | 0 => (some [], false, [])
  | n + 1 =>
    match sectionAreas s x d t half n with
    | (none, c, f) => (none, c, f)
    | (some l, c, _) =>
      let xs := s.num (x.ship.m + 0x6800 + 80 * n) 8
      let k := x.ship.lookup s x.ship.section_ (.val (draughtAt d t half x.ship.lpp xs)) (.idx n) (.idx 0) 1
      match k.vals with
      | none => (none, c || k.clamped, k.faults)
      | some v => (some (l ++ [v.getD 0 0]), c || k.clamped, [])

/-- The smaller of two numbers. -/
def dmin (a b : Nat) : Nat := if dlt b a then b else a
/-- The larger of two numbers. -/
def dmax (a b : Nat) : Nat := if dlt a b then b else a

/-- The weights of the intervals (R96): every item in order adds to the intervals it overlaps. -/
def spread (xs : List Nat) (items : List (Nat × Nat × Nat)) : List Nat :=
  (List.zip xs xs.tail).map (fun iv =>
    items.foldl (fun acc it =>
      let ov := dsub (dmin it.2.2 iv.2) (dmax it.2.1 iv.1)
      if dlt 0 ov then dadd acc (ddiv (dmul it.1 ov) (dsub it.2.2 it.2.1)) else acc) 0)

/-- The running sums of R96 over the intervals: (dx, A[s−1], A[s], w[s−1]) give SF and BM at station s. -/
def strengthSums (rs g : Nat) : Nat → Nat → List (Nat × Nat × Nat × Nat) → List (Nat × Nat)
  | _, _, [] => []
  | f, m, (dx, a0, a1, w) :: r =>
    let half := dofRat false 1 2
    let buoy := dmul (dmul (dmul (dadd a0 a1) half) dx) rs
    let fn := dadd f (dsub w buoy)
    let m' := dadd m (dmul (dmul (dadd f fn) half) dx)
    (dmul fn g, dmul m' g) :: strengthSums rs g fn m' r

/-- g of R81. -/
def gravity : Nat := dofRat false 980665 100000

/-- Whether a NaN or beyond 0.001 m (R92). -/
def notConverged (r : Nat) : Bool := !dfin r || dlt (dofRat false 1 1000) (dabs r)

/-- Value and outcome of criterion `i` (R62, R98): none when it does not apply. -/
def criterion (s : State) (h : Ship) (set : Nat) (r : Rec) (i : Nat) : Option (Nat × Bool) :=
  let a := h.m + 0x400 + 32 * i
  let kind := s.num a 1
  let ia := s.num (a + 2) 1
  let ib := s.num (a + 3) 1
  let lim := s.num (a + 8) 8
  if ¬ bit (s.num (a + 1) 1) set then none
  else match kind with
    | 1 => let v := r.v.getD 21 0; some (v, dle lim v)
    | 2 => let v := dsub (r.area.getD ib 0) (r.area.getD ia 0); some (v, dle lim v)
    | 3 => let v := r.gz.getD ia 0; some (v, dle lim v)
    | 4 => let v := r.v.getD 22 0; some (v, dle lim v)
    | 5 => let v := r.v.getD 23 0; some (v, dle lim v)
    | 6 => let v := dabs (r.v.getD 8 0); some (v, dle v lim)
    | 7 => let v := dabs (r.v.getD 7 0); some (v, dle v lim)
    | 8 => let v := r.mark.getD ia 0; some (v, dle v lim)
    | 9 => let v := r.mark.getD ia 0; some (v, dle lim v)
    | _ => none

/-- A number whose bit k is `p k`, for k below `n`. -/
def maskOf (n : Nat) (p : Nat → Bool) : Nat := (List.range n).foldl (fun a k => if p k then a + 2 ^ k else a) 0

/-- Step 10 (R98, R99): criteria and strength limits of the record as it stands, and the FLAGS bits they set. -/
def limits (s : State) (h : Ship) (set : Nat) (r : Rec) : Rec × Nat :=
  let cs := (List.range (min h.crits 32)).map (criterion s h set r)
  let app := maskOf cs.length (fun k => (cs.getD k none).isSome)
  let met := maskOf cs.length (fun k => match cs.getD k none with | some v => v.2 | none => false)
  let vals := cs.map (fun c => match c with | some v => v.1 | none => 0)
  let st (k o : Nat) : Nat := s.num (h.m + 0x6800 + 80 * k + o) 8
  let o := if set = 0 then 8 else 40
  let n := min h.stations 128
  let sfo := maskOf n (fun k => dlt (st k o) (r.sf.getD k 0) || dlt (r.sf.getD k 0) (st k (o + 8)))
  let bmo := maskOf n (fun k => dlt (st k (o + 16)) (r.bm.getD k 0) || dlt (r.bm.getD k 0) (st k (o + 24)))
  ({ r with app := app, met := met, crit := padTo8 vals, sfo := sfo, bmo := bmo },
   b2n (decide (app ≠ met)) * 2 ^ 13 + b2n (decide (bmo ≠ 0)) * 2 ^ 12 + b2n (decide (sfo ≠ 0)) * 2 ^ 11)
where
  /-- 32 values. -/
  padTo8 (l : List Nat) : List Nat := l ++ List.replicate (32 - l.length) 0

/-- Fields of a record taken from the previous one, or +0.0 (R55, R56): `c` carries, `r` is what stands. -/
def carryHydro (r c : Rec) : Rec :=
  let keep := [0, 1, 2, 3, 4, 5, 20]
  { r with v := (List.range 24).map (fun k => if keep.contains k then r.v.getD k 0 else c.v.getD k 0),
           mark := c.mark, gz := c.gz, area := c.area, sf := c.sf, bm := c.bm }

/-- The KN fields carried. -/
def carryKn (r c : Rec) : Rec :=
  { r with v := (r.v.take 22) ++ [c.v.getD 22 0, c.v.getD 23 0], gz := c.gz, area := c.area }

/-- The SECTION fields carried. -/
def carrySection (r c : Rec) : Rec := { r with sf := c.sf, bm := c.bm }

/-- Steps 7 to 9 after a solved equilibrium with final HYDRO values `h`: the fields, NO_CONVERGE, RANGE and TABLE_FAULT,
the faults, and whether the KN and the SECTION table failed. -/
def evalAfter (s : State) (x : EvalIn) (r : Rec) (it : Iter) (h : List Nat) (items : List (Nat × Nat × Nat))
    (w tcg vcg kgc half rr lcg : Nat) (carry : Rec) (clamped : Bool) : Rec × Nat × Faults × Bool × Bool :=
  let rs := x.rho
  let lpp := x.ship.lpp
  let res := newton w lcg rs rr h
  let g (k : Nat) : Nat := h.getD k 0
  let marks := (List.range 6).map (fun k =>
    if bit x.ship.marks k then
      let a := x.ship.m + 0x280 + 32 * k
      dsub (dadd (draughtAt it.d it.t half lpp (s.num a 8)) (dmul (s.num (a + 8) 8) (dtan it.phi))) (s.num (a + 16) 8)
    else 0)
  let r := { r with
    v := (r.v.take 6) ++ [it.d, it.t, it.phi, draughtAt it.d it.t half lpp 0, draughtAt it.d it.t half lpp lpp,
          g 0, g 1, g 2, g 3, g 4, g 5, res.1, res.2, dsub (g 3) vcg, r.v.getD 20 0, dsub (g 3) kgc, 0, 0],
    mark := marks }
  let noConv := notConverged res.1 || notConverged res.2
  let kn := knValues s x (ddiv w rs) 48
  let r1 : Rec × Bool := match kn.1 with
    | none => (carryKn r carry, true)
    | some kns =>
      let gz := (List.range 48).map (fun k =>
        let p := x.ship.angle s k
        dsub (dsub (kns.getD k 0) (dmul kgc (dsin p))) (dmul tcg (dcos p)))
      let pg := List.zip ((List.range 48).map (x.ship.angle s)) gz
      let m := gzMax pg
      ({ r with gz := gz, area := 0 :: areas 0 pg, v := (r.v.take 22) ++ [m.1, m.2] }, false)
  let xs := (List.range x.ship.stations).map (fun k => s.num (x.ship.m + 0x6800 + 80 * k) 8)
  let sec := sectionAreas s x it.d it.t half x.ship.stations
  let r2 : Rec × Bool := match sec.1 with
    | none => (carrySection r1.1 carry, true)
    | some as_ =>
      let ws := spread xs items
      let iv := List.zip (List.zipWith (fun a b => dsub b a) xs xs.tail) (List.zip as_ (List.zip as_.tail ws))
      let sums := strengthSums rs gravity 0 0 iv
      ({ r1.1 with sf := 0 :: sums.map (fun p => p.1), bm := 0 :: sums.map (fun p => p.2) }, false)
  (r2.1, b2n noConv * 2 ^ 7 + b2n (clamped || kn.2.1 || sec.2.1) * 2 ^ 6 + b2n (r1.2 || r2.2) * 2 ^ 2,
   addFaults kn.2.2 sec.2.2, r1.2, r2.2)

/-- FLAGS.NEG_GM of a record (R93). -/
def negGm (r : Rec) : Nat := b2n (!dlt 0 (r.v.getD 21 0)) * 2 ^ 9

/-- FLAGS.NO_CONVERGE of a record (R92). -/
def noConverge (r : Rec) : Nat := b2n (notConverged (r.v.getD 17 0) || notConverged (r.v.getD 18 0)) * 2 ^ 7

/-- The record of an evaluation that found no weight (R90): WEIGHT and the starting solution. -/
def noWeight (w : Nat) (start : Nat × Nat × Nat) : Rec :=
  { v := [w, 0, 0, 0, 0, 0, start.1, start.2.1, start.2.2] ++ List.replicate 15 0 }

/-- Steps 2 to 10 of an evaluation. The FLAGS it gives: TABLE_FAULT, CARRIED, RANGE, NO_CONVERGE, NEG_GM, NO_WEIGHT and
the limit flags. RANGE covers a final HYDRO lookup that clamps and then meets a table fault (R55). -/
def evalShip (s : State) (x : EvalIn) : EvalOut :=
  let ts := (List.range x.ship.tanks).map (evalTank s x)
  let tanks := ts.map (fun t => t.1)
  let tFaults := ts.foldl (fun a t => addFaults a t.2) []
  let tabs := ((List.zip (List.range tanks.length) tanks).filter (fun e => bit e.2.flags 1 || bit e.2.flags 4)).map
    (fun e => s.num (x.ship.tank e.1 + 4) 2)
  let items := contribItems s x
  let sm := shipSums tanks items
  let w := sm.1
  let tankFault := b2n (!tFaults.isEmpty && !x.live) * 2 ^ 2
  if ¬ dlt 0 w then
    { r := noWeight w x.start, flags := 2 ^ 15 + tankFault, tanks := tanks, faults := tFaults, looked := tabs }
  else
    let lcg := ddiv sm.2.1 w
    let tcg := ddiv sm.2.2.1 w
    let vcg := ddiv sm.2.2.2.1 w
    let fsc := ddiv sm.2.2.2.2.1 w
    let kgc := dadd vcg fsc
    let rr := ddiv x.rho x.ship.rhoRef
    let half := dmul x.ship.lpp (dofRat false 1 2)
    let r : Rec := { v := [w, lcg, tcg, vcg, sm.2.2.2.2.1, sm.2.2.2.2.2] ++ List.replicate 14 0 ++ [fsc, 0, 0, 0], rho := x.rho }
    let carry := x.prev.getD {}
    let extents : List (Nat × Nat × Nat) :=
      (List.zip (List.range tanks.length) tanks).filterMap (fun e =>
        if e.2.used then some (e.2.mass, s.num (x.ship.tank e.1 + 136) 8, s.num (x.ship.tank e.1 + 144) 8) else none) ++
      items.map (fun it => (it.getD 0 0, it.getD 4 0, it.getD 5 0))
    let sol := solveIter s x w lcg tcg kgc rr half 8 ⟨x.start.1, x.start.2.1, x.start.2.2⟩
    let fin : Option (Iter × List Nat) × Bool × Faults := match sol with
      | (none, f) => (none, false, f)
      | (some it, _) =>
        let l := x.ship.lookup s x.ship.hydro (.val it.d) (.val it.t) (.idx 0) 6
        (l.vals.map (fun h => (it, h)), l.clamped, l.faults)
    let res : Rec × Nat × Faults × Bool × Bool := match fin with
      | (none, c, f) => (carryHydro r carry, 2 ^ 2 + b2n c * 2 ^ 6, f, false, false)
      | (some (it, h), c, _) => evalAfter s x r it h extents w tcg vcg kgc half rr lcg carry c
    let lim := limits s x.ship x.set res.1
    let tf := bit res.2.1 2
    let conv := if fin.1.isNone then noConverge lim.1 else 0
    let flags := res.2.1 + conv + lim.2 + negGm lim.1 + b2n (tf && x.live && x.prev.isSome) * 2 ^ 14
    { r := lim.1, flags := if tf then flags else flags + tankFault, tanks := tanks,
      faults := addFaults tFaults res.2.2.1, failed := (fin.1.isNone, res.2.2.2),
      looked := tabs ++ (if fin.1.isNone then [x.ship.hydro] else [x.ship.hydro, x.ship.kn, x.ship.section_]) }

/-! ### Undefined result fields (U-03, U-04) -/

/-- Whether a piece of an axis of table `t` is among the entries `hits`. -/
def Ship.axisHit (h : Ship) (hits : List Nat) (f : Nat) : Bool :=
  !bit f 15 && hits.any (fun e =>
    decide (h.axisBase + 11 * bits f 0 10 ≤ e) && decide (e < h.axisBase + 11 * bits f 0 10 + 11))

/-- Whether table `t` is on an axis that is not strictly increasing (U-03), or one of its entries or of its axes'
entries is among `hits` (U-04). -/
def Ship.tableOpen (h : Ship) (s : State) (hits : List Nat) (t : Nat) : Bool :=
  let dims := [h.dim s t 1, h.dim s t 2, h.dim s t 3]
  let base := s.num (h.table t) 2
  let size := dims.foldl (fun a f => a * h.dimCount s f) 1
  dims.any (fun f => (!bit f 15 && !increasing (h.axisPoints s (bits f 0 10)).1) || h.axisHit hits f) ||
  hits.any (fun e => decide (base ≤ e) && decide (e < base + size))

/-- What is undefined in a unit: the tanks whose values come from an open table, the tanks that were looked up in one
(RANGE), whether HYDRO, KN and SECTION are open, and whether the draught axis was written (even keel). -/
structure Open where
  tanks  : List Nat
  ranges : List Nat
  hydro  : Bool
  kn     : Bool
  sec    : Bool
  keel   : Bool
  deriving DecidableEq, Repr

/-- What is undefined in a unit on model `h` whose tanks have the FLAGS `fl`, with CTS entries `hits` written meanwhile.
Values kept over a table fault and an INVALID tank's zeros come from no open table (R54, R85). -/
def openOf (s : State) (h : Ship) (hits fl : List Nat) : Open :=
  let f (i : Nat) : Nat := fl.getD i 0
  let l := (List.range h.tanks).filter (fun i =>
    (bit (f i) 1 || bit (f i) 4) && h.tableOpen s hits (s.num (h.tank i + 4) 2))
  { tanks := l.filter (fun i => !bit (f i) 4), ranges := l,
    hydro := h.tableOpen s hits h.hydro, kn := h.tableOpen s hits h.kn, sec := h.tableOpen s hits h.section_,
    keel := h.axisHit hits (h.dim s h.hydro 1) }

/-- Whether anything is undefined. -/
def Open.any (o : Open) : Bool := !o.ranges.isEmpty || o.hydro || o.kn || o.sec

/-- `n` free values from counter value `c` on. -/
def freeNums (c n : Nat) : List Nat := (List.range n).map (fun k => (Config.freeValue (c + k)).toNat)

/-- The values of `l` at the positions that `p` names replaced by free values from counter value `c` on. -/
def freeAt (c : Nat) (p : Nat → Bool) (l : List Nat) : List Nat :=
  (List.zip (List.range l.length) l).map (fun e => if p e.1 then (Config.freeValue (c + e.1)).toNat else e.2)

/-- A record of model `h` with its undefined fields free, from free value `c` on, and its FLAGS: WEIGHT decides NO_WEIGHT,
fields carried or zero after a table fault (`failed`) stand, and step 10 works on the fields as they are. -/
def openRecord (s : State) (c : Nat) (h : Ship) (o : Open) (failed : Bool × Bool × Bool) (set rho : Nat)
    (start : Nat × Nat × Nat) (tankFault : Bool) (r : Rec) (fl : Nat) : Rec × Nat :=
  let t := !o.tanks.isEmpty
  let w := if t then (Config.freeValue c).toNat else r.v.getD 0 0
  let keel : Nat × Nat × Nat :=
    if o.keel && bit fl 1 then ((Config.freeValue (c + 6)).toNat, start.2) else start
  let keep := Nat.land fl 0x053A
  if ¬ dlt 0 w then
    (noWeight w keel, keep + 2 ^ 15 + b2n tankFault * 2 ^ 2)
  else
    let eq := (t || o.hydro) && !failed.1
    let gz := (t || o.kn) && !failed.1 && !failed.2.1
    let str := (t || o.hydro || o.sec) && !failed.1 && !failed.2.2
    let sums := fun k => decide (k < 6 ∨ k = 20)
    let v := (w :: r.v.tail)
    let v := freeAt c (fun k => k != 0 && ((t && sums k) || (eq && !sums k && decide (k < 22)) || (gz && decide (22 ≤ k)))) v
    let r : Rec := { r with
      v := v, rho := rho
      mark := freeAt (c + 30) (fun k => eq && bit h.marks k) r.mark
      gz := freeAt (c + 40) (fun _ => gz) r.gz
      area := freeAt (c + 100) (fun k => gz && k != 0) r.area
      sf := freeAt (c + 150) (fun k => str && k != 0 && decide (k < h.stations)) r.sf
      bm := freeAt (c + 280) (fun k => str && k != 0 && decide (k < h.stations)) r.bm }
    let lim := limits s h set r
    let range := Nat.land (if t || o.hydro || o.kn || o.sec then (Config.freeValue (c + 420)).toNat else fl) 0x40
    let fl := keep + Nat.land fl 0x4004 + range + lim.2 + negGm lim.1 + noConverge lim.1
    (lim.1, fl + b2n (!(bit fl 4 || bit fl 2)))

/-- An entry of the tank block with its undefined fields free from free value `c` on: VOLUME, MASS and what is computed
from them (`all`), RATE where it is a filtered value of this cycle (`live`), and RANGE. -/
def openTank (s : State) (c : Nat) (h : Ship) (i : Nat) (all live : Bool) (e : List Byte) : List Byte :=
  let fl := leAt e 24 4
  let f := freeNums c 4
  let vol := if all then f.getD 0 0 else leAt e 0 8
  let mass := if all then f.getD 1 0 else leAt e 8 8
  let rate := if all && live && bit fl 6 then f.getD 2 0 else leAt e 16 8
  let fl := putBits fl 5 1 (f.getD 3 0)
  let fl := if all then putBits fl 7 1 (b2n (dlt (s.num (h.tank i + 152) 8) vol)) else fl
  toBytes 8 vol ++ toBytes 8 mass ++ toBytes 8 rate ++ toBytes 4 fl ++ e.drop 28

/-- A tank block with its undefined fields free from free value `c` on. -/
def openBlock (s : State) (c : Nat) (h : Ship) (o : Open) (live : Bool) (block : List Byte) : List Byte :=
  o.ranges.foldl (fun b i =>
    b.take (32 * i) ++ openTank s (c + 500 + 4 * i) h i (o.tanks.contains i) live ((b.drop (32 * i)).take 32) ++
    b.drop (32 * i + 32)) block

/-! ### Records -/

/-- A result record (R102) from its parts. -/
def recordBytes (kind pos epoch modelId flags stamp vote inv stale cand lat digest : Nat) (body : List Byte) : List Byte :=
  toBytes 4 0x52484453 ++ toBytes 2 1 ++ toBytes 1 kind ++ toBytes 1 pos ++ toBytes 8 epoch ++ toBytes 4 modelId ++
  toBytes 4 flags ++ toBytes 8 stamp ++ toBytes 4 vote ++ toBytes 2 inv ++ toBytes 2 stale ++ toBytes 4 cand ++
  toBytes 4 lat ++ List.replicate 8 0 ++ toBytes 8 digest ++ body

/-- The digest of a record and its tank block (R105). -/
def digestOf (epoch modelId flags : Nat) (body block : List Byte) : Nat :=
  crc64 (toBytes 8 epoch ++ toBytes 4 modelId ++ toBytes 4 (putBits flags 10 1 0) ++ body ++ block)

/-- An entry of the tank block (R104). -/
def tankEntry (o : TankOut) : List Byte :=
  toBytes 8 o.vol ++ toBytes 8 o.mass ++ toBytes 8 o.rate ++ toBytes 4 o.flags ++ toBytes 4 o.age

/-- The tank block. -/
def tankBlock (l : List TankOut) : List Byte := padTo 16384 (l.flatMap tankEntry)

/-- The breakpoints of the HYDRO draught axis, with the faults of its pieces. -/
def Ship.draughtAxis (h : Ship) (s : State) : List Nat × Faults := h.axisPoints s (bits (h.dim s h.hydro 1) 0 10)

/-- Even keel (R91): the middle of the HYDRO draught axis. A faulty piece of the axis is counted (R46, R53) and its
breakpoints are used as they stand (log entry 46). -/
def evenKeel (s : State) (h : Ship) : Nat × Nat × Nat :=
  let p := (h.draughtAxis s).1
  (dmul (dadd (p.headD 0) (p.getD (p.length - 1) 0)) (dofRat false 1 2), 0, 0)

/-- Whether every value of a solution is finite. -/
def solFinite (x : Nat × Nat × Nat) : Bool := dfin x.1 && dfin x.2.1 && dfin x.2.2

/-- The HSE as a requester: code 8 with ATTR_S (R16). -/
def State.hseReq (s : State) : Req := s.engine 8 (s.flag F.HSE_CTRL_ATTR_S)

/-- The parts of the active model that every unit reads (R75): offset and length of each. Reserved areas and entries
beyond the counts are left out. -/
def Ship.parts (h : Ship) : List (Nat × Nat) :=
  [(0, 64), (248, 8), (0x100, 384)] ++ (List.range 6).map (fun k => (0x280 + 32 * k, 24)) ++
  (List.range h.crits).map (fun k => (0x400 + 32 * k, 16)) ++ (List.range h.fixed).map (fun k => (0x5800 + 64 * k, 52)) ++
  (List.range h.stations).map (fun k => (0x6800 + 80 * k, 72)) ++ (List.range h.tanks).map (fun k => (0x9000 + 192 * k, 160))

/-- The directory entry of the axis of dimension field `f`. -/
def axisPart (f : Nat) : List (Nat × Nat) := if bit f 15 then [] else [(0x800 + 4 * bits f 0 10, 4)]

/-- The descriptor of table `t` and the directory entries of its axes, which a lookup in it reads (R75). -/
def Ship.tableParts (h : Ship) (s : State) (t : Nat) : List (Nat × Nat) :=
  (0x1800 + 16 * t, 10) :: [1, 2, 3].flatMap (fun d => axisPart (h.dim s t d))

/-- What even keel reads of the directories. -/
def Ship.keelParts (h : Ship) (s : State) : List (Nat × Nat) :=
  (0x1800 + 16 * h.hydro, 10) :: axisPart (h.dim s h.hydro 1)

/-- Reads of `l` (offset, length) at `a` as requester `q`: whether all gave data, and the machine after them. -/
def State.readAll (s : State) (q : Req) (a : Nat) : List (Nat × Nat) → Bool × State
  | [] => (true, s)
  | (o, n) :: r =>
    if n = 0 then s.readAll q a r else
    match s.memRead q (a + o) n with
    | ⟨.ok, _, s'⟩ => s'.readAll q a r
    | ⟨_, _, s'⟩ => (false, s')

/-- The bank `b` of the active model is owned by code 8, without which the HSE does not use it (R57), and the reads of
the model that every unit makes are performed without refusal or error (R75): the answer, and the machine after them. -/
def State.readModel (s : State) (b : Nat) : Bool × State :=
  let m := modelAddr b
  if bits (s.ownInForce b) 0 4 ≠ 8 then (false, s)
  else
    let r := s.readAll s.hseReq m [(0, 64)]
    if r.1 then r.2.readAll r.2.hseReq m (r.2.ship m).parts else r

/-- The reads of the directories for the tables `ts` that a unit looks up in model `h`, and for even keel. -/
def State.readTables (s : State) (h : Ship) (keel : Bool) (ts : List Nat) : Bool × State :=
  s.readAll s.hseReq h.m ((if keel then h.keelParts s else []) ++ ts.eraseDups.flatMap (h.tableParts s))

/-- The faults of one unit counted, recorded and signalled, each entry once (R53). -/
def State.countFaults (s : State) (f : Faults) : State :=
  f.foldl (fun s e => ((s.bump R.HSE_CTS_ERR_COUNT).setReg R.HSE_CTS_ERR (e.2 * 2 ^ 30 + e.1)).fire Src.HSE_TABLE_ERR) s

end Sys2Proof.Machine
end

