-- ==== Sys2Proof/Machine/Validate.lean ====
section
/-! DEFINITION. Model validation (R57 to R66, R70): the checks in the order of R70's table. -/

namespace Sys2Proof.Machine

/-- A failed check: VAL_CODE, ITEM and ENTRY. -/
abbrev Bad := Option (Nat × Nat × Nat)

/-- The first failure among checks. -/
def firstBad : List (Unit → Bad) → Bad
  | [] => none
  | f :: r => match f () with
    | some b => some b
    | none => firstBad r

/-- The first position in `l` that fails `ok`. -/
def badAt (code : Nat) (ok : Nat → Bool) (l : List Nat) : Bad := (l.find? (fun i => !ok i)).map (fun i => (code, i, 0))

/-- Header fields and their ranges (R58), by offset. -/
def headerRanges : List (Nat × Nat × Nat) :=
  [(16, 1, 512), (18, 0, 64), (20, 0, 256), (22, 2, 128), (24, 3, 1024), (26, 1, 1024), (28, 0, 32)]

/-- A table is used: below TABLE_COUNT with a KIND. -/
def Ship.kind (h : Ship) (s : State) (t : Nat) : Nat := s.num (h.table t + 2) 1

/-- The used tables. -/
def Ship.usedTables (h : Ship) (s : State) : List Nat := (List.range h.tables).filter (fun t => h.kind s t != 0)

/-- The axes that used tables reference, in ascending order. -/
def Ship.usedAxes (h : Ship) (s : State) : List Nat :=
  let named := (h.usedTables s).flatMap (fun t => [1, 2, 3].filterMap (fun d =>
    let f := h.dim s t d
    if bit f 15 then none else some (bits f 0 10)))
  (List.range 1024).filter (fun a => named.contains a)

/-- An axis obeys R63. -/
def Ship.axisOk (h : Ship) (s : State) (a : Nat) : Bool :=
  let q := h.quantity s a
  let n := h.axisCount s a
  decide (a < h.axes) && decide (1 ≤ q ∧ q ≤ 7) && decide (1 ≤ n ∧ n ≤ 64) &&
  (if q = 3 ∨ q = 4 then decide (n ≤ 9) else decide (2 ≤ n))

/-- Dimension field `f` is an axis of one of the quantities `qs`. -/
def Ship.dimAxis (h : Ship) (s : State) (f : Nat) (qs : List Nat) : Bool :=
  !bit f 15 && qs.contains (h.quantity s (bits f 0 10))

/-- Dimension field `f` is an index dimension of `n`: COUNT is bits 7:0. -/
def dimIndex (f n : Nat) : Bool := bit f 15 && decide (bits f 0 8 = n)

/-- A used table obeys R49 and R63. -/
def Ship.tableOk (h : Ship) (s : State) (t : Nat) : Bool :=
  let f1 := h.dim s t 1
  let f2 := h.dim s t 2
  let f3 := h.dim s t 3
  match h.kind s t with
  | 1 => h.dimAxis s f1 [1, 2] && h.dimAxis s f2 [3] && h.dimAxis s f3 [4]
  | 2 => h.dimAxis s f1 [5] && h.dimAxis s f2 [3] && dimIndex f3 1
  | 3 => h.dimAxis s f1 [6] && dimIndex f2 48 && dimIndex f3 1
  | 4 => h.dimAxis s f1 [7] && dimIndex f2 h.stations && dimIndex f3 1
  | _ => false

/-- The first entry of table `t` and the entry past its last. -/
def Ship.span (h : Ship) (s : State) (t : Nat) : Nat × Nat :=
  let base := s.num (h.table t) 2
  (base, base + [1, 2, 3].foldl (fun a d => a * h.dimCount s (h.dim s t d)) 1)

/-- Every entry of the used tables and axes (each described table counts as referenced, log entry 46): the item, the entry
and its expected tag, tables first (R45, R48). -/
def Ship.entries (h : Ship) (s : State) : List (Nat × Nat × Nat) :=
  (h.usedTables s).flatMap (fun t =>
    let n1 := h.dimCount s (h.dim s t 1)
    let n2 := h.dimCount s (h.dim s t 2)
    (List.range ((h.span s t).2 - (h.span s t).1)).map (fun e =>
      (t, (h.span s t).1 + e, gridTag t (e % n1) (e / n1 % n2) (e / n1 / n2)))) ++
  (h.usedAxes s).flatMap (fun a => (List.range 11).map (fun c => (a, h.axisBase + 11 * a + c, axisTag a c)))

/-- The entries read one after another until one fails its CRC: the faults found, and what fails: a CRC failure ends
the check at its entry (0x0A); otherwise the first wrong tag (0x0B). -/
def scanEntries (s : State) : List (Nat × Nat × Nat) → Bad → Faults → Bad × Faults
  | [], tag, fs => (tag, fs)
  | (i, e, t) :: r, tag, fs =>
    let c := entryFault (s.ctsEntry e) t
    if c = 0 then scanEntries s r tag fs
    else if c % 2 = 1 then (some (0x0A, i, e), addFaults fs [(e, c)])
    else scanEntries s r (tag.or (some (0x0B, i, e))) (addFaults fs [(e, c)])

/-- An extent obeys R65 within `lo` to `hi`. -/
def extentOk (lo hi a b : Nat) : Bool := dlt a b && dle lo a && dle b hi

/-- A present tank obeys check 0x0C. -/
def Ship.tankOk (h : Ship) (s : State) (lo hi i : Nat) : Bool :=
  let a := h.tank i
  let fl := s.num a 4
  let t := s.num (a + 4) 2
  let f1 := h.dim s t 1
  !bit fl 0 ||
  (decide (t < h.tables) && decide (h.kind s t = 1) && decide (bits fl 4 2 < 2) &&
   (!bit fl 2 || decide (bits fl 6 2 < 2)) && (!bit fl 3 || decide (bits fl 8 2 < 2)) &&
   (bit fl 1 == decide (h.quantity s (bits f1 0 10) = 2)) &&
   extentOk lo hi (s.num (a + 136) 8) (s.num (a + 144) 8))

/-- A criterion obeys R62 and check 0x0E; the reserved bits of SETS are ignored (R9). -/
def critOk (s : State) (a : Nat) : Bool :=
  let k := s.num a 1
  let sets := bits (s.num (a + 1) 1) 0 2
  let ia := s.num (a + 2) 1
  let ib := s.num (a + 3) 1
  decide (k = 0) ||
  (decide (k ≤ 9) && decide (sets ≠ 0) &&
   (if k = 2 then decide (ia ≤ 46 ∧ ia + 1 ≤ ib ∧ ib ≤ 47) else if k = 3 then decide (ia ≤ 47)
    else if k = 8 ∨ k = 9 then decide (ia ≤ 5) else true))

/-- The point load block lies wholly in the pool direct window or in CXL memory, 64-byte aligned (R58, R66). -/
def pointOk (p : Nat) : Bool :=
  decide (p % 64 = 0) &&
  (decide (poolBase ≤ p ∧ p + 32832 ≤ poolBase + poolSize) || decide (cxlBase ≤ p ∧ p + 32832 ≤ cxlBase + 0x10000000000))

/-- The checks 0x01 to 0x09 of the model whose header is `h`. Log entry 46: FLAGS before the counts and MARK_MASK in 0x03,
the dimensions before the kinds named in 0x07, an axis at or above AXIS_COUNT fails 0x05, and the number of TANK
descriptors is not limited. -/
def headChecks (s : State) (h : Ship) : List (Unit → Bad) :=
  let m := h.m
  [fun _ => if s.num m 4 = 0x4D534453 ∧ s.num (m + 4) 2 = 1 then none else some (0x01, 0, 0),
   fun _ => if crc64 (s.bytes m 248 ++ List.replicate 8 0 ++ s.bytes (m + 256) (0x21000 - 256)) = s.num (m + 248) 8
            then none else some (0x02, 0, 0),
   fun _ => if h.flags / 2 ≠ 0 then some (0x03, 6, 0) else none,
   fun _ => (headerRanges.find? (fun e => s.num (m + e.1) 2 < e.2.1 || e.2.2 < s.num (m + e.1) 2)).map
              (fun e => (0x03, e.1, 0)),
   fun _ => if h.marks / 64 ≠ 0 then some (0x03, 30, 0) else none,
   fun _ => badAt 0x04 (fun k => if k = 0 then decide (h.angle s 0 = 0) else dlt (h.angle s (k - 1)) (h.angle s k))
              (List.range 48),
   fun _ => badAt 0x05 (h.axisOk s) (h.usedAxes s),
   fun _ => if h.axisBase + 11 * h.axes ≤ 65536 then none else some (0x06, 0, 0),
   fun _ => badAt 0x07 (h.tableOk s) (h.usedTables s),
   fun _ => badAt 0x07 (fun t => decide (t < h.tables) &&
              decide (h.kind s t = if t = h.hydro then 2 else if t = h.kn then 3 else 4)) [h.hydro, h.kn, h.section_],
   fun _ => badAt 0x07 (fun t => decide (h.kind s t < 2) || decide (t = h.hydro) || decide (t = h.kn) || decide (t = h.section_))
              (h.usedTables s),
   fun _ => badAt 0x08 (fun t => decide ((h.span s t).2 ≤ h.axisBase)) (h.usedTables s),
   fun _ => badAt 0x09 (fun t => (h.usedTables s).all (fun u => decide (t ≤ u) ||
              decide ((h.span s t).2 ≤ (h.span s u).1) || decide ((h.span s u).2 ≤ (h.span s t).1))) (h.usedTables s)]

/-- The checks 0x0C to 0x10. -/
def tailChecks (s : State) (h : Ship) : List (Unit → Bad) :=
  let x (k : Nat) : Nat := s.num (h.m + 0x6800 + 80 * k) 8
  let lo := x 0
  let hi := x (h.stations - 1)
  [fun _ => badAt 0x0C (h.tankOk s lo hi) (List.range h.tanks),
   fun _ => badAt 0x0D (fun k => decide (k = 0) || dlt (x (k - 1)) (x k)) (List.range h.stations),
   fun _ => badAt 0x0D (fun j =>
              let a := h.m + 0x5800 + 64 * j
              !bit (s.num (a + 48) 4) 0 || extentOk lo hi (s.num (a + 32) 8) (s.num (a + 40) 8)) (List.range h.fixed),
   fun _ => badAt 0x0E (fun i => critOk s (h.m + 0x400 + 32 * i)) (List.range h.crits),
   fun _ => if pointOk h.pointAddr then none else some (0x10, 0, 0)]

/-- The outcome of validation of bank `b` with every read performed: what fails, and the faults found (R53). -/
def validateModel (s : State) (b : Nat) : Bad × Faults :=
  let h := s.ship (modelAddr b)
  match firstBad (headChecks s h) with
  | some x => (some x, [])
  | none =>
    let e := scanEntries s (h.entries s) none []
    match e.1 with
    | some x => (some x, e.2)
    | none => (firstBad (tailChecks s h), [])

/-- Whether one of the CTS entries written since validation began belongs to the model in bank `b` (R69). -/
def State.modelHit (s : State) (b : Nat) : Bool :=
  let h := s.ship (modelAddr b)
  match s.valHits with
  | [] => false
  | l => l.any (fun e =>
      (h.usedTables s).any (fun t => decide ((h.span s t).1 ≤ e) && decide (e < (h.span s t).2)) ||
      (h.usedAxes s).any (fun a => decide (h.axisBase + 11 * a ≤ e) && decide (e < h.axisBase + 11 * a + 11)))

/-- VALIDATE (R70): BANK is latched and validation runs. -/
def State.validateStart (s : State) : State :=
  let b := s.fld F.HSE_MODEL_NEXT_BANK
  let s := (s.setFld F.HSE_MODEL_CMD_VALIDATE 1).setFld F.HSE_MODEL_STATUS_VAL_STATE 1
  { s with hse := { s.hse with valBank := b, valLost := bits (s.ownInForce b) 0 4 != 8 }, valHits := [] }

/-- A validation runs and has the HSE: no live cycle is pending or in progress (R108). -/
def State.validating (s : State) : Bool :=
  s.flag F.HSE_MODEL_CMD_VALIDATE && s.hseOn && s.hse.tick.isNone && !s.flag F.HSE_STATUS_RUNNING

/-- The end of validation (R70): the bank owned by code 8 throughout, every read performed without error, every check
passed; an outcome made undefined by a write to an entry in use is free (U-04). The whole model is read before the first
check (log entry 46). -/
def State.validationEnd (s : State) : State :=
  if ¬ s.validating then s
  else
    let b := s.hse.valBank
    let hit := s.modelHit b
    let r := s.memRead s.hseReq (modelAddr b) 0x21000
    let v : Bad × Faults :=
      if s.hse.valLost || 288 ≤ b then (some (0x0F, b, 0), [])
      else match r.st with
        | .refused => (some (0x0F, b, 0), [])
        | .error => (some (0x11, b, 0), [])
        | .ok => validateModel r.s b
    let s := (r.s.countFaults v.2).setFld F.HSE_MODEL_CMD_VALIDATE 0
    let c := v.1.getD (0, 0, 0)
    let s := { s with valHits := [] }
    let put (s : State) (st code item entry : Nat) : State :=
      ((s.setFld F.HSE_MODEL_STATUS_VAL_STATE st).setFld F.HSE_MODEL_STATUS_VAL_CODE code).setReg
        R.HSE_MODEL_VAL_DETAIL (item % 65536 * 65536 + entry % 65536)
    if hit then
      let f (i : Nat) : Nat := (Config.freeValue (s.free + i)).toNat
      (put s (2 + f 0 % 2) (f 1) (f 2) (f 3)).skipFree 4
    else put s (if v.1.isSome then 3 else 2) c.1 c.2.1 c.2.2

end Sys2Proof.Machine
end

