-- ==== Sys2Proof/Machine/Hse.lean ====
section
/-! DEFINITION. The hydrostatic engine (chapters 2 to 4): model commands, the tick at the HSE, the live cycle and its
publication, base slots, sweep jobs and candidates, self-test, adoption, and the HSE registers. -/

namespace Sys2Proof.Machine

/-! ### First use, the active model (R60, R72, R74, R75, R106) -/

/-- A cycle in progress keeps nothing for the next; it is compared with the state current until now (R100). -/
def Hse.orphan (x : Hse) : Hse :=
  { x with cycle := x.cycle.map (fun c =>
      { c with orphan := true, was := if c.orphan then c.was else (x.fails, x.sfOver, x.bmOver) }) }

/-- Starting conditions of first use (R106); the table values of the tanks go too (log entry 46). -/
def State.firstUse (s : State) : State :=
  { s with hse := { s.hse.orphan with
      tanks := [], sol := none, prev := none, fails := 0, sfOver := 0, bmOver := 0, pts := none } }

/-- NO_MODEL follows ENABLE and ACTIVE_VALID. -/
def State.hseShow (s : State) : State :=
  s.setFld F.HSE_STATUS_NO_MODEL (b2n (s.flag F.HSE_CTRL_ENABLE && !s.flag F.HSE_MODEL_STATUS_ACTIVE_VALID))

/-- The loss of the active model (R75): no further live result, no further candidate. -/
def State.loseModel (s : State) : State :=
  let s := ((s.setFld F.HSE_MODEL_STATUS_MODEL_LOST 1).setFld F.HSE_MODEL_STATUS_ACTIVE_VALID 0).fire Src.HSE_MODEL_SWITCH
  let s := (s.firstUse.setFld F.HSE_STATUS_RUNNING 0).hseShow
  { s with hse := { s.hse with tick := none, cycle := none, switches := s.hse.switches + 1 } }

/-- Whether epoch `e` is due under a low-32-bit target (R72, R107). -/
def epochDue (e at_ : Nat) : Bool := (e % 2 ^ 32 + 2 ^ 32 - at_ % 2 ^ 32) % 2 ^ 32 < 2 ^ 31

/-- Whether tank `i` is present in model `h`. -/
def Ship.hasTank (h : Ship) (s : State) (i : Nat) : Bool := decide (i < h.tanks) && bit (s.num (h.tank i) 4) 0

/-- What the tanks of `m` keep when a model is taken into use with CONTINUE: those that `both` names, without the table
values of the old model (R54, R60). -/
def keepTanks (both : Nat → Bool) (m : AMap Tank) : AMap Tank :=
  (m.filter (fun e => both e.1)).map (fun e => (e.1, { e.2 with six := none }))

/-- The armed model is taken into use (R72). With CONTINUE the tanks present in both models keep their values (R60), also
those of a cycle in progress; otherwise the HSE starts as on first use. -/
def State.switchModel (s : State) : State :=
  let b := s.hse.valBank
  let new := s.ship (modelAddr b)
  let was := s.flag F.HSE_MODEL_STATUS_ACTIVE_VALID
  let old := s.ship (modelAddr (s.fld F.HSE_MODEL_STATUS_ACTIVE_BANK))
  let s := if bit new.flags 0 && was then
      let keep := keepTanks (fun i => new.hasTank s i && old.hasTank s i)
      { s with hse := { s.hse with tanks := keep s.hse.tanks,
                                   cycle := s.hse.cycle.map (fun c => { c with tanks := keep c.tanks }) } }
    else s.firstUse
  let s := { s with hse := { s.hse with switched := true, switches := s.hse.switches + 1 } }
  let s := s.setAll [(R.HSE_MODEL_ARM, 0), (R.HSE_MODEL_ID, new.modelId)]
  let s := s.setReg R.HSE_MODEL_STATUS
    (putBits (putBits (putBits (s.reg R.HSE_MODEL_STATUS) 31 1 0) 30 1 1) 0 9 b)
  s.hseShow.fire Src.HSE_MODEL_SWITCH

/-- RELEASE (R74): where it acts, the bank goes to RELEASE_OWNER as its owner's handover write and VAL_STATE becomes 0. -/
def State.hseRelease (s : State) : State :=
  let b := s.fld F.HSE_MODEL_NEXT_BANK
  let o := s.fld F.HSE_MODEL_CMD_RELEASE_OWNER
  if s.flag F.HSE_MODEL_ARM_ARM ||
     (s.flag F.HSE_MODEL_STATUS_ACTIVE_VALID && decide (s.fld F.HSE_MODEL_STATUS_ACTIVE_BANK = b)) ||
     decide (o = 8) || decide (o = 14) then s
  else
    let s := s.setFld F.HSE_MODEL_STATUS_VAL_STATE 0
    if 288 ≤ b then s else (s.bankOwnWrite s.hseReq (fullW (R.POOL_BANK_OWN b) (o + 16 * s.fld F.HSE_MODEL_CMD_RELEASE_S))).s

/-! ### The tick at the HSE (R72, R79, R80, R107, R131) -/

/-- Adoption at tick `e` (R131): whether this tick may start a cycle, and the machine after. -/
def State.adoptTick (s : State) (e : Nat) : Bool × State :=
  if ¬ s.flag F.HSE_ADOPT_ARM then (true, s)
  else
    let x := s.reg R.HSE_ADOPT_EPOCH
    if e % 2 ^ 32 = x ∨ ¬ epochDue e x then (false, s)
    else
      let fin (s : State) (st : Nat) : State := (s.setFld F.HSE_ADOPT_ARM 0).setFld F.HSE_ADOPT_STATE st
      let s' := { s with hse := { s.hse with arrived := none } }
      match s.hse.arrived with
      | some c =>
        if c.epoch % 2 ^ 32 = x ∧ e % 2 ^ 32 = (x + 1) % 2 ^ 32 ∧ c.modelId = s.reg R.HSE_MODEL_ID ∧
           s.flag F.HSE_MODEL_STATUS_ACTIVE_VALID then
          let ts : AMap Tank := c.tanks.map (fun (t : Nat × Tank) => (t.1, { t.2 with six := none }))
          let x := { s'.hse.orphan with sol := c.sol, tanks := ts, prev := c.prev, fails := c.fails }
          (true, fin { s' with hse := { x with sfOver := c.sfOver, bmOver := c.bmOver, pts := c.pts } } 2)
        else (true, fin s'.firstUse 3)
      | none => (true, fin s'.firstUse 3)

/-- The tick of epoch `e`, scheduled at `t` with period `p` µs, reaches the HSE. -/
def State.hseTick (s : State) (e t p : Nat) : State :=
  if ¬ s.hseOn then s
  else
    let s := if s.flag F.HSE_MODEL_ARM_ARM && epochDue e (s.reg R.HSE_MODEL_SWITCH) &&
        decide (bits (s.ownInForce s.hse.valBank) 0 4 = 8) then s.switchModel else s
    let s := if s.flag F.HSE_PARAM_CMD_COMMIT && epochDue e (s.reg R.HSE_PARAM_EPOCH) then
        let s := (s.setFld F.HSE_PARAM_CMD_COMMIT 0).setFld F.HSE_STATUS_PARAM_PENDING 0
        let rho := s.reg R.HSE_PARAM_RHO_LO + 2 ^ 32 * s.reg R.HSE_PARAM_RHO_HI
        { s with hse := { s.hse with rho := rho, set := s.fld F.HSE_PARAM_SET_LIMIT_SET } }
      else s
    let a := s.adoptTick e
    let s := a.2
    if s.hse.tick.isSome || s.flag F.HSE_STATUS_RUNNING then
      ((s.bump R.HSE_OVERRUN_COUNT).setFld F.HSE_STATUS_OVERRUN 1).fire Src.HSE_OVERRUN
    else if a.1 && s.flag F.HSE_CTRL_ENABLE && s.flag F.HSE_MODEL_STATUS_ACTIVE_VALID && !s.flag F.HSE_STATUS_BASE_ERR then
      { s with hse := { s.hse with tick := some (e, t, p) } }
    else s

/-! ### Ingest (R67, R84, R85) -/

/-- One sample record judged (R84): its cause (0 passed), value, and its stamp once checks 1 and 2 passed. -/
def State.sample (s : State) (addr src limit fmt scale off now32 : Nat) : Nat × Nat × Option Nat × State :=
  let r := s.memRead s.hseReq addr 16
  match r.st with
  | .ok =>
    if crc16 (r.data.take 14) ≠ leAt r.data 14 2 then (1, 0, none, r.s)
    else if leAt r.data 12 2 ≠ src then (2, 0, none, r.s)
    else
      let stamp := leAt r.data 8 4
      if limit < (now32 + 2 ^ 32 - stamp) % 2 ^ 32 then (3, 0, some stamp, r.s)
      else
        let raw := leAt r.data 0 8
        let v := dadd (dmul (if fmt = 0 then raw else dofInt (sext 64 raw)) scale) off
        if dfin v then (0, v, some stamp, r.s) else (4, 0, some stamp, r.s)
  | _ => (1, 0, none, r.s)

/-- One input of tank `i` (R84, R85): number `k`, with the field offsets of its address, source and scale, its format,
and its last good value: the cause, the value used, the stamp, and the machine with the failure counted. -/
def State.ingestInput (s : State) (a i k : Nat) (fmt now32 : Nat) (good : Option Nat) : Nat × Option Nat × Option Nat × State :=
  let r := s.sample (s.num (a + 8 + 8 * k) 8) (s.num (a + 32 + 2 * k) 2) (s.num (a + 40) 4) fmt
    (s.num (a + 48 + 16 * k) 8) (s.num (a + 56 + 16 * k) 8) now32
  if r.1 = 0 then (0, some r.2.1, r.2.2.1, r.2.2.2)
  else
    let s := (r.2.2.2.bump R.HSE_INPUT_ERR_COUNT).setReg R.HSE_INPUT_ERR_LAST (r.1 * 2 ^ 16 + k * 2 ^ 12 + i)
    (r.1, good, r.2.2.1, s)

/-- The inputs of present tank `i` (R84, R85): what step 3 uses, what the tank keeps, and the machine after. -/
def State.ingestTank (s : State) (h : Ship) (i now32 : Nat) : TankIn × Tank × State :=
  let a := h.tank i
  let fl := s.num a 4
  let t := AMap.get s.hse.tanks i {}
  let x0 := s.ingestInput a i 0 (bits fl 4 2) now32 t.snd
  let s := x0.2.2.2
  let x1 := if bit fl 2 then s.ingestInput a i 1 (bits fl 6 2) now32 t.tmp else (0, some (s.num (a + 104) 8), none, s)
  let s := x1.2.2.2
  let x2 := if bit fl 3 then s.ingestInput a i 2 (bits fl 8 2) now32 t.den else (0, some (s.num (a + 96) 8), none, s)
  let s := x2.2.2.2
  ({ snd := x0.2.1, tmp := x1.2.1, den := x2.2.1, c0 := x0.1, c1 := x1.1, c2 := x2.1 },
   { t with snd := x0.2.1, tmp := if bit fl 2 then x1.2.1 else t.tmp, den := if bit fl 3 then x2.2.1 else t.den,
            stamp := x0.2.2.1.or t.stamp }, s)

/-- The inputs of tanks 0 to `n - 1` in ascending order. -/
def State.ingestAll (s : State) (h : Ship) (now32 : Nat) : Nat → List TankIn × AMap Tank × State
  | 0 => ([], s.hse.tanks, s)
  | n + 1 =>
    let r := State.ingestAll s h now32 n
    let s := r.2.2
    if h.hasTank s n then
      let x := s.ingestTank h n now32
      (r.1 ++ [x.1], AMap.set r.2.1 n x.2.1 {}, x.2.2)
    else (r.1 ++ [{}], r.2.1, s)

/-- The point loads of a live cycle (R67): whether they are stale, and the machine with newly accepted ones. After a
failed read of SEL, half A is still read (log entry 46). -/
def State.ingestPoints (s : State) (h : Ship) : Bool × State :=
  if h.points = 0 then (false, s)
  else
    let q := s.hseReq
    let a := h.pointAddr
    let r0 := s.memRead q a 4
    let k := bits (ofBytes r0.data) 0 1
    let r1 := r0.s.memRead q (a + 8 + 8 * k) 8
    let r2 := r1.s.memRead q (a + 64 + 16384 * k) (64 * h.points)
    match r0.st, r1.st, r2.st with
    | .ok, .ok, .ok =>
      if crc64 r2.data = ofBytes r1.data then (false, { r2.s with hse := { r2.s.hse with pts := some r2.data } })
      else (true, r2.s)
    | _, _, _ => (true, r2.s)

/-! ### The live cycle (R77 to R99) -/

/-- The rate history of a tank after step 3 (R88): the tank, its rate, and whether the rate is a filtered value. -/
def rateStep (t : Tank) (vol alpha period : Nat) : Tank × Nat × Bool :=
  let kh := ddiv (dofInt 3600000000) (dofInt period)
  let d := dmul (dsub vol t.vp) kh
  match t.h with
  | 0 => ({ t with vp := vol, h := 1 }, 0, false)
  | 1 => ({ t with r := d, vp := vol, h := 2 }, 0, false)
  | _ =>
    let r := dadd t.r (dmul alpha (dsub d t.r))
    ({ t with r := r, vp := vol }, r, true)

/-- The first cause among the inputs of a tank. -/
def TankIn.cause (x : TankIn) : Nat := if x.c0 ≠ 0 then x.c0 else if x.c1 ≠ 0 then x.c1 else x.c2

/-- The error bits of a tank's inputs at bits 10:8 of its FLAGS. -/
def TankIn.errs (x : TankIn) : Nat :=
  b2n (x.c0 != 0) * 2 ^ 8 + b2n (x.c1 != 0) * 2 ^ 9 + b2n (x.c2 != 0) * 2 ^ 10

/-- The tank entry of a live cycle: FLAGS with STALE, errors and CAUSE, AGE, rate; and what the tank keeps. -/
def liveTank (s : State) (h : Ship) (now32 period i : Nat) (o : TankOut) (x : TankIn) (t : Tank) : TankOut × Tank :=
  if ¬ bit o.flags 0 then (o, t)
  else
    let stale := x.errs != 0 || bit o.flags 3
    let fl := putBits o.flags 3 1 (b2n stale) + x.errs + x.cause * 2 ^ 12
    let age := match t.stamp with
      | none => 0xFFFFFFFF
      | some st => (now32 + 2 ^ 32 - st) % 2 ^ 32
    if o.used then
      let r := rateStep t o.vol (s.num (h.tank i + 128) 8) period
      ({ o with flags := fl + b2n r.2.2 * 2 ^ 6, age := age, rate := r.2.1 }, { r.1 with six := some o.six })
    else ({ o with flags := fl, age := age }, t)

/-- How many tank entries have bit `k` of FLAGS set. -/
def countFlag (k : Nat) (l : List TankOut) : Nat := (l.filter (fun o => bit o.flags k)).length

/-- The FLAGS word of a record: what the evaluation gave, and the bits that every path adds (R102, R103). -/
def finishFlags (fl set : Nat) (ts : List TankOut) (pstale first switched : Bool) : Nat :=
  let inv := countFlag 2 ts
  let fl := fl + set * 2 ^ 8 + b2n (decide (countFlag 3 ts ≠ 0)) * 2 ^ 5 + b2n (decide (inv ≠ 0)) * 2 ^ 4 +
    b2n pstale * 2 ^ 3 + b2n first * 2 ^ 1 + b2n switched * 2 ^ 10
  fl + b2n (!(bit fl 4 || bit fl 2 || bit fl 15))

/-- What a base takes from the published tank block (R110): RATE, AGE and FLAGS of tanks 0 to `n - 1`. -/
def BaseSlot.withBlock (b : BaseSlot) (n : Nat) (block : List Byte) : BaseSlot :=
  let f (o k : Nat) : List Nat := (List.range n).map (fun i => leAt block (32 * i + o) k)
  { b with rate := f 16 8, flags := f 24 4, age := f 28 4 }

/-- Steps 1 to 10 of the live cycle of tick (`e`, `sched`, `period`) on the active model, whose parts have been read; the
model is lost when a directory entry that the cycle needs cannot be read (R75). -/
def State.liveCompute (s : State) (b e sched period : Nat) : State :=
  let h := s.ship (modelAddr b)
  let now32 := sched % 2 ^ 32
  let p := s.ingestPoints h
  let ing := p.2.ingestAll h now32 h.tanks
  let s := ing.2.2
  let first := match s.hse.sol with
    | none => true
    | some x => !solFinite x
  let start := if first then evenKeel s h else s.hse.sol.getD (0, 0, 0)
  let prev := s.hse.prev.map (fun bs => Rec.parse bs)
  let o := evalShip s ⟨h, ing.1, start, s.hse.pts, s.hse.rho, s.hse.set, true, s.hse.tanks, prev⟩
  let d := s.readTables h first o.looked
  let s := d.2
  if ¬ d.1 then s.loseModel
  else
    let s := s.countFaults (addFaults (if first then (h.draughtAxis s).2 else []) o.faults)
    let lt := (List.zip (List.range h.tanks) (List.zip o.tanks ing.1)).map (fun e =>
      liveTank s h now32 period e.1 e.2.1 e.2.2 (AMap.get ing.2.1 e.1 {}))
    let ts := lt.map (fun x => x.1)
    let kept := (List.zip (List.range h.tanks) lt).foldl (fun m e =>
      if bit e.2.1.flags 0 then AMap.set m e.1 e.2.2 {} else m) ing.2.1
    let fl := finishFlags o.flags s.hse.set ts p.1 first s.hse.switched
    let bad := countFlag 2 ts != 0 || countFlag 3 ts != 0
    let s := if bad && !s.hse.bad then s.fire Src.HSE_INPUT else s
    let c : Cycle :=
      { epoch := e, sched := sched, bank := b, modelId := h.modelId, flags := fl, body := o.r.body, block := tankBlock ts,
        inv := countFlag 2 ts, stale := countFlag 3 ts, tanks := kept, rho := s.hse.rho, failed := o.failed,
        base := { ins := ing.1, start := start, stamp := sched, pointStale := p.1, first := first },
        chans := (List.range (min h.crits 32)).map (fun i => s.num (h.m + 0x400 + 32 * i + 4) 1),
        strength := s.num (h.m + 38) 1 }
    { s with hse := { s.hse with cycle := some c, bad := bad, switched := false } }

/-- The live cycle starts at a candidate boundary (R77, R78, R80, R106). -/
def State.liveCycle (s : State) : State :=
  match s.hse.tick with
  | none => s
  | some (e, sched, period) =>
    if ¬ s.hseOn ∨ s.flag F.HSE_STATUS_RUNNING then s
    else
      let s := { s with hse := { s.hse with tick := none } }
      if ¬ s.flag F.HSE_CTRL_ENABLE ∨ ¬ s.flag F.HSE_MODEL_STATUS_ACTIVE_VALID ∨ s.flag F.HSE_STATUS_BASE_ERR then s
      else
        let s := if s.flag F.HSE_CTRL_RESTART then s.firstUse.setFld F.HSE_CTRL_RESTART 0 else s
        let s := { s with ctsHits := [] }
        let b := s.fld F.HSE_MODEL_STATUS_ACTIVE_BANK
        let m := s.readModel b
        if m.1 then (m.2.setFld F.HSE_STATUS_RUNNING 1).liveCompute b e sched period else m.2.loseModel

/-! ### Publication (R100, R101, R105, R110) -/

/-- CLEAR of a base slot at a candidate boundary (R111). -/
def State.baseClear (s : State) : State :=
  if s.flag F.HSE_BASE_CMD_CLEAR ∧ ¬ s.flag F.HSE_STATUS_RUNNING then
    (s.setFld F.HSE_BASE_CMD_CLEAR 0).setFld ⟨R.HSE_BASE_CMD, 4 + s.hse.clrSlot, 1⟩ 0
  else s

/-- The live cycle is over. -/
def State.endCycle (s : State) : State :=
  let s := s.setFld F.HSE_STATUS_RUNNING 0
  { s with hse := { s.hse with cycle := none }, ctsHits := [] }.baseClear

/-- Base slot `n`'s address. -/
def State.slotBase (s : State) (n : Nat) : Nat := s.fld F.HSE_BASE_ADDR_ADDR * 32768 + 32768 * n

/-- An armed capture stores the cycle's base (R110). Its layout in memory is private: the area's bytes become free
values. -/
def State.capture (s : State) (c : Cycle) : State :=
  if ¬ s.flag F.HSE_BASE_CMD_CAPTURE then s
  else
    let n := s.hse.capSlot
    let s := ((s.memWrite s.hseReq (s.slotBase n) (freeBytes s.free 32768)).s).skipFree 32768
    let s := { s with hse := { s.hse with slots := AMap.set s.hse.slots n c.base {} } }
    ((s.setFld F.HSE_BASE_CMD_CAPTURE 0).setFld ⟨R.HSE_BASE_CMD, 4 + n, 1⟩ 1).setReg (R.HSE_BASE_EPOCH n) c.epoch

/-- The criteria applied and not met (R100). -/
def failMask (r : Rec) : Nat := r.app - Nat.land r.app r.met

/-- The events of R100 of the published record `r` of cycle `c` against the previous state `was`. A criterion at or above
the model's CRITERION_COUNT has no entry and fires nothing (R58). -/
def State.limitEvents (s : State) (c : Cycle) (was : Nat × Nat × Nat) (r : Rec) : State :=
  if bit c.flags 15 then s
  else
    let diff := Nat.xor (failMask r) was.1
    let s' := (List.zip (List.range c.chans.length) c.chans).foldl (fun (a : State) e =>
      if bit diff e.1 then a.directFire a.hseReq e.2 else a) s
    if r.sfo ≠ was.2.1 ∨ r.bmo ≠ was.2.2 then s'.directFire s'.hseReq c.strength else s'

/-- The stages of R101: whether every write was made, and the machine after the last one sent. -/
def State.publishWrites (s : State) (a e : Nat) (record block : List Byte) : Bool × State :=
  let q := s.hseReq
  let w1 := s.memWrite q (a + 8) (List.replicate 8 0xFF)
  match w1.st with
  | .ok =>
    let w2 := w1.s.memWrite q (a + 0x1000) block
    match w2.st with
    | .ok =>
      let w3 := w2.s.memWrite q a (record.take 8)
      match w3.st with
      | .ok =>
        let w4 := w3.s.memWrite q (a + 16) (record.drop 16)
        match w4.st with
        | .ok =>
          let w5 := w4.s.memWrite q (a + 8) (toBytes 8 e)
          (w5.st == .ok, w5.s)
        | _ => (false, w4.s)
      | _ => (false, w3.s)
    | _ => (false, w2.s)
  | _ => (false, w1.s)

/-- The vote of epoch `e - 1` as CST_VOTE_LAST holds it (R102, R133); 0 on a device that holds no vote (R134). -/
def State.lastVote (s : State) (e : Nat) : Nat :=
  let v := s.reg R.CST_VOTE_LAST
  if s.votes ∧ e ≠ 0 ∧ v / 2 ^ 32 = (e - 1) % 2 ^ 32 then v % 2 ^ 32 else 0

/-- Body, tank block, FLAGS of the cycle in progress as they are published: undefined fields free (U-03, U-04). -/
def State.cycleFields (s : State) (h : Ship) (c : Cycle) : List Byte × List Byte × Nat × State :=
  let o := openOf s h s.ctsHits ((List.range h.tanks).map (fun i => leAt c.block (32 * i + 24) 4))
  if ¬ o.any then (c.body, c.block, c.flags, s)
  else
    let r := openRecord s s.free h o c.failed (bits c.flags 8 1) c.rho c.base.start false
      (Rec.parse (List.replicate 64 0 ++ c.body)) c.flags
    (r.1.body, openBlock s s.free h o true c.block, r.2, s.skipFree 3000)

/-- Step 11: publication of the cycle in progress. `lat` is the time from the tick to its start, in units of 64 HSE
cycles. The digest, when a record was published, is answered for the group vote (R132). -/
def State.publication (s : State) (lat : Nat) : State × Option (Nat × Nat) :=
  match s.hse.cycle with
  | none => (s, none)
  | some c =>
    let h := s.ship (modelAddr c.bank)
    let x := s.cycleFields h c
    let s := x.2.2.2
    let last := satU 16 lat
    let s := (s.setFld F.HSE_LATENCY_LAST last).setFld F.HSE_LATENCY_MAX (max (s.fld F.HSE_LATENCY_MAX) last)
    let dig := digestOf c.epoch c.modelId x.2.2.1 x.1 x.2.1
    let record := recordBytes 0 s.pos c.epoch c.modelId x.2.2.1 c.sched (s.lastVote c.epoch) c.inv c.stale 0 lat dig x.1
    let r := Rec.parse record
    let w := s.publishWrites (s.hse.result + c.epoch % 2 * 0x5000) c.epoch record x.2.1
    let s := w.2
    let s := if c.orphan then s else
      { s with hse := { s.hse with tanks := c.tanks, sol := some (r.v.getD 6 0, r.v.getD 7 0, r.v.getD 8 0) } }
    if w.1 then
      let s := (s.setAll [(R.HSE_EPOCH_LO, c.epoch % 2 ^ 32), (R.HSE_EPOCH_HI, c.epoch / 2 ^ 32 % 2 ^ 32)]).setFld
        F.HSE_STATUS_PUBLISHED 1
      let c' := { c with flags := x.2.2.1, base := c.base.withBlock h.tanks x.2.1 }
      let was := if c.orphan then c.was else (s.hse.fails, s.hse.sfOver, s.hse.bmOver)
      let s := ((s.capture c').fire Src.HSE_PUBLISH).limitEvents c' was r
      let s := if c.orphan then s else
        { s with hse := { s.hse with prev := some record, fails := failMask r, sfOver := r.sfo, bmOver := r.bmo } }
      (s.endCycle, some (c.epoch, dig))
    else (((s.setFld F.HSE_STATUS_PUBLISH_ERR 1).fire Src.HSE_PUBLISH_ERR).endCycle, none)

/-! ### Sweeps (R108 to R121) -/

/-- No unit with precedence over sweeps is pending (R108). -/
def State.hseIdle (s : State) : Bool :=
  s.hseOn && s.flag F.HSE_MODEL_STATUS_ACTIVE_VALID && s.hse.tick.isNone && !s.flag F.HSE_STATUS_RUNNING &&
  !s.flag F.HSE_MODEL_CMD_VALIDATE

/-- The completion record of a job (R120). -/
def State.sweepRecord (s : State) (n i code tag started written : Nat) : State :=
  s.completeAt (.hse n) i code tag (started % 2 ^ 17) (written % 2 ^ 17)

/-- The running job ends with `code`. -/
def State.sweepEnd (s : State) (j : SweepJob) (code : Nat) : State :=
  let s := { s with hse := { s.hse with job := none } }
  (s.setFld (Ring.hse j.ring).busy 0).sweepRecord j.ring (s.fld (Ring.hse j.ring).cons) code j.tag j.next j.written

/-- A descriptor is bad (code 0x5 of R119). -/
def SweepJob.bad (j : SweepJob) : Bool :=
  decide (j.count < 1 ∨ 65536 < j.count) || decide (j.stride < 64 ∨ 16448 < j.stride ∨ j.stride % 64 ≠ 0) ||
  decide (j.limit < 1 ∨ 65536 < j.limit) || decide (j.list % 64 ≠ 0 ∨ j.result % 4096 ≠ 0) ||
  decide (16 ≤ j.control) || decide (bits j.control 1 2 = 3)

/-- A job as its descriptor gives it. -/
def jobOf (n : Nat) (d : List Byte) : SweepJob :=
  { ring := n, control := leAt d 0 4, count := leAt d 4 4, list := leAt d 8 8, stride := leAt d 16 4, tag := leAt d 20 4,
    result := leAt d 24 8, limit := leAt d 32 4 }

/-- The ring whose turn it is (R108): the next one with work after the ring that ran last. -/
def State.sweepTurn (s : State) : Option Nat :=
  let l := s.hse.lastRing.getD 3
  ([1, 2, 3, 4].map (fun k => (l + k) % 4)).find? (fun n => s.ringReady (.hse n))

/-- A job starts: its descriptor is read and checked (R112, R119). -/
def State.sweepStart (s : State) : State :=
  if ¬ s.hseIdle ∨ s.hse.job.isSome ∨ s.flag F.HSE_ST_CMD_START then s
  else match s.sweepTurn with
    | none => s
    | some n =>
      let r := Ring.hse n
      let d := s.memRead (s.ringReq r) (s.slotAddr r (s.fld r.cons)) 64
      let s := { d.s with hse := { d.s.hse with lastRing := some n } }
      let j : SweepJob := match d.st with
        | .ok => let j := jobOf n d.data; { j with code := if j.bad then some 5 else none }
        | _ => { jobOf n [] with code := some 6 }
      { s.setFld r.busy 1 with hse := { s.hse with job := some j } }

/-- A tank entry of a candidate list. -/
structure CandEntry where
  tank : Nat
  mask : Nat
  snd  : Nat
  tmp  : Nat
  den  : Nat
  deriving DecidableEq, Repr

/-- Entry `j` of the candidate bytes `bs`, after its header. -/
def candEntry (bs : List Byte) (j : Nat) : CandEntry :=
  let e := (bs.drop (32 * j)).take 32
  ⟨leAt e 0 2, leAt e 2 1, leAt e 8 8, leAt e 16 8, leAt e 24 8⟩

/-- The inputs that an entry's MASK gives replace a tank's (R114). -/
def CandEntry.apply (e : CandEntry) (x : TankIn) : TankIn :=
  { x with snd := if bit e.mask 0 then some e.snd else x.snd, tmp := if bit e.mask 1 then some e.tmp else x.tmp,
           den := if bit e.mask 2 then some e.den else x.den }

/-- What a candidate is: status of R117 so far, and its parts. -/
structure Cand where
  status : Nat
  full   : Bool
  keel   : Bool
  epoch  : Nat
  ents   : List CandEntry
  base   : Option BaseSlot
  deriving DecidableEq, Repr

/-- The valid base slot whose epoch is `e`. -/
def State.baseFor (s : State) (e : Nat) : Option Nat :=
  (List.range 4).find? (fun n => bit (s.fld F.HSE_BASE_CMD_VALID) n && decide (s.reg (R.HSE_BASE_EPOCH n) = e))

/-- A candidate read at `a` by requester `q` with STRIDE `stride` (R113, R117). `plain` says that only full vectors from
even keel are known (R122). -/
def State.readCand (s : State) (q : Req) (a stride : Nat) (plain : Bool) : Cand × State :=
  let hd := s.memRead q a 16
  let typ := leAt hd.data 0 1
  let st := leAt hd.data 1 1
  let n := leAt hd.data 2 2
  let e := leAt hd.data 8 8
  let out (k : Nat) : Cand := ⟨k, typ == 1, st == 1, e, [], none⟩
  match hd.st with
  | .ok =>
    if 1 < typ ∨ 1 < st ∨ (plain = true ∧ (typ ≠ 1 ∨ st ≠ 1)) ∨ (typ = 0 ∧ 64 < n) ∨ (typ = 1 ∧ n = 0) ∨ stride < 16 + 32 * n
    then (out 3, hd.s)
    else
      let en := if n = 0 then ⟨.ok, [], hd.s⟩ else hd.s.memRead q (a + 16) (32 * n)
      match en.st with
      | .ok =>
        let es := (List.range n).map (candEntry en.data)
        if es.any (fun e => Nat.ble 8 e.mask) then (out 3, en.s)
        else if typ = 1 ∧ st = 1 then ({ out 0 with ents := es }, en.s)
        else match en.s.baseFor e with
          | none => (out 2, en.s)
          | some k =>
            let b := en.s.memRead en.s.hseReq (en.s.slotBase k) 32768
            match b.st with
            | .ok => ({ out 0 with ents := es, base := some (AMap.get b.s.hse.slots k {}) }, b.s)
            | _ => (out 4, b.s)
      | _ => (out 4, en.s)
  | _ => ({ out 4 with epoch := 0 }, hd.s)

/-- The given inputs of tank `i`, as bits. -/
def Cand.given (c : Cand) (i : Nat) : Nat :=
  if c.full then (c.ents[i]?.map (fun e => e.mask)).getD 0
  else c.ents.foldl (fun a e => if e.tank = i then Nat.lor a e.mask else a) 0

/-- The inputs of tank `i` of a candidate (R114). -/
def Cand.input (c : Cand) (s : State) (h : Ship) (i : Nat) : TankIn :=
  if ¬ h.hasTank s i then {}
  else
    let x : TankIn := if c.full then
        match c.ents[i]? with
        | some e => e.apply {}
        | none => {}
      else
        let b := (c.base.getD {}).ins.getD i {}
        c.ents.foldl (fun x e => if e.tank = i then e.apply x else x) { snd := b.snd, tmp := b.tmp, den := b.den }
    let a := h.tank i
    let fl := s.num a 4
    { x with tmp := if bit fl 2 then x.tmp else some (s.num (a + 104) 8),
             den := if bit fl 3 then x.den else some (s.num (a + 96) 8) }

/-- The tank entry of a candidate (R118). -/
def Cand.tank (c : Cand) (i : Nat) (o : TankOut) : TankOut :=
  if ¬ bit o.flags 0 ∨ c.full = true then o
  else
    let b := c.base.getD {}
    let bf := b.flags.getD i 0
    let bi := b.ins.getD i {}
    let g := c.given i
    let errs := bits bf 8 3 - Nat.land (bits bf 8 3) g
    let cause := if bit errs 0 then bi.c0 else if bit errs 1 then bi.c1 else if bit errs 2 then bi.c2 else 0
    let fl := o.flags + errs * 2 ^ 8 + cause * 2 ^ 12
    if g = 0 then
      { o with flags := Nat.lor fl (Nat.land bf 0x48), age := b.age.getD i 0,
               rate := if o.used then b.rate.getD i 0 else 0 }
    else { o with flags := Nat.lor fl (b2n (errs != 0) * 8) }

/-- What an evaluated or blank candidate leaves: its FLAGS, record and tank block. -/
structure CandOut where
  flags  : Nat
  record : List Byte
  block  : List Byte

/-- A candidate that cannot be evaluated (R117). -/
def candBlank (s : State) (kind idx lat modelId : Nat) (c : Cand) : CandOut :=
  let body := List.replicate 4032 (0 : Byte)
  let block := List.replicate 16384 (0 : Byte)
  ⟨0, recordBytes kind s.pos c.epoch modelId 0 0 0 0 0 (c.status * 2 ^ 28 + idx % 65536) lat
      (digestOf c.epoch modelId 0 body block) body, block⟩

/-- Steps 2 to 10 for candidate `c` (R116 to R118, R124): `pts` its point loads, `pstale` POINT_STALE. None when a
directory entry of the model that it needs cannot be read (R75). -/
def State.candEval (s : State) (kind idx lat : Nat) (h : Ship) (c : Cand) (rho set : Nat) (pts : Option (List Byte))
    (pstale : Bool) : Option CandOut × State :=
  let b := c.base.getD {}
  let start := if c.keel then evenKeel s h else b.start
  let first := c.keel || b.first
  let ins := (List.range h.tanks).map (c.input s h)
  let o := evalShip s { ship := h, ins := ins, start := start, pts := pts, rho := rho, set := set, live := false }
  let d := s.readTables h c.keel o.looked
  if ¬ d.1 then (none, d.2)
  else
    let s := d.2.countFaults (addFaults (if c.keel then (h.draughtAxis s).2 else []) o.faults)
    let ts := (List.zip (List.range h.tanks) o.tanks).map (fun e => c.tank e.1 e.2)
    let status := b2n (!c.full && c.ents.any (fun e => !h.hasTank s e.tank))
    let fl := finishFlags o.flags set ts pstale first false
    let op := openOf s h [] (ts.map (fun t => t.flags))
    let x : List Byte × List Byte × Nat := if op.any then
        let r := openRecord s s.free h op o.failed set rho start (countFlag 4 ts != 0) o.r fl
        (r.1.body, openBlock s s.free h op false (tankBlock ts), r.2)
      else (o.r.body, tankBlock ts, fl)
    let s := if op.any then s.skipFree 3000 else s
    let rec_ := recordBytes kind s.pos c.epoch h.modelId x.2.2 (if c.base.isSome then b.stamp else 0) 0 (countFlag 2 ts)
      (countFlag 3 ts) (status * 2 ^ 28 + idx % 65536) lat (digestOf c.epoch h.modelId x.2.2 x.1 x.2.1) x.1
    (some ⟨x.2.2, rec_, x.2.1⟩, s)

/-- A candidate of model `h`: blank, or evaluated; the result record of a full vector that is longer than the model's
tanks is undefined (U-05). -/
def State.candRun (s : State) (kind idx lat : Nat) (h : Ship) (c : Cand) (rho set : Nat) (pts : Option (List Byte))
    (pstale : Bool) : Option CandOut × State :=
  if c.status ≠ 0 then (some (candBlank s kind idx lat h.modelId c), s)
  else
    let r := s.candEval kind idx lat h c rho set pts pstale
    match r.1 with
    | some o =>
      if c.full ∧ h.tanks < c.ents.length then
        let bs := freeBytes r.2.free 4096
        (some ⟨leAt bs 20 4, bs, o.block⟩, r.2.skipFree 4096)
      else r
    | none => r

/-- HSE cycles between the starts of two candidates (10,000 at 1.2 GHz) in GUST cycles, rounded up (R109). -/
def candPace : Nat := 4167

/-- A candidate is flagged (R112). -/
def flagged (fl : Nat) : Bool := !bit fl 0 || bit fl 13 || bit fl 12 || bit fl 11 || bit fl 9 || bit fl 7 || bit fl 6

/-- A result record goes to the job's next slot (R119): the job with it, or the code that ends the job. -/
def State.sweepWrite (s : State) (j : SweepJob) (bs : List Byte) : Except Nat SweepJob × State :=
  if j.limit ≤ j.written then (.error 2, s)
  else
    let r := Ring.hse j.ring
    let size := if bit j.control 0 then 0x5000 else 0x1000
    let x := s.jobBytes r (bs.take size)
    let w := x.2.memWrite (x.2.ringReq r) (j.result + j.written * size) x.1
    match w.st with
    | .ok => (.ok { j with written := j.written + 1, last := none }, w.s)
    | _ => (.error 3, w.s)

/-- The next candidate of job `j` has given `o`: its record is written as the mode selects, and the job may end (R119). -/
def State.sweepResult (s : State) (j : SweepJob) (o : CandOut) : State :=
  let bs := o.record ++ o.block
  let fl := flagged o.flags
  let j := { j with next := j.next + 1 }
  let stop := fl && bit j.control 3
  let done := decide (j.count ≤ j.next)
  let mode := bits j.control 1 2
  let w : Except Nat SweepJob × State :=
    if mode = 0 || stop || done || (decide (mode = 1) && fl) then s.sweepWrite j bs
    else (.ok { j with last := some bs }, s)
  let j := match w.1 with
    | .error k => { j with code := some k }
    | .ok j => { j with code := if stop then some 1 else if done then some 0 else none }
  { w.2 with hse := { w.2.hse with job := some j } }

/-- One sweep candidate of the running job (R113 to R119), at the earliest when the pacing allows it (R109). -/
def State.sweepCandidate (s : State) (lat : Nat) : State :=
  match s.hse.job with
  | none => s
  | some j =>
    if ¬ s.hseIdle ∨ s.flag F.HSE_ST_CMD_START ∨ j.code.isSome then s
    else
      let s := s.until s.hse.candAt
      let s := { s with hse := { s.hse with candAt := s.now + candPace } }
      let b := s.fld F.HSE_MODEL_STATUS_ACTIVE_BANK
      let m := s.readModel b
      if ¬ m.1 then m.2.loseModel
      else
        let h := m.2.ship (modelAddr b)
        let c := m.2.readCand (m.2.ringReq (.hse j.ring)) (j.list + j.next * j.stride) j.stride false
        let s := c.2
        let pstale := if c.1.full then decide (h.points ≠ 0) && s.hse.pts.isNone else (c.1.base.getD {}).pointStale
        let o := s.candRun 1 j.next lat h c.1 s.hse.rho s.hse.set s.hse.pts pstale
        match o.1 with
        | none => o.2.loseModel
        | some x => o.2.sweepResult j x

/-- A job that has ended writes its completion record (R119, R120). -/
def State.sweepFinish (s : State) : State :=
  match s.hse.job with
  | none => s
  | some j =>
    match j.code with
    | some k => s.sweepEnd j k
    | none => s

/-- The record of the job's last candidate, when its mode kept it back as "the last", is written where the job stops
(R119, R532): the job with it, or the code that ends it. -/
def State.sweepLast (s : State) (j : SweepJob) : Except Nat SweepJob × State :=
  match j.code, j.last with
  | none, some bs => s.sweepWrite j bs
  | _, _ => (.ok j, s)

/-- CANCEL of ring `n` at a candidate boundary (R121): the running job ends with code 0x4, its last candidate written
when no mode had selected it; every further covered descriptor completes with 0x4. -/
def State.sweepCancel (s : State) (n : Nat) : State :=
  let r := Ring.hse n
  let s := s.ringCancel r
  let s := match s.hse.job with
    | some j =>
      if j.ring = n then
        match s.sweepLast j with
        | (.error k, s) => s.sweepEnd j k
        | (.ok j, s) => s.sweepEnd j (j.code.getD 4)
      else s
    | none => s
  (s.ringRest r).foldl (fun s i =>
    let d := s.memRead (s.ringReq r) (s.slotAddr r i) 64
    d.s.skipFree.sweepRecord n i 4 (if d.st = .ok then leAt d.data 20 4 else d.s.freeVal % 2 ^ 32) 0 0) s

/-- Ring `n` stops where a stop waits (R532): the record of the last candidate is written if the mode selects it, and the
job ends without a completion record. -/
def State.sweepStop (s : State) (n : Nat) : State :=
  if ¬ (s.ringSt (.hse n)).stopping then s
  else
    let s := match s.hse.job with
      | some j => if j.ring = n then let w := s.sweepLast j; { w.2 with hse := { w.2.hse with job := none } } else s
      | none => s
    s.ringStopped (.hse n)

/-! ### Self-test (R122 to R124) -/

/-- The self-test ends in state `k` (3 passed, 4 failed, 5 rejected). -/
def State.selftestEnd (s : State) (k : Nat) : State :=
  let s := { s with hse := { s.hse with st := {} } }
  ((s.setFld F.HSE_ST_CMD_START 0).setFld F.HSE_ST_STATUS_STATE k).fire Src.HSE_SELFTEST

/-- The self-test starts at a candidate boundary (R123, R124): its set is read and checked. -/
def State.selftestStart (s : State) : State :=
  if ¬ s.flag F.HSE_ST_CMD_START ∨ s.fld F.HSE_ST_STATUS_STATE ≠ 1 ∨ ¬ s.hseOn ∨ s.hse.tick.isSome ∨
     s.flag F.HSE_STATUS_RUNNING ∨ s.flag F.HSE_MODEL_CMD_VALIDATE then s
  else if ¬ s.flag F.HSE_MODEL_STATUS_ACTIVE_VALID then s.selftestEnd 5
  else
    let r := s.memRead s.hseReq (s.fld F.HSE_ST_ADDR_ADDR * 64) 576
    match r.st with
    | .ok =>
      let d := r.data
      if leAt d 0 4 ≠ 0x54534453 ∨ leAt d 8 4 ≠ r.s.reg R.HSE_MODEL_ID ∨ 1 < leAt d 40 1 ∨ leAt d 4 2 < 1 ∨ 64 < leAt d 4 2
      then r.s.selftestEnd 5
      else
        let s := r.s.setReg R.HSE_ST_STATUS 0xFF000002
        { s with hse := { s.hse with st := { set := d, id := leAt d 8 4, switches := s.hse.switches } } }
    | _ => r.s.selftestEnd 5

/-- Candidate `k` of the self-test has given `o`: its record is reported and its digest compared (R124). A report that
cannot be written changes nothing else (log entry 46). -/
def State.selftestResult (s : State) (k : Nat) (o : CandOut) : State :=
  let d := s.hse.st.set
  let rep := leAt d 24 8
  let s := if rep = 0 then s else (s.memWrite s.hseReq (rep + k * 0x1000) o.record).s
  let ok := leAt o.record 56 8 == leAt d (64 + 8 * k) 8 && leAt o.record 40 4 / 2 ^ 28 == 0
  let s := s.setFld F.HSE_ST_STATUS_RUN (k + 1)
  let s := if ok then s.setFld F.HSE_ST_STATUS_PASSED (s.fld F.HSE_ST_STATUS_PASSED + 1)
    else if s.fld F.HSE_ST_STATUS_FIRST_FAIL = 0xFF then s.setFld F.HSE_ST_STATUS_FIRST_FAIL k else s
  let s := { s with hse := { s.hse with st := { s.hse.st with next := k + 1 } } }
  if leAt d 4 2 ≤ k + 1 then s.selftestEnd (if s.fld F.HSE_ST_STATUS_FIRST_FAIL = 0xFF then 3 else 4) else s

/-- One self-test candidate (R124), at the earliest when the pacing allows it (R109). -/
def State.selftestCandidate (s : State) (lat : Nat) : State :=
  if s.fld F.HSE_ST_STATUS_STATE ≠ 2 ∨ ¬ s.hseOn ∨ s.hse.tick.isSome ∨ s.flag F.HSE_STATUS_RUNNING ∨
     s.flag F.HSE_MODEL_CMD_VALIDATE then s
  else if s.hse.switches ≠ s.hse.st.switches then s.selftestEnd 5
  else
    let s := s.until s.hse.stAt
    let s := { s with hse := { s.hse with stAt := s.now + candPace } }
    let b := s.fld F.HSE_MODEL_STATUS_ACTIVE_BANK
    let m := s.readModel b
    if ¬ m.1 then m.2.loseModel
    else
      let d := s.hse.st.set
      let k := s.hse.st.next
      let h := m.2.ship (modelAddr b)
      let c := m.2.readCand m.2.hseReq (leAt d 16 8 + k * leAt d 12 4) (leAt d 12 4) true
      let o := c.2.candRun 2 k lat h c.1 (leAt d 32 8) (leAt d 40 1) none false
      match o.1 with
      | none => o.2.loseModel
      | some x => o.2.selftestResult k x

/-! ### HSE registers -/

/-- A write of ENABLE and the other bits of HSE_CTRL. -/
def State.hseCtrlWrite (s : State) (q : Req) (w : RegW) : State :=
  let was := s.flag F.HSE_CTRL_ENABLE
  let w := if q.s then w else w.without 2
  let s := s.plainWrite w
  let s := if w.one F.HSE_CTRL_RESTART then s.setFld F.HSE_CTRL_RESTART 1 else s
  let s := if s.flag F.HSE_CTRL_ENABLE && !was then
      let a := s.fld F.HSE_RESULT_BASE_ADDR * 4096
      let ok := Nat.ble poolBase a && Nat.ble (a + 0xA000) (poolBase + poolSize)
      { (s.setFld F.HSE_STATUS_BASE_ERR (b2n (!ok))).setFld F.HSE_STATUS_PUBLISHED 0 with
        hse := { s.hse with result := a } }
    else s
  s.hseShow

/-- A write to HSE_BASE_CMD (R110, R111). -/
def State.baseCmdWrite (s : State) (w : RegW) : State :=
  let s := s.plainWrite w
  let slot := s.fld F.HSE_BASE_CMD_SLOT
  let s := if w.one F.HSE_BASE_CMD_CAPTURE && !s.flag F.HSE_BASE_CMD_CAPTURE then
      { s.setFld F.HSE_BASE_CMD_CAPTURE 1 with hse := { s.hse with capSlot := slot } } else s
  if w.one F.HSE_BASE_CMD_CLEAR && !s.flag F.HSE_BASE_CMD_CLEAR then
    ({ s.setFld F.HSE_BASE_CMD_CLEAR 1 with hse := { s.hse with clrSlot := slot } }).baseClear
  else s

/-- A write to a sweep ring's set-up register. -/
def State.sweepCfgWrite (s : State) (n : Nat) (w : RegW) : State :=
  match s.ringCfg (.hse n) w with
  | none => s
  | some s' => if w.one (Ring.hse n).cancel && !s.flag (Ring.hse n).cancel then s'.sweepCancel n else s'

/-- A write to an HSE register. -/
def hseWrite (s : State) (q : Req) (w : RegW) : Acc :=
  if w.row.key = R.HSE_CTRL then okAcc (s.hseCtrlWrite q w)
  else if w.row.key = R.HSE_RESULT_BASE then okAcc (if s.flag F.HSE_CTRL_ENABLE then s else s.plainWrite w)
  else if w.row.key = R.HSE_PARAM_RHO_LO ∨ w.row.key = R.HSE_PARAM_RHO_HI ∨ w.row.key = R.HSE_PARAM_SET ∨
      w.row.key = R.HSE_PARAM_EPOCH then okAcc (if s.flag F.HSE_PARAM_CMD_COMMIT then s else s.plainWrite w)
  else if w.row.key = R.HSE_PARAM_CMD then
    okAcc (if w.one F.HSE_PARAM_CMD_COMMIT then (s.setFld F.HSE_PARAM_CMD_COMMIT 1).setFld F.HSE_STATUS_PARAM_PENDING 1 else s)
  else if w.row.key = R.HSE_SWP_BASE 0 then okAcc (s.ringBase (.hse ((w.k - R.HSE_SWP_BASE 0) / 0x20)) w)
  else if w.row.key = R.HSE_SWP_CFG 0 then okAcc (s.sweepCfgWrite ((w.k - R.HSE_SWP_CFG 0) / 0x20) w)
  else if w.row.key = R.HSE_SWP_DB 0 then
    let r := Ring.hse ((w.k - R.HSE_SWP_DB 0) / 0x20)
    s.doorbell q r (w.newFld (s.reg w.k) r.prod)
  else if w.row.key = R.HSE_BASE_ADDR then
    okAcc (if s.flag F.HSE_BASE_CMD_CAPTURE then s else (s.plainWrite w).setFld F.HSE_BASE_CMD_VALID 0)
  else if w.row.key = R.HSE_BASE_CMD then okAcc (s.baseCmdWrite w)
  else if w.row.key = R.HSE_ST_CMD then
    okAcc (if w.one F.HSE_ST_CMD_START && !s.flag F.HSE_ST_CMD_START then
      (s.setFld F.HSE_ST_CMD_START 1).setFld F.HSE_ST_STATUS_STATE 1 else s)
  else if w.row.key = R.HSE_ADOPT then
    let s := s.plainWrite w
    okAcc (if w.one F.HSE_ADOPT_ARM && !s.flag F.HSE_ADOPT_ARM then
      { (s.setFld F.HSE_ADOPT_ARM 1).setFld F.HSE_ADOPT_STATE 1 with hse := { s.hse with arrived := none } } else s)
  else if w.row.key = R.HSE_CTS_ACCESS then
    if q.s then okAcc (s.plainWrite w) else refAcc s q true (.sys 0x19) 0
  else if w.row.key = R.HSE_MODEL_NEXT then
    okAcc (if s.flag F.HSE_MODEL_CMD_VALIDATE || s.flag F.HSE_MODEL_ARM_ARM then s
      else (s.plainWrite w).setFld F.HSE_MODEL_STATUS_VAL_STATE 0)
  else if w.row.key = R.HSE_MODEL_CMD then
    let s := s.plainWrite w
    let s := if w.one F.HSE_MODEL_CMD_RELEASE then s.hseRelease else s
    okAcc (if w.one F.HSE_MODEL_CMD_VALIDATE && !s.flag F.HSE_MODEL_CMD_VALIDATE then s.validateStart else s)
  else if w.row.key = R.HSE_MODEL_ARM then
    -- DISARM wins over ARM in one write (log entry 46)
    if w.one F.HSE_MODEL_ARM_DISARM then okAcc (s.setFld F.HSE_MODEL_ARM_ARM 0)
    else if w.one F.HSE_MODEL_ARM_ARM && decide (s.fld F.HSE_MODEL_STATUS_VAL_STATE = 2) then
      okAcc (s.setFld F.HSE_MODEL_ARM_ARM 1)
    else okAcc s
  else okAcc (s.plainWrite w)

end Sys2Proof.Machine
end

