-- ==== Sys2Proof/Machine/Threads.lean ====
section
/-! DEFINITION. Knarn threads as the CORE block sees them (chapter 10): the end of loads and stores, waits, interrupts,
START, STOP, FLUSH, and what a cache that loses its contents leaves. -/

namespace Sys2Proof.Machine

/-! ### Loads (R252, R263) -/

/-- The number of pieces of a load of `n` bytes (R286). -/
def pieces (n : Nat) : Nat := if n ≤ 8 then 1 else n / 8

/-- The bytes of a load whose pieces have all come. -/
def Load.bytes (l : Load) : List Byte :=
  (List.range (pieces l.size)).flatMap (fun i => ((l.got.find? (fun e => e.1 == i)).map (·.2)).getD [])

/-- What a load of these bytes does. A RET checks its target before it has any effect (R255). -/
def State.loaded (s : State) (t : Nat) (l : Load) : KOut :=
  let bs := l.bytes
  match l.dest with
  | .gpr rd sg => .done (s.setW t rd (if sg then wrap 64 (sext (8 * l.size) (ofBytes bs)) else ofBytes bs))
  | .vec rd => .done (s.modTh t (fun x => x.setVec rd ((List.range 4).map (fun i => leAt bs (8 * i) 8))))
  | .fld rd => .done (s.modTh t (fun x => x.setFr rd (ofBytes bs % 2 ^ 521)))
  | .pop rd => .done (s.modTh t (fun x => (x.setGpr 31 (x.gpr 31 + 8)).setGpr rd (ofBytes bs)))
  | .ret =>
    let target := ofBytes bs
    if (s.th t).fetchOk target then .jump (s.modTh t (fun x => x.setGpr 31 (x.gpr 31 + 8))) target
    else .trap s 5 target 0

/-- A load ends once every piece has come: its effect, or the bus-error trap of its lowest failed piece. -/
def State.loadCheck (s : State) (t : Nat) : State :=
  match (s.th t).load with
  | none => s
  | some l =>
    if l.got.length + l.bad.length < pieces l.size then s
    else
      let s := s.modTh t (fun x => { x with load := none })
      match l.bad with
      | [] => (s.loaded t l).finish t
      | a :: r => (KOut.trap s 7 (r.foldl min a) 0).finish t

/-- Piece `i` of the load of thread `t` has been answered: refused pieces read zero (R14, R252). -/
def State.loadPiece (s : State) (t i : Nat) (st : Status) (bs : List Byte) : State :=
  s.modTh t (fun x => { x with load := x.load.map (fun l =>
    match st with
    | .error => { l with bad := (l.addr + 8 * i) :: l.bad }
    | _ => { l with got := (i, padTo (min l.size 8) bs) :: l.got }) })

/-! ### STOP and stores -/

/-- Request `o` carries the tag of thread `t` of this device (R10). -/
def State.ofThread (s : State) (t : Nat) (o : Outst) : Bool := o.req.tag == (s.kReq t).tag

/-- Request `o` goes to memory (R281): through a peer window or to CXL memory. -/
def Outst.mem (o : Outst) : Bool := decide (o.port < 4) || decide (cxlBase ≤ o.addr)

/-- Writes of thread `t` are outstanding that have not been performed. -/
def State.storesOut (s : State) (t : Nat) : Bool := s.outst.any (fun o => s.ofThread t o && o.kind != .read)

/-- Accesses of thread `t` are outstanding of one of the kinds that a FENCE's set names (R287): memory reads, memory
writes, device reads. A device write is performed once it has been accepted at its target's crossing. -/
def State.unperformed (s : State) (t : Nat) (mr mw dr : Bool) : Bool :=
  s.outst.any (fun o => s.ofThread t o &&
    (if o.mem then (mr && o.kind != .write) || (mw && o.kind != .read) else dr && o.kind != .write))

/-- Accesses of thread `t` are outstanding that a FENCE with every bit set waits for (R289). -/
def State.accessOver (s : State) (t : Nat) : Bool := s.unperformed t true true true

/-- A STOP that waits takes effect at an instruction boundary with every store performed (R291). -/
def State.stopCheck (s : State) (t : Nat) : State :=
  if s.flag (F.CORE_TH_CTRL_STOP t) && (s.th t).load.isNone && !s.storesOut t then
    let s := s.setFld (F.CORE_TH_CTRL_STOP t) 0
    if s.thState t = 1 ∨ s.thState t = 2 then
      (s.setFld (F.CORE_TH_CTRL_STATE t) 3).modTh t (fun x => { x with wait := none })
    else s
  else s

/-- STOP is written 1. -/
def State.threadStop (s : State) (t : Nat) : State :=
  if s.thState t = 1 ∨ s.thState t = 2 then (s.setFld (F.CORE_TH_CTRL_STOP t) 1).stopCheck t else s

/-- A store of thread `t` to address `a` got an error response (R263). -/
def State.storeBad (s : State) (t a : Nat) : State := s.modTh t (fun x => { x with badSt := x.badSt ++ [a] })

/-- The bus-error trap of a store whose error response has returned: it ends a wait, whose instruction is the next one
(R263). -/
def State.storeError (s : State) (t : Nat) : State :=
  let x := s.th t
  match x.badSt with
  | [] => s
  | a :: r =>
    if (s.thState t = 1 ∨ s.thState t = 2) ∧ x.load.isNone = true then
      let s := if s.thState t = 2 then s.setFld (F.CORE_TH_CTRL_STATE t) 1 else s
      (s.setTh t { x with badSt := r, wait := none }).trap t 7 a 0 x.pc.toNat true
    else s

/-! ### START (R291) -/

/-- The CORE clock of the cluster of thread `t` runs (R492). -/
def State.coreClock (s : State) (t : Nat) : Bool := s.clusterClock (t / 8)

/-- The sg0 and sg7 that START gives thread `t`. -/
def State.startSeg (s : State) (t : Nat) (n : Nat) : Seg :=
  if n = 0 then ⟨s.reg (R.CORE_TH_SG0_B t), s.reg (R.CORE_TH_SG0_L t)⟩
  else ⟨s.reg (R.CORE_TH_SG7_B t), s.reg (R.CORE_TH_SG7_L t)⟩

/-- START of thread `t` is accepted. -/
def State.startOk (s : State) (t : Nat) : Bool :=
  (decide (s.thState t = 0) || decide (s.thState t = 3) || decide (s.thState t = 4)) &&
  s.domOn (t / 2) && s.domOn (32 + t / 8) && s.coreClock t && (s.startSeg t 0).ok && (s.startSeg t 7).ok

/-- A thread as START leaves it. -/
def State.fresh (s : State) (t : Nat) : Thread :=
  let x : Thread := { pc := BitVec.ofNat 64 (s.reg (R.CORE_TH_PC t)) }
  ((((x.setSeg 0 (s.startSeg t 0)).setSeg 7 (s.startSeg t 7)).setGpr 31 (s.reg (R.CORE_TH_SP t))).setSt St.SATTR
    (s.flag (F.CORE_TH_CTRL_SATTR t)))

/-- START of thread `t`. -/
def State.threadStart (s : State) (t : Nat) : State :=
  if s.startOk t then (s.setFld (F.CORE_TH_CTRL_STATE t) 1).setTh t (s.fresh t)
  else s.setFld (F.CORE_TH_CTRL_START_ERR t) 1

/-! ### Caches (R283, R284, R497) -/

/-- A store of thread `t` to `n` bytes at `a` of cacheable memory leaves its words dirty in the thread's core: `was` is
the memory before it. -/
def State.noteDirty (s : State) (t a n : Nat) (was : State) : State :=
  let words := (List.range (wordsOf a n)).map (fun i => a / 8 * 8 + 8 * i)
  let old (w : Nat) : Dirty :=
    match was.dirty.find? (fun d => d.addr == w) with
    | some d => ⟨w, t / 8, some (t / 2), was.num w 8 :: d.olds⟩
    | none => ⟨w, t / 8, some (t / 2), [was.num w 8]⟩
  let kept := (was.dirty.filter (fun d => decide (a / 64 ≤ d.addr / 64) && decide (d.addr / 64 ≤ (a + n - 1) / 64) &&
    !words.contains d.addr)).map (fun d => { d with cluster := t / 8, core := some (t / 2) })
  { s with dirty := s.dirty ++ kept ++ words.map old }

/-- Element `i` modulo its length of a list that is not empty. -/
def pickOf (l : List Nat) (i : Nat) : Nat := l.getD (i % l.length) 0

/-- A cache loses word `d`: memory holds its newest or one of its earlier values, as write-backs left it. -/
def State.loseWord (s : State) (d : Dirty) : State :=
  (s.skipFree).poke d.addr (toBytes 8 (pickOf (s.num d.addr 8 :: d.olds) s.freeVal))

/-- The caches that satisfy `p` lose their dirty words (R284, R497). -/
def State.loseDirty (s : State) (p : Dirty → Bool) : State :=
  let lost := s.dirty.filter p
  lost.foldl State.loseWord { s with dirty := s.dirty.filter (fun d => !p d) }

/-- The L1D of a core loses word `d`: its cluster's L2 holds the newest or an earlier value, which may be dirty there
(R284). -/
def State.loseHeld (s : State) (d : Dirty) : State :=
  let i := s.freeVal % (d.olds.length + 1)
  let z := s.loseWord d
  if i < d.olds.length then { z with dirty := z.dirty ++ [{ d with core := none, olds := d.olds.drop i }] } else z

/-- Core `c` is switched off: its L1D loses the dirty words that it may hold alone; other caches keep theirs (R284). -/
def State.loseCore (s : State) (c : Nat) : State :=
  let lost := s.dirty.filter (fun d => d.core == some c)
  lost.foldl State.loseHeld { s with dirty := s.dirty.filter (fun d => d.core != some c) }

/-- Whether the line of dirty word `d` can be written back: CXL memory needs a port that serves it (R436). -/
def State.backed (s : State) (d : Dirty) : Bool :=
  if d.addr < cxlBase then true else (s.cxlPort (d.addr - cxlBase)).isSome

/-- The distinct lines of a list of dirty words. -/
def dirtyLines (l : List Dirty) : List Nat := (l.map (fun d => d.addr / 64)).eraseDups

/-- Every dirty word that satisfies `p` is written back: lines of CXL memory that no port serves are dropped and counted
(R436). -/
def State.writeBack (s : State) (p : Dirty → Bool) : State :=
  let gone := s.dirty.filter (fun d => p d && !s.backed d)
  let s' := gone.foldl State.loseWord { s with dirty := s.dirty.filter (fun d => !p d) }
  if s.domOn 141 then s'.bumpFld (cnt32 (R.CXL_ERR_COUNT 0)) (dirtyLines gone).length else s'

/-- FLUSH of cluster `c` (R284). -/
def State.flushCluster (s : State) (c : Nat) : State := s.writeBack (fun d => d.cluster == c)

/-! ### Waits (R256, R262, R269, R270, R290) -/

/-- Thread `t` waits for `v`. -/
def State.kWait (s : State) (t : Nat) (v : Wait) : State :=
  (s.setFld (F.CORE_TH_CTRL_STATE t) 2).modTh t (fun x => { x with wait := some v })

/-- The wait of thread `t` ends. -/
def State.kWake (s : State) (t : Nat) : State :=
  (s.setFld (F.CORE_TH_CTRL_STATE t) 1).modTh t (fun x => { x with wait := none })

/-- An interrupt is pending at thread `t`, or a wake request of its core (R256, R262). -/
def State.wfiDone (s : State) (t : Nat) : Bool := (s.irqAt t).isSome || s.wakeRequest (t / 2)

/-- A WFI wait ends. -/
def State.wfiWake (s : State) (t : Nat) : State :=
  match (s.th t).wait with
  | some .wfi => if s.wfiDone t ∧ (s.th t).badSt = [] then (s.kWake t).retire t else s
  | _ => s

/-- A pending interrupt is taken between two instructions (R262): WFI has completed, other waits are left at their own
instruction. -/
def State.interrupt (s : State) (t : Nat) : State :=
  let x := s.th t
  match s.irqAt t with
  | some q =>
    if (s.thState t = 1 ∨ s.thState t = 2) ∧ x.load.isNone = true ∧ x.badSt = [] ∧ x.st St.IE = true ∧
        x.st St.IN_TRAP = false then
      let s := match x.wait with
        | some .wfi => (s.kWake t).retire t
        | some _ => s.kWake t
        | none => s
      let y := s.th t
      s.setTh t (y.enter 0x10 q y.pc.toNat)
    else s
  | none => s

/-- The chosen beam of head `h`: line and pixel. -/
def State.beamOf (s : State) (h : Nat) (scan : Bool) : Nat × Nat :=
  if scan then s.beam h else ((s.head h).cLine, (s.head h).cPix)

/-- WAITBEAM's target is outside what the beam reaches (R269). -/
def State.badTarget (s : State) (h line pixel : Nat) (scan : Bool) : Bool :=
  let x := s.head h
  if 5 < h then true
  else if scan then Nat.ble (x.vTotal h) line || Nat.ble (x.hTotal h) pixel
  else Nat.ble (s.vActive h) line || Nat.ble (s.hActive h) pixel

/-- The number of the frame that the chosen beam of head `h` is in. -/
def State.frameOf (s : State) (h : Nat) (scan : Bool) : Nat :=
  if scan then s.reg (R.HEAD_FRAME h) else (s.head h).cFrame

/-- A thread's WAITBEAM is looked at again (R269, R290): it returns 1 when SCANNING is 0, and 0 once the beam has moved
from before its target to it or beyond. -/
def State.beamEnd (s : State) (t : Nat) : State :=
  match (s.th t).wait with
  | some (.beam h line pixel scan _ was frame rd) =>
    if (s.th t).badSt ≠ [] then s
    else if ¬ s.scanning h then ((s.kWake t).setW t rd 1).retire t
    else
      let n := s.frameOf h scan
      let b := before (s.beamOf h scan) (line, pixel)
      if (was && (!b || n != frame)) || (!was && n != frame && (!b || n != (frame + 1) % 2 ^ 32)) then
        ((s.kWake t).setW t rd 0).retire t
      else s
  | _ => s

/-- A thread that waits at a barrier whose generation has ended is released, once the fence that follows the release is
done (R136, R270, R289). -/
def State.barRelease (s : State) (t : Nat) : State :=
  match (s.th t).wait, (s.th t).arrived with
  | some (.barrier rd), some a =>
    match a.res with
    | some r =>
      if (s.th t).badSt = [] ∧ s.accessOver t = false then
        (((s.kWake t).setW t rd r).modTh t (fun x => { x with arrived := none })).retire t
      else s
    | none => s
  | _, _ => s

/-- Every thread waiting at barrier `n` whose generation has ended is released. -/
def State.barReleases (s : State) (n : Nat) : State :=
  (List.range 64).foldl (fun (s : State) t =>
    match (s.th t).arrived with
    | some a => if a.bar = n then s.barRelease t else s
    | none => s) s

/-- Something that thread `t` waited for has come: a STOP may take effect, a release may follow (R289, R291). -/
def State.settleTh (s : State) (t : Nat) : State := (s.stopCheck t).barRelease t

/-- An access with the tag of requester `q` has been performed. -/
def State.performed (s : State) (q : Req) : State :=
  let t := bits q.tag.toNat 0 6
  if q.tag == (s.kReq t).tag then s.settleTh t else s

/-! ### CORE registers -/

/-- A write to a CORE register. -/
def coreWrite (s : State) (q : Req) (w : RegW) : Acc :=
  if ¬ q.s then refAcc s q true (.sys 0x30) 0
  else if w.row.key = R.CORE_CL_CTRL 0 then
    let c := (w.k - R.CORE_CL_CTRL 0) / 0x10
    okAcc (if w.one (F.CORE_CL_CTRL_FLUSH c) then s.flushCluster c else s)
  else if w.row.key = R.CORE_TH_CTRL 0 then
    let t := (w.k - R.CORE_TH_CTRL 0) / 0x40
    let s := s.plainWrite w
    let stop := w.one (F.CORE_TH_CTRL_STOP t)
    let s := if w.one (F.CORE_TH_CTRL_START t) then
        if stop then s.setFld (F.CORE_TH_CTRL_START_ERR t) 1 else s.threadStart t
      else s
    okAcc (if stop then s.threadStop t else s)
  else okAcc (s.plainWrite w)

end Sys2Proof.Machine
end

