-- ==== Sys2Proof/Machine/Ports.lean ====
section
/-! DEFINITION. External ports (chapter 19): requests outstanding at CXL and Atsobry ports, CXL, Atsobry links, Ethernet,
MDIO, flash, I2C and the debug UART. -/

namespace Sys2Proof.Machine

/-! ### Atomic operations (R253) -/

/-- What memory becomes: operation, old value, wB, wD. -/
def atomicNew (op old b d : Nat) : Nat :=
  match op with
  | 0 => b
  | 1 => (old + b) % 2 ^ 64
  | 2 => Nat.land old b
  | 3 => Nat.lor old b
  | 4 => Nat.xor old b
  | _ => if old = d then b else old

/-- The old value of an atomic operation on the 8 bytes at `a` of this device's pool or of CXL memory: in the pool it is
checked as a write (R293), and the read part alone is checked no further. Elsewhere an error response. -/
def State.atomicRead (s : State) (q : Req) (a : Nat) : Acc :=
  let inPool (o : Nat) (r : Acc) : Acc := match s.bankRefuses q true o 8 with
    | some b => refAcc s q true (.pool b) 8
    | none => r
  match regionOf a 8 with
  | some (.pool o) => inPool o (s.poolFetch o 8)
  | some (.rot o) => inPool (o / 8 * 8) ((s.poolFetch (o / 8 * 8) 8).rotated o 8)
  | some (.peer n o) => if n = s.pos then inPool o (s.poolFetch o 8) else errAcc s
  | some (.cxl o) => s.cxlRead o 8
  | _ => errAcc s

/-- An atomic operation on the 8 bytes at `a`, as one access. -/
def State.memAtomic (s : State) (q : Req) (a op b d : Nat) : Acc :=
  let r := s.atomicRead q a
  match r.st with
  | .ok => { r.s.memWrite q a (toBytes 8 (atomicNew op (ofBytes r.data) b d)) with data := r.data }
  | _ => r

/-! ### Outstanding requests -/

/-- An access that the bus takes: answered at once, sent over a port, or not taken because the port is full (R533). -/
inductive BusOut where
  | acc (a : Acc)
  | sent (s : State)
  | full

/-- The requests outstanding at port `p`: 0 to 3 Atsobry, 4 and 5 CXL. -/
def State.outAt (s : State) (p : Nat) : List Outst := s.outst.filter (fun o => o.port == p)

/-- The debug port's access has ended (R482): a read's bytes in DBG_DATA, ERR, and the advance of DBG_ADDR. -/
def State.dbgDone (s : State) (write : Bool) (st : Status) (bs : List Byte) : State :=
  let n := 2 ^ s.fld F.DBG_CMD_SIZE
  let s := s.setFld F.DBG_CMD_GO 0
  let s := if st = .ok then s else s.setFld F.DBG_STATUS_ERR 1
  let s := if write || st == .error then s else
    let v := ofBytes (padTo 8 (bs.take n))
    (s.setReg R.DBG_DATA_LO (v % 2 ^ 32)).setReg R.DBG_DATA_HI (v / 2 ^ 32)
  if s.flag F.DBG_CMD_INC then
    let a := (s.reg R.DBG_ADDR_HI * 2 ^ 32 + s.reg R.DBG_ADDR_LO + n) % 2 ^ 44
    (s.setReg R.DBG_ADDR_LO (a % 2 ^ 32)).setReg R.DBG_ADDR_HI (a / 2 ^ 32)
  else s

/-- The answer of request `o` reaches its requester (R287, R533). -/
def State.deliver (s : State) (o : Outst) (st : Status) (bs : List Byte) : State :=
  State.performed (match o.waiter with
  | .thread t i =>
    match o.kind with
    | .write => if st = .error then s.storeBad t o.addr else s
    | _ => (s.loadPiece t i st bs).loadCheck t
  | .fetch t => s.modTh t (fun x => { x with fetched := some ⟨o.addr, st, bs⟩ })
  | .sender => s.answer st bs
  | .dbg => s.dbgDone (o.kind == .write) st bs
  | .nobody => s) o.req

/-- The `k`-th request outstanding at port `p`, and the requests without it. -/
def takeAt (p : Nat) : Nat → List Outst → Option (Outst × List Outst)
  | _, [] => none
  | k, o :: r =>
    if o.port = p then
      match k with
      | 0 => some (o, r)
      | k + 1 => (takeAt p k r).map (fun x => (x.1, o :: x.2))
    else (takeAt p k r).map (fun x => (x.1, o :: x.2))

/-- Every request outstanding at port `p` gets an error response (R436, R441). -/
def State.failAll (s : State) (p : Nat) : State :=
  (s.outAt p).foldl (fun (s : State) o => s.deliver o .error [])
    { s with outst := s.outst.filter (fun o => o.port != p) }

/-- The number by which a request names its kind. -/
def reqKindCode : ReqKind → Nat
  | .read => 0
  | .write => 1
  | .atomic op => 2 + op

/-! ### Peer windows (R18 to R20, R441) -/

/-- A peer window access to position `n` at offset `o` is sent. -/
def State.peerSend (s : State) (n : Nat) (kind : ReqKind) (q : Req) (o size : Nat) (data : List Byte) (w : Waiter) :
    BusOut :=
  if ¬ s.atsUp n then .acc (errAcc s)
  else if 256 ≤ (s.outAt n).length then .full
  else
    let x : Outst := ⟨n, kind, q, peerBase + n * 0x10000000 + o, size, data, w⟩
    .sent (({ s with outst := s.outst ++ [x] }).emit
      ⟨.peerRequest, [n, reqKindCode kind, o, size, q.tag.toNat, b2n q.s], data⟩)

/-- The response to the `k`-th request outstanding at port `n`, which must be the first of its requester (R441). -/
def State.peerAnswer (s : State) (n k : Nat) (st : Status) (bs : List Byte) : State :=
  if ¬ s.atsUp n then s
  else
    match takeAt n k s.outst with
    | none => s
    | some (o, rest) =>
      if ((s.outAt n).take k).any (fun x => x.req == o.req) then s
      else { s with outst := rest }.deliver o st (match st with
        | .ok => padTo (if o.kind = ReqKind.write then 0 else o.size) bs
        | .refused => List.replicate (if o.kind = ReqKind.write then 0 else o.size) 0
        | .error => [])

/-- A request of the peer at position `n` arrives and is performed in the pool under the peer's tag (R20, R441). -/
def State.peerReceive (s : State) (n : Nat) (q : Req) (kind : ReqKind) (o size : Nat) (data : List Byte) : State :=
  if ¬ s.atsUp n ∨ posOf q ≠ n ∨ n = s.pos ∨ size = 0 ∨ 64 < o % 64 + size then s
  else
    let r : Acc :=
      if poolSize < o + size then errAcc s
      else match kind with
        | .read => s.poolRead q o size
        | .write => s.poolWrite q o (padTo size data)
        | .atomic op => s.memAtomic q (poolBase + o) op (leAt data 0 8) (leAt data 8 8)
    r.s.emit ⟨.peerResponse, [n, match r.st with | .ok => 0 | .refused => 1 | .error => 2], r.data⟩

/-! ### CXL (R432 to R436) -/

/-- A configuration or MMIO access at offset `o` of its region (R433). -/
def State.cxlCfgSend (s : State) (kind : ReqKind) (q : Req) (o size : Nat) (data : List Byte) (w : Waiter) : BusOut :=
  match s.cxlCfgLocal (kind == .write) o size with
  | some a => .acc a
  | none =>
    let p := (cxlCfgAt o).1
    let y : Outst := ⟨4 + p, kind, q, cxlCfgBase + o, size, data, w⟩
    .sent (({ s with outst := s.outst ++ [y] }).emit ⟨.cxlRequest, [p, reqKindCode kind, cxlCfgBase + o, size], data⟩)

/-- A memory access at offset `o` of CXL memory is decoded to a port and sent (R434). -/
def State.cxlMemSend (s : State) (kind : ReqKind) (q : Req) (o size : Nat) (data : List Byte) (w : Waiter) : BusOut :=
  match s.cxlPort o with
  | none => .acc (s.cxlErr o)
  | some p =>
    let y : Outst := ⟨4 + p, kind, q, cxlBase + o, size, data, w⟩
    .sent (({ s with outst := s.outst ++ [y] }).emit ⟨.cxlRequest, [p, reqKindCode kind, cxlBase + o, size], data⟩)

/-- The device returns the aligned words of `n` bytes at `a` poisoned. -/
def State.poisonAt (s : State) (a n : Nat) : State :=
  (List.range (wordsOf a n)).foldl (fun (s : State) i => s.setEcc (a / 8 * 8 + 8 * i) .poisoned) s

/-- Request `x` keeps a later request `o` of the same requester behind it: memory accesses to one address (R286), and
device accesses (R22). -/
def Outst.before (x o : Outst) : Bool :=
  x.req == o.req &&
  (if cxlBase ≤ o.addr then decide (cxlBase ≤ x.addr) && decide (x.addr < o.addr + o.size) && decide (o.addr < x.addr + x.size)
   else decide (x.addr < cxlBase))

/-- The completion of the `k`-th request outstanding at CXL port `p` (R436). -/
def State.cxlComplete (s : State) (p k : Nat) (bs : List Byte) (poison : Bool) : State :=
  match takeAt (4 + p) k s.outst with
  | none => s
  | some (o, rest) =>
    if ((s.outAt (4 + p)).take k).any (fun x => x.before o) then s
    else
    let s := { s with outst := rest }
    if cxlBase ≤ o.addr then
      let s := if poison && o.kind == .read then s.poisonAt o.addr o.size else s
      let r : Acc := match o.kind with
        | .read => s.cxlRead (o.addr - cxlBase) o.size
        | .write => s.cxlWrite (o.addr - cxlBase) o.data
        | .atomic op => s.memAtomic o.req o.addr op (leAt o.data 0 8) (leAt o.data 8 8)
      r.s.deliver o r.st r.data
    else if poison then (s.cxlPoison p).deliver o .error []
    else s.deliver o .ok (padTo (if o.kind = ReqKind.write then 0 else o.size) bs)

/-- A request outstanding at CXL port `p` has had no completion for 50 ms (R433). -/
def State.cxlTimeout (s : State) (p k : Nat) : State :=
  match takeAt (4 + p) k s.outst with
  | none => s
  | some (o, rest) => ({ s with outst := rest }.cxlCount p).deliver o .error []

/-- The link of CXL port `p` goes down (R436). -/
def State.cxlDown (s : State) (p : Nat) : State :=
  let up : Bool := decide (s.fld (F.CXL_STATUS_LINK_STATE p) = 2)
  let s := (s.setFld (F.CXL_STATUS_LINK_STATE p) 0).setFld (F.CXL_STATUS_WIDTH p) 0
  let s := if up then s.setFld (F.CXL_STATUS_LINK_LOST p) 1 else s
  (s.bumpFld (cnt32 (R.CXL_ERR_COUNT p)) (s.outAt (4 + p)).length).failAll (4 + p)

/-- Training of CXL port `p` ends at width code `w` (1 x2, 2 x4, 3 x8), or fails (0): a link below 64 GT/s or at x1 is
not used (R432). -/
def State.cxlTrained (s : State) (p w : Nat) : State :=
  if s.fld (F.CXL_STATUS_LINK_STATE p) ≠ 1 then s
  else if w = 0 then s.setFld (F.CXL_STATUS_LINK_STATE p) 3
  else (s.setFld (F.CXL_STATUS_LINK_STATE p) 2).setFld (F.CXL_STATUS_WIDTH p) w

/-- MEM_EN of port `p` may be set (R435). -/
def State.memEnOk (s : State) (p : Nat) : Bool :=
  let il := s.flag (F.CXL_CTRL_IL_EN 0)
  let z := s.fld (F.CXL_HDM_SIZE (if il then 0 else p))
  let r := s.hdmRange p
  let o := s.hdmRange (1 - p)
  decide (s.fld (F.CXL_STATUS_LINK_STATE p) = 2) && decide (1 ≤ z) && decide (z ≤ 2048) && decide (r.2 ≤ 4096) &&
  (il || !s.flag (F.CXL_CTRL_MEM_EN (1 - p)) || decide (r.2 ≤ o.1) || decide (o.2 ≤ r.1))

/-- A write to CXL_CTRL of port `p`. -/
def State.cxlCtrlWrite (s : State) (p : Nat) (w : RegW) : State :=
  let w := if p = 1 then w.without 8 else w
  let was := s.reg w.k
  let v := w.merged was
  let il := bit v 3 != bit was 3
  let used : Bool := s.flag (F.CXL_CTRL_MEM_EN 0) || s.flag (F.CXL_CTRL_MEM_EN 1) ||
    s.mem.any (fun (e : Nat × Byte) => Nat.ble cxlBase e.1)
  let s := s.setReg w.k (putBits v 2 1 (b2n (bit was 2)))
  let s := if il && used then { s with cxlTaint := true, cxlFresh := [] } else s
  let s := if bit v 1 && !bit was 1 then (s.setFld (F.CXL_STATUS_LINK_STATE p) 1).setFld (F.CXL_STATUS_WIDTH p) 0
    else if bit was 1 && !bit v 1 then s.cxlDown p else s
  if w.one (F.CXL_CTRL_MEM_EN p) then
    if s.memEnOk p then s.setFld (F.CXL_CTRL_MEM_EN p) 1 else s.setFld (F.CXL_STATUS_CFG_ERR p) 1
  else if w.nil (F.CXL_CTRL_MEM_EN p) then s.setFld (F.CXL_CTRL_MEM_EN p) 0
  else s

/-- A write to a register of CXL port `p`. -/
def cxlRegWrite (s : State) (q : Req) (p : Nat) (w : RegW) : Acc :=
  if ¬ q.s then refAcc s q true (.sys (0x20 + p)) 0
  else if w.row.key = R.CXL_CTRL 0 then okAcc (s.cxlCtrlWrite p w)
  else if w.row.key = R.CXL_HDM 0 then okAcc (if s.flag (F.CXL_CTRL_MEM_EN p) then s else s.plainWrite w)
  else okAcc (s.plainWrite w)

/-! ### Atsobry links (R437 to R439, R525) -/

def State.atsPort (s : State) (n : Nat) : AtsPort := AMap.get s.ports.ats n {}

def State.setAts (s : State) (n : Nat) (x : AtsPort) : State :=
  { s with ports := { s.ports with ats := AMap.set s.ports.ats n x {} } }

/-- Training of port `n` starts (R437). -/
def State.atsTrain (s : State) (n : Nat) : State :=
  ((s.setFld (F.ATS_STATUS_STATE n) 1).setFld (F.ATS_STATUS_FAILED n) 0).setAts n
    { budget := s.fld (F.ATS_CTRL_BUDGET n) }

/-- The link of port `n` goes down: requests outstanding get error responses, the peer is lost (R127, R441). -/
def State.atsDown (s : State) (n : Nat) : State :=
  let up : Bool := decide (s.fld (F.ATS_STATUS_STATE n) = 2)
  let s := ((((s.setFld (F.ATS_STATUS_STATE n) 0).setFld (F.ATS_STATUS_ACTIVE n) 0).setFld (F.ATS_CTRL_RETRAIN n) 0).setAts
    n {}).failAll n
  if up then s.peerLost n else s

/-- The link of port `n` goes down while EN is 1: it returns to training (R437). -/
def State.atsLost (s : State) (n : Nat) : State :=
  if s.fld (F.ATS_STATUS_STATE n) = 2 then ((s.atsDown n).setFld (F.ATS_STATUS_LINK_LOST n) 1).atsTrain n else s

/-- ACTIVE follows the active lanes. -/
def State.atsShow (s : State) (n : Nat) : State :=
  s.setFld (F.ATS_STATUS_ACTIVE n) (match (s.atsPort n).active.length with | 4 => 2 | 3 => 1 | _ => 0)

/-- A training of port `n` in which the lanes of `mask` pass (R437). -/
def State.atsTrained (s : State) (n mask : Nat) : State :=
  if s.fld (F.ATS_STATUS_STATE n) ≠ 1 then s
  else
    let l := (List.range 5).filter (bit mask)
    if l.length < 3 then s
    else (((s.setFld (F.ATS_CTRL_RETRAIN n) 0).setFld (F.ATS_STATUS_STATE n) 2).setAts n
      { s.atsPort n with active := l.take 4, spare := (l.drop 4).head? }).atsShow n

/-- Physical lane `l` of port `n` loses lock, or has had `c` symbols corrected within 1 ms (R438). -/
def State.laneFail (s : State) (n l : Nat) (c : Option Nat) : State :=
  let x := s.atsPort n
  if s.fld (F.ATS_STATUS_STATE n) ≠ 2 then s
  else
    let fails : Bool := match c with
      | none => x.active.contains l || x.spare == some l
      | some k => x.active.contains l && decide (x.budget ≤ k)
    if ¬ fails then s
    else
      let s := (s.setFld (F.ATS_STATUS_LANE_EVT n) 1).orReg (R.ATS_STATUS n) (2 ^ (8 + l))
      if x.spare = some l then s.setAts n { x with spare := none }
      else
        match x.spare with
        | some sp => s.setAts n { x with active := x.active.map (fun y => if y = l then sp else y), spare := none }
        | none =>
          if x.active.length = 4 then (s.setAts n { x with active := x.active.filter (· != l) }).atsShow n
          else s.atsLost n

/-- Port `n` corrects `c` codewords and replays one, whose replay fails `k` times in a row (R439). -/
def State.codewordReplay (s : State) (n c k : Nat) : State :=
  if s.fld (F.ATS_STATUS_STATE n) ≠ 2 then s
  else
    let s := ((s.bumpFld (cnt32 (R.ATS_FEC_CE n)) c).bump (R.ATS_FEC_UE n)).emit ⟨.codewordReplay, [n], []⟩
    if 16 ≤ k then s.atsLost n else s

/-- A write to a register of Atsobry port `n`. -/
def atsWrite (s : State) (q : Req) (n : Nat) (w : RegW) : Acc :=
  if ¬ q.s then refAcc s q true (.sys (0x24 + n)) 0
  else if w.row.key = R.ATS_CTRL 0 then
    let was := s.flag (F.ATS_CTRL_EN n)
    let s := s.plainWrite w
    let en := s.flag (F.ATS_CTRL_EN n)
    okAcc (if en && !was then s.atsTrain n
      else if was && !en then s.atsDown n
      else if w.one (F.ATS_CTRL_RETRAIN n) && en && !s.flag (F.ATS_CTRL_RETRAIN n) then
        (if s.fld (F.ATS_STATUS_STATE n) = 2 then s.atsLost n else s.atsTrain n).setFld (F.ATS_CTRL_RETRAIN n) 1
      else s)
  else okAcc (s.plainWrite w)

/-! ### Ethernet (R442 to R448) -/

def State.mac (s : State) (e : Nat) : EthMac := AMap.get s.ports.eth e {}

def State.setMac (s : State) (e : Nat) (x : EthMac) : State :=
  { s with ports := { s.ports with eth := AMap.set s.ports.eth e x {} } }

def ethRing (e : Nat) (rx : Bool) : Ring := if rx then .ethRx e else .ethTx e

/-- HALTED of a ring of MAC `e`. -/
def ethHalted (e : Nat) (rx : Bool) : Fld := if rx then F.ETH_RX_STATUS_HALTED e else F.ETH_TX_STATUS_HALTED e

/-- MAC `e` runs and its link is up. -/
def State.ethUp (s : State) (e : Nat) : Bool :=
  s.domOn (147 + e) && s.flag (F.ETH_CTRL_EN e) && s.flag (F.ETH_CTRL_LINK_UP e)

/-- A failed access halts a ring; its error record stands for the descriptor at index `i` (R446, R520). -/
def State.ethFail (s : State) (e : Nat) (rx : Bool) (cause a tag : Nat) : State :=
  let r := ethRing e rx
  (s.setFld (ethHalted e rx) 1).offer ⟨2, cause, r.unit.1, r.unit.2, a % 2 ^ 32, bits a 32 12, tag, some r,
    s.fld r.queue, s.fld r.owner, s.flag r.attr⟩

/-- The cause of a failed read or write (R446). -/
def ethCause (st : Status) (write : Bool) : Nat :=
  match st with
  | .refused => if write then 2 else 1
  | _ => if write then 4 else 3

/-- CANCEL: no frame is under way at a command, so every covered descriptor ends with status 0x4 (R404, R445). -/
def State.ethCancel (s : State) (e : Nat) (rx : Bool) : State :=
  let r := ethRing e rx
  if s.flag (ethHalted e rx) then s.ringCancel r
  else
    let s := s.ringCancel r
    (s.ringRest r).foldl (fun (s : State) i =>
      if s.flag (ethHalted e rx) then s
      else
        let a := s.slotAddr r i
        let d := s.memRead (s.ringReq r) a 16
        match d.st with
        | .ok => d.s.completeAt r i 4 (leAt d.data 12 4) (if rx then 0 else leAt d.data 8 4 % 2 ^ 14) 0
        | st => d.s.ethFail e rx (ethCause st false) a 0) s

/-- A frame on the wire: padded to 60 bytes, with its FCS. -/
def ethFrame (bs : List Byte) : List Byte :=
  let p := if bs.length < 60 then padTo 60 bs else bs
  p ++ toBytes 4 (crc32 p)

/-- MAC `e` sends the frame of the TX descriptor at CONS_IDX (R444 to R446). -/
def State.frameTransmit (s : State) (e : Nat) : State :=
  let r := Ring.ethTx e
  if ¬ s.ethUp e ∨ ¬ s.ringReady r ∨ (s.flag (ethHalted e false) = true) then s
  else
    let a := s.slotAddr r (s.fld r.cons)
    let d := s.memRead (s.ringReq r) a 16
    match d.st with
    | .ok =>
      let s := d.s
      let len := leAt d.data 8 4 % 2 ^ 14
      let tag := leAt d.data 12 4
      if len < 60 ∨ 9212 < len then s.complete r 1 tag len 0
      else
        let f := s.memRead (s.ringReq r) (leAt d.data 0 8) len
        match f.st with
        | .ok =>
          let bs := f.s.jobBytes r f.data
          let ts := if bit (leAt d.data 8 4) 31 then f.s.stc % 2 ^ 32 else 0
          (bs.2.emit ⟨.frame, [e], ethFrame bs.1⟩).complete r 0 tag len ts
        | _ => f.s.complete r 2 tag len 0
    | st => d.s.ethFail e false (ethCause st false) a 0

/-- The bytes after the EtherType of a frame, its EtherType, and whether it has a VLAN tag (R442, R447). -/
def ethPayload (f : List Byte) : Nat × List Byte × Bool :=
  if ofBytesBE ((f.drop 12).take 2) = 0x8100 then (ofBytesBE ((f.drop 16).take 2), f.drop 18, true)
  else (ofBytesBE ((f.drop 12).take 2), f.drop 14, false)

/-- The VALUE that receive rule `r` of MAC `e` gives a frame, if it matches (R447). -/
def State.ruleValue (s : State) (e r etype : Nat) (p : List Byte) : Option Nat :=
  let width := 2 * 2 ^ s.fld (F.ETH_RULE_CFG_WIDTH e r)
  let kind := s.fld (F.ETH_RULE_CFG_KIND e r)
  let ko := s.fld (F.ETH_RULE_CFG_KEY_OFF e r)
  let vo := s.fld (F.ETH_RULE_CFG_VAL_OFF e r)
  let mask := s.fld (F.ETH_RULE_SRC_KEY_MASK e r)
  if ¬ s.flag (F.ETH_RULE_CFG_EN e r) ∨ 8 < width ∨ (kind = 2 ∧ width ≠ 8) ∨ (kind = 3 ∧ width ≠ 4) ∨
     s.fld (F.ETH_RULE_MATCH_ETYPE e r) ≠ etype ∨ p.length < ko + 2 ∨ p.length < vo + width ∨
     Nat.land (ofBytesBE ((p.drop ko).take 2)) mask ≠ Nat.land (s.fld (F.ETH_RULE_MATCH_KEY e r)) mask then none
  else
    let bs := (p.drop vo).take width
    let v := if s.flag (F.ETH_RULE_CFG_BE e r) then ofBytesBE bs else ofBytes bs
    some (match kind with
      | 1 => wrap 64 (sext (8 * width) v)
      | 3 => dofB32 v
      | _ => v)

/-- The lowest-numbered rule that matches, with its VALUE. -/
def State.ruleMatch (s : State) (e : Nat) (etype : Nat) (p : List Byte) : Option (Nat × Nat) :=
  (List.range 32).findSome? (fun r => (s.ruleValue e r etype p).map (fun v => (r, v)))

/-- The rule's sample record is written (R448). -/
def State.ruleRecord (s : State) (e r v ts : Nat) : State :=
  let body := toBytes 8 v ++ toBytes 4 ts ++ toBytes 2 (s.fld (F.ETH_RULE_SRC_SOURCE_ID e r))
  let k := 32 * e + r
  let x := s.mac e
  let i := AMap.get x.counts k 0
  let a := s.fld (F.ETH_RULE_ADDR_ADDR e r) * 16 + 16 * (i % 2 ^ s.fld (F.ETH_RULE_CFG_COUNT_LOG2 e r))
  let q := s.engine (s.fld (F.ETH_RULE_OWN_OWNER e)) (s.flag (F.ETH_RULE_OWN_S e))
  let w := s.memWrite q a (body ++ toBytes 2 (crc16 body))
  let s := w.s.setMac e { x with counts := AMap.set x.counts k (i + 1) 0 }
  if w.st = .ok then s else s.bumpFld (F.ETH_RX_ERR_DROP e)

/-- A good frame goes to the RX ring of MAC `e` (R444 to R446). -/
def State.rxRing (s : State) (e : Nat) (f : List Byte) (vlan rule : Bool) (ts : Nat) : State :=
  let r := Ring.ethRx e
  if ¬ s.ringReady r ∨ (s.flag (ethHalted e true) = true) then s.bumpFld (F.ETH_RX_ERR_DROP e)
  else
    let a := s.slotAddr r (s.fld r.cons)
    let d := s.memRead (s.ringReq r) a 16
    match d.st with
    | .ok =>
      let tag := leAt d.data 12 4
      let n := min f.length (leAt d.data 8 4)
      let bs := d.s.jobBytes r (f.take n)
      let w := bs.2.memWrite (bs.2.ringReq r) (leAt d.data 0 8) bs.1
      match w.st with
      | .ok => w.s.complete r (b2n (decide (n < f.length))) tag (f.length + 65536 * b2n vlan + 131072 * b2n rule) ts
      | st => (w.s.ethFail e true (ethCause st true) (leAt d.data 0 8) tag).bumpFld (F.ETH_RX_ERR_DROP e)
    | st => (d.s.ethFail e true (ethCause st false) a 0).bumpFld (F.ETH_RX_ERR_DROP e)

/-- A frame, with its FCS, arrives at MAC `e` (R442, R444, R447, R448). -/
def State.frameReceive (s : State) (e : Nat) (bs : List Byte) : State :=
  if ¬ s.ethUp e then s
  else
    let n := bs.length
    let f := bs.take (n - 4)
    if n < 64 ∨ 9216 < n ∨ ofBytes (bs.drop (n - 4)) ≠ crc32 f then s.bumpFld (F.ETH_RX_ERR_FCS e)
    else
      let ts := s.stc % 2 ^ 32
      let p := ethPayload f
      match s.ruleMatch e p.1 p.2.1 with
      | some (r, v) =>
        let s := s.ruleRecord e r v ts
        if s.flag (F.ETH_RULE_CFG_PASS e r) then s.rxRing e f p.2.2 true ts else s
      | none => s.rxRing e f p.2.2 false ts

/-- A MAC's PCS gains or loses block lock (R442). -/
def State.ethLink (s : State) (e : Nat) (up : Bool) : State :=
  if s.domOn (147 + e) && s.flag (F.ETH_CTRL_EN e) then s.setFld (F.ETH_CTRL_LINK_UP e) (b2n up) else s

/-- The first value of TIME, in steps of `p` from `t` on, that exceeds `c` (R449). -/
def ppsNext (t p c : Nat) : Nat := if c < t then t else t + ((c - t) / p + 1) * p

/-- ETH_PPS_e goes high once the system time counter has reached TIME (R449). -/
def State.ppsPulse (s : State) (e : Nat) : State :=
  let x := s.mac e
  let t := s.reg (R.ETH_PPS_AT e)
  let p := s.fld (F.ETH_PPS_CFG_PERIOD e)
  if ¬ s.domOn (147 + e) ∨ ¬ s.flag (F.ETH_PPS_CFG_PPS_EN e) ∨ (p = 0 ∧ x.once = true) then s
  else
    let s := s.advance (t - s.stc)
    let s := s.setMac e { x with pps := some (s.now / 5 + 1000), once := decide (p = 0) }
    if p = 0 then s else s.setReg (R.ETH_PPS_AT e) (ppsNext t p s.stc % 2 ^ 64)

/-- After 1,000 SYS cycles ETH_PPS_e goes low (R449). -/
def State.ppsEnd (s : State) (e : Nat) : State :=
  match (s.mac e).pps with
  | none => s
  | some t => (s.until (5 * t)).setMac e { s.mac e with pps := none }

/-- A write to a ring set-up register of MAC `e`. -/
def State.ethCfgWrite (s : State) (e : Nat) (rx : Bool) (w : RegW) : State :=
  let r := ethRing e rx
  let was := s.flag r.enable
  match s.ringCfg r w with
  | none => s
  | some t =>
    let t := if t.flag r.enable && !was then t.setFld (ethHalted e rx) 0 else t
    if w.one r.cancel && !s.flag r.cancel then t.ethCancel e rx else t

/-- A ring of MAC `e` stops between frames (R532). -/
def State.ethStop (s : State) (e : Nat) (rx : Bool) : State :=
  if (s.ringSt (ethRing e rx)).stopping then s.ringStopped (ethRing e rx) else s

/-- A write to ETH_CTRL. -/
def State.ethCtrlWrite (s : State) (e : Nat) (w : RegW) : State :=
  let was := s.flag (F.ETH_CTRL_EN e)
  let s := s.plainWrite (if was then w.without 0xE else w)
  if was && !s.flag (F.ETH_CTRL_EN e) then s.setFld (F.ETH_CTRL_LINK_UP e) 0 else s

/-- A write to ETH_MDIO (R450). -/
def State.mdioWrite (s : State) (e : Nat) (w : RegW) : State :=
  if e = 1 then s
  else
    let busy := s.flag (F.ETH_MDIO_GO e)
    let s := s.plainWrite w
    if w.one (F.ETH_MDIO_GO e) && !busy then
      let s := s.setFld (F.ETH_MDIO_GO e) 1
      let v := s.reg (R.ETH_MDIO e)
      (s.setMac e { s.mac e with mdio := v }).emit
        ⟨.mdio, [bits v 30 1, bits v 28 2, bits v 23 5, bits v 18 5, bits v 0 16], []⟩
    else s

/-- The data that MDIO reads when a target sends `d`: ones while pin 243 does not carry it (R336), zeros while its supply is
bad (R339). -/
def State.mdioSees (s : State) (d : Nat) : Nat := if s.pinFunc 243 ≠ 8 then 0xFFFF else if s.pinPg 243 then d else 0

/-- The MDIO frame of MAC 0 ends with `d` on the line (R450). -/
def State.mdioDone (s : State) (d : Nat) : State :=
  if ¬ s.flag (F.ETH_MDIO_GO 0) then s
  else
    let v := (s.mac 0).mdio
    let d := s.mdioSees d
    let s := s.setFld (F.ETH_MDIO_GO 0) 0
    if (bit v 30 = true ∧ bits v 28 2 = 3) ∨ (bit v 30 = false ∧ bits v 28 2 = 2) then s.setFld (F.ETH_MDIO_DATA 0) d
    else s

/-- A write to a register of MAC `e`. -/
def ethWrite (s : State) (q : Req) (e : Nat) (w : RegW) : Acc :=
  let o := w.k % 0x10000
  if 0x100 ≤ o ∧ o < 0x140 then
    let rx := decide (0x120 ≤ o)
    let r := ethRing e rx
    if ¬ s.admits q (s.fld r.owner) (s.flag r.attr) then refAcc s q true (.sys (0x28 + e)) 0
    else if w.k = r.baseKey then okAcc (s.ringBase r w)
    else if w.k = r.cfgKey then okAcc (s.ethCfgWrite e rx w)
    else if w.k = r.dbKey then s.doorbell q r (w.newFld (s.reg w.k) r.prod)
    else okAcc (s.plainWrite w)
  else if ¬ q.s then refAcc s q true (.sys (0x28 + e)) 0
  else if w.row.key = R.ETH_CTRL 0 then okAcc (s.ethCtrlWrite e w)
  else if w.row.key = R.ETH_MDIO 0 then okAcc (s.mdioWrite e w)
  else if w.row.key = R.ETH_PPS_AT 0 ∨ w.row.key = R.ETH_PPS_CFG 0 then
    okAcc ((s.plainWrite w).setMac e { s.mac e with once := false })
  else if w.row.key = R.ETH_RULE_CFG 0 0 then
    let r := (o - 0x200) / 0x20
    let was := s.flag (F.ETH_RULE_CFG_EN e r)
    let s := s.plainWrite w
    let x := s.mac e
    okAcc (if s.flag (F.ETH_RULE_CFG_EN e r) && !was then
      s.setMac e { x with counts := AMap.erase x.counts (32 * e + r) } else s)
  else okAcc (s.plainWrite w)

/-! ### Boot flash (R451, R452) -/

/-- The bytes of XSPI_DATA. -/
def State.xspiData (s : State) (n : Nat) : List Byte :=
  ((List.range 64).flatMap (fun i => toBytes 4 (s.reg (R.XSPI_DATA i)))).take n

/-- Bytes put into XSPI_DATA from byte 0 on. -/
def State.setXspiData (s : State) (bs : List Byte) : State :=
  let all := bs.take 256 ++ (s.xspiData 256).drop bs.length
  (List.range 64).foldl (fun (s : State) i => s.setReg (R.XSPI_DATA i) (leAt all (4 * i) 4)) s

/-- GO of XSPI_CMD. -/
def State.xspiGo (s : State) : State :=
  if s.fld F.XSPI_CMD_ADDR_BYTES = 3 then s
  else
    let n := min 256 (s.fld F.XSPI_CMD_LEN)
    let wr := s.flag F.XSPI_CMD_WRITE
    (s.setFld F.XSPI_CMD_GO 1).emit ⟨.xspi, [s.fld F.XSPI_CMD_OPCODE, s.fld F.XSPI_CMD_ADDR_BYTES, s.reg R.XSPI_ADDR,
      s.fld F.XSPI_CMD_DUMMY, n, b2n wr, s.fld F.XSPI_CFG_OCTAL], if wr then s.xspiData n else []⟩

/-- The flash command ends: the bytes read, and whether the data strobe stopped (R452). -/
def State.xspiDone (s : State) (bs : List Byte) (timeout : Bool) : State :=
  if ¬ s.flag F.XSPI_CMD_GO then s
  else
    let n := min 256 (s.fld F.XSPI_CMD_LEN)
    let read := !s.flag F.XSPI_CMD_WRITE
    let late := timeout && read && s.flag F.XSPI_CFG_OCTAL
    let s := s.setFld F.XSPI_CMD_GO 0
    let s := if read then s.setXspiData (if late then bs.take n else padTo n bs) else s
    if late then s.setFld F.XSPI_STATUS_TIMEOUT 1 else s

/-- A write to an XSPI register. -/
def xspiWrite (s : State) (q : Req) (w : RegW) : Acc :=
  if ¬ q.s then refAcc s q true (.sys 0x2C) 0
  else if w.k = R.XSPI_STATUS then okAcc (s.plainWrite w)
  else if s.flag F.XSPI_CMD_GO then okAcc s
  else if w.k = R.XSPI_CMD then
    let s := s.plainWrite w
    okAcc (if w.one F.XSPI_CMD_GO then s.xspiGo else s)
  else okAcc (s.plainWrite w)

/-! ### Board management I2C (R453, R454) -/

/-- The level of SDA or SCL that BMI controller `n` sees when the bus carries `v`; `k` is 0 for SCL, 1 for SDA (R336,
R339). -/
def State.bmiSees (s : State) (n k : Nat) (v : Bool) : Bool :=
  let p := 224 + 2 * n + k
  if s.pinFunc p ≠ 5 then true else s.pinPg p && v

/-- How a transaction ends as BMI controller `n` sees it when the bus ends it as `e` (R336, R339, R454): a line that a bad
supply holds at 0 ends it, and no target acknowledges on a line that the pins do not carry. -/
def State.bmiEndSeen (s : State) (n : Nat) (e : BmiEnd) : BmiEnd :=
  if ¬ s.bmiSees n 0 true then .stretch 0
  else if ¬ s.bmiSees n 1 true then .arbLost 0
  else if (s.pinFunc (224 + 2 * n) = 5 ∧ s.pinFunc (225 + 2 * n) = 5) ∨
      (s.fld (F.BMI_CMD_WLEN n) = 0 ∧ s.fld (F.BMI_CMD_RLEN n) = 0) then e
  else .nackAddr

/-- GO of BMI controller `n`; with SDA low it recovers the bus first. -/
def State.bmiGo (s : State) (n : Nat) (sdaLow : Bool) : State :=
  if ¬ s.flag (F.BMI_CFG_EN n) then s
  else
    let low := !s.bmiSees n 1 (!sdaLow)
    let s := if low then s.setFld (F.BMI_STATUS_RECOVERED n) 1 else s
    (s.setFld (F.BMI_CMD_GO n) 1).emit ⟨.bmi, [n, s.fld (F.BMI_CMD_ADDR n), s.fld (F.BMI_CMD_WLEN n),
      s.fld (F.BMI_CMD_RLEN n)], ((List.range 4).flatMap (fun k => toBytes 4 (s.reg (R.BMI_DATA n k)))).take
        (s.fld (F.BMI_CMD_WLEN n))⟩

/-- The transaction of BMI controller `n` ends. -/
def State.bmiDone (s : State) (n : Nat) (e : BmiEnd) : State :=
  if ¬ s.flag (F.BMI_CMD_GO n) then s
  else
    let s := s.setFld (F.BMI_CMD_GO n) 0
    let wlen := s.fld (F.BMI_CMD_WLEN n)
    match s.bmiEndSeen n e with
    | .stop data =>
      let old := (List.range 4).flatMap (fun k => toBytes 4 (s.reg (R.BMI_DATA n k)))
      let got := padTo (s.fld (F.BMI_CMD_RLEN n)) data
      let all := got ++ old.drop got.length
      ((List.range 4).foldl (fun (s : State) k => s.setReg (R.BMI_DATA n k) (leAt all (4 * k) 4)) s).setFld
        (F.BMI_STATUS_ACKED n) wlen
    | .nackAddr => (s.setFld (F.BMI_STATUS_NACK_ADDR n) 1).setFld (F.BMI_STATUS_ACKED n) 0
    | .nackData k => (s.setFld (F.BMI_STATUS_NACK_DATA n) 1).setFld (F.BMI_STATUS_ACKED n) (min k wlen)
    | .stretch k => (s.setFld (F.BMI_STATUS_TIMEOUT n) 1).setFld (F.BMI_STATUS_ACKED n) (min k wlen)
    | .arbLost k => (s.setFld (F.BMI_STATUS_ARB_LOST n) 1).setFld (F.BMI_STATUS_ACKED n) (min k wlen)

/-- A write to a BMI register; `sdaLow` is the level of SDA when GO is written. -/
def bmiWrite (s : State) (q : Req) (w : RegW) (sdaLow : Bool := false) : Acc :=
  if ¬ q.s then refAcc s q true (.sys 0x2D) 0
  else
    let n := (w.k - R.BMI_CFG 0) / 0x100
    let go := s.flag (F.BMI_CMD_GO n)
    if w.row.key = R.BMI_CMD 0 then
      let v := w.merged (s.reg w.k)
      if go || Nat.ble 17 (bits v 16 5) || Nat.ble 17 (bits v 24 5) then okAcc s
      else
        let s := s.plainWrite w
        okAcc (if w.one (F.BMI_CMD_GO n) then s.bmiGo n sdaLow else s)
    else if w.row.key = R.BMI_DATA 0 0 then okAcc (if go then s else s.plainWrite w)
    else okAcc (s.plainWrite w)

/-! ### Debug UART (R455, R478) -/

/-- A byte is pushed to the transmit FIFO. -/
def State.uartPush (s : State) (b : Nat) : State :=
  if ¬ s.uartOpen then s
  else if 16 ≤ s.ports.tx.length then s.setFld F.DBGU_STATUS_TX_OVER 1
  else { s with ports := { s.ports with tx := s.ports.tx ++ [b] } }

/-- A byte leaves the transmit FIFO (R455): not while FLOW holds it with DBG_CTS_N high. -/
def State.uartSent (s : State) : State :=
  let cts := s.pinSig 231 6 true
  if ¬ s.flag F.DBGU_CFG_EN ∨ (s.flag F.DBGU_CFG_FLOW && cts) = true then s
  else
    match s.ports.tx with
    | [] => s
    | b :: r =>
      let s := { s with ports := { s.ports with tx := r } }
      if s.uartOpen then s.emit ⟨.uartByte, [b], []⟩ else s

/-- A byte arrives on DBG_RXD, with or without its stop bit. -/
def State.uartReceive (s : State) (b : Nat) (noStop : Bool) : State :=
  if ¬ s.flag F.DBGU_CFG_EN ∨ ¬ s.uartOpen ∨ ¬ s.pinTo 229 6 then s
  else if 16 ≤ s.ports.rx.length then s.setFld F.DBGU_STATUS_RX_OVER 1
  else { s with ports := { s.ports with rx := s.ports.rx ++ [b % 256 + 256 * b2n noStop] } }

/-- A read of DBGU_DATA pops a received byte: FRAME_ERR, VALID and DATA. -/
def State.uartPop (s : State) : Nat × State :=
  match s.ports.rx with
  | [] => (0, s)
  | b :: r => (bits b 8 1 * 512 + 256 + b % 256, { s with ports := { s.ports with rx := r } })

/-- A write to a DBGU register. A write of DBGU_DATA that does not cover its low byte pushes nothing. -/
def dbguWrite (s : State) (q : Req) (w : RegW) : Acc :=
  if ¬ q.s then refAcc s q true (.sys 0x2E) 0
  else if w.k = R.DBGU_DATA then okAcc (if bit w.m 0 then s.uartPush (w.v % 256) else s)
  else okAcc (s.plainWrite w)

/-- What a read of a DBGU register returns. R531 does not say how a narrow access acts on DBGU_DATA: in this model every
read of it pops a byte of the receive FIFO, whichever bytes it covers (DESIGN CHOICE, log entry 37). -/
def dbguRead (s : State) (k : Nat) : Nat × State :=
  if k = R.DBGU_DATA then s.uartPop
  else if k = R.DBGU_STATUS then
    (putBits (putBits (s.reg k) 8 5 s.ports.rx.length) 0 5 s.ports.tx.length, s)
  else (s.reg k, s)

end Sys2Proof.Machine
end

