-- ==== Sys2Proof/Machine/Security.lean ====
section
/-! DEFINITION. The security controller (chapter 20): OTP and its burns, images and records, commands, the boot procedure,
tamper, and the debug port. -/

namespace Sys2Proof.Machine

/-! ### OTP (R458, R459) -/

/-- The state of key slot `k`: 0 EMPTY, 1 VALID, 2 REVOKED. -/
def State.slotState (s : State) (k : Nat) : Nat :=
  match bits (s.reg R.OTP_SLOT_STATE) (2 * k) 2 with
  | 0 => 0
  | 1 => 1
  | _ => 2

/-- The active slot. -/
def State.activeSlot (s : State) : Option Nat := (List.range 16).find? (fun k => decide (s.slotState k = 1))

/-- SLOT_HASH of slot `k`. -/
def State.slotHash (s : State) (k : Nat) : List Byte :=
  (List.range 16).flatMap (fun w => toBytes 4 (s.reg (R.OTP_SLOT_HASH k w)))

/-- DEVICE_ID. -/
def State.deviceId (s : State) : List Byte := (List.range 4).flatMap (fun n => toBytes 4 (s.reg (R.OTP_DEVICE_ID n)))

/-- The version floor. -/
def State.svnFloor (s : State) : Nat := popc 32 (s.reg R.OTP_SVN_LO) + popc 32 (s.reg R.OTP_SVN_HI)

/-- A free mask of `n` bits: which bits a failed burn has set. -/
def freeMask (c : Nat) : Nat → Nat
  | 0 => 0
  | n + 1 => (Config.freeValue c).toNat % 2 ^ 32 + 2 ^ 32 * freeMask (c + 1) n

/-- A burn of the registers `l`, each with the value it is to read: every one reads back, or the burn fails (R459). A
burn that the chip fails (`bad`) has set some of its bits. -/
def State.burn (s : State) (l : List (Nat × Nat)) (bad : Bool) : Bool × State :=
  if bad then
    let r := l.foldl (fun (s : State) (e : Nat × Nat) =>
      (s.skipFree).setReg e.1 (Nat.lor (s.reg e.1) (Nat.land e.2 (freeMask s.free 1)))) s
    (false, r)
  else
    let r := l.foldl (fun (s : State) (e : Nat × Nat) => s.setReg e.1 (Nat.lor (s.reg e.1) e.2)) s
    (l.all (fun e => decide (Nat.lor (s.reg e.1) e.2 = e.2)), r)

/-- The burn of a key hash into slot `k`. -/
def hashBurn (k : Nat) (h : List Byte) : List (Nat × Nat) :=
  (List.range 16).map (fun w => (R.OTP_SLOT_HASH k w, leAt h (4 * w) 4))

/-- The burn of slot `k`'s state to coding `v`. -/
def State.slotBurn (s : State) (k v : Nat) : List (Nat × Nat) :=
  [(R.OTP_SLOT_STATE, putBits (s.reg R.OTP_SLOT_STATE) (2 * k) 2 v)]

/-- Burns in order; the one with index `fail` fails, and the first that fails ends them. -/
def State.burns (s : State) (fail : Option Nat) : Nat → List (State → List (Nat × Nat)) → Bool × State
  | _, [] => (true, s)
  | i, f :: r =>
    let x := s.burn (f s) (fail == some i)
    if x.1 then State.burns x.2 fail (i + 1) r else x

/-! ### Nadir (R307) -/

/-- The wipe starts: reads return zero from now on, and nothing of the old contents remains. -/
def State.wipe (s : State) : State :=
  let s := s.zero vaultBase vaultSize
  { s.setFld F.SEC_STATUS_WIPING 1 with ecc := s.ecc.dropKeys (fun k => decide (vaultBase ≤ k) && decide (k < vaultBase + vaultSize)) }

/-- LC is burned to coding `v`; then the wipe starts (R468). -/
def State.burnLc (s : State) (v : Nat) (bad : Bool) : Bool × State :=
  let x := s.burn [(R.OTP_LC, v)] bad
  if x.1 then (true, x.2.wipe) else x

/-! ### Signatures (R457) -/

/-- Whether the bytes are the encoding of a point of the curve. -/
def keyOk (k : List Byte) : Bool :=
  decide (k.head? = some (4 : Byte)) && onP521 (ofBytesBE ((k.drop 1).take 66)) (ofBytesBE ((k.drop 67).take 66))

/-- Whether `sig` is a valid signature over `msg` under `key`. -/
def sigOk (key sig msg : List Byte) : Bool :=
  keyOk key &&
  ecdsaVerify (ofBytesBE ((key.drop 1).take 66)) (ofBytesBE ((key.drop 67).take 66)) (ofBytesBE (sig.take 66))
    (ofBytesBE ((sig.drop 66).take 66)) (ofBytesBE (sha512 msg))

/-- A field of a structure. -/
def cut (b : List Byte) (o n : Nat) : List Byte := (b.drop o).take n

/-- The x and y of k × G. -/
def baseTimes (k : Nat) : Nat × Nat :=
  let q := jMul 521 k ⟨p521G.1, p521G.2, 1⟩
  let zi := invMod q.z p521
  (q.x * (zi * zi % p521) % p521, q.y * (zi * zi % p521 * zi % p521) % p521)

/-- The signature of `msg` with scalar `d` and per-message number `k`: r, then s. -/
def ecdsaSign (d k : Nat) (msg : List Byte) : List Byte :=
  let r := (baseTimes k).1 % p521n
  let v := invMod k p521n * (ofBytesBE (sha512 msg) + r * d) % p521n
  toBytesBE 66 r ++ toBytesBE 66 v

/-- A random scalar from 1 to n − 1. -/
def freeScalar (c : Nat) : Nat := freeMask c 17 % (p521n - 1) + 1

/-! ### Images (R462 to R464) -/

/-- The requester of the security controller (R460). -/
def State.secReq (s : State) : Req := s.engine 15 true

/-- The SHA-512 value M (R464). -/
def Sec.measure (x : Sec) : List Byte := if x.m.isEmpty then List.replicate 64 0 else x.m

/-- The pool's direct window holds `n` bytes at `a`. -/
def inPool (a n : Nat) : Bool := Nat.ble poolBase a && Nat.ble (a + n) (poolBase + poolSize)

/-- Checks 1 to 6 of R463 on header `h`, 3 to 6 skipped when `blank`: the status of the first that fails. -/
def State.headerCheck (s : State) (h : List Byte) (blank : Bool) : Option Nat :=
  let size := leAt h 0x18 4
  let stack := leAt h 0x24 4
  let load := leAt h 0x08 8
  let stackA := leAt h 0x28 8
  let key := cut h 0x80 133
  if leAt h 0 4 ≠ 0x4D494453 ∨ leAt h 4 2 ≠ 1 then some 1
  else if size % 64 ≠ 0 ∨ size < 64 ∨ 0x7FFE00 < size ∨ stack % 64 ≠ 0 ∨ load % 64 ≠ 0 ∨ stackA % 64 ≠ 0 ∨
      leAt h 0x10 8 % 4 ≠ 0 ∨ inPool load size = false ∨ (stack ≠ 0 ∧ inPool stackA stack = false) then some 8
  else if blank then none
  else
    match s.activeSlot with
    | none => some 2
    | some k =>
      if leAt h 0x20 4 ≠ k then some 2
      else if sha512 key ≠ s.slotHash k then some 3
      else if leAt h 0x1C 4 < s.svnFloor then some 4
      else if sigOk key (cut h 0x108 132) (h.take 0x108) then none
      else some 6

/-- A body of `n` 64-byte pieces read from `a`: its bytes, or none where a read failed. -/
def State.readBody (s : State) (q : Req) (a : Nat) : Nat → Option (List Byte) × State
  | 0 => (some [], s)
  | n + 1 =>
    let r := s.memRead q a 64
    if r.st = .ok then
      let x := State.readBody r.s q (a + 64) n
      (x.1.map (fun b => r.data ++ b), x.2)
    else (none, r.s)

/-- A body written from `a` on in 64-byte pieces; false where a write failed. -/
def State.writeBody (s : State) (q : Req) (a : Nat) : Nat → List Byte → Bool × State
  | 0, _ => (true, s)
  | n + 1, bs =>
    let r := s.memWrite q a (bs.take 64)
    if r.st = .ok then State.writeBody r.s q (a + 64) n (bs.drop 64) else (false, r.s)

/-- The image with header `h` has passed: the measurement and the SVN (R464, R472). -/
def State.measured (s : State) (h : List Byte) : State :=
  { s with sec := { s.sec with m := sha512 (s.sec.measure ++ sha512 (h.take 0x18C)), count := s.sec.count + 1,
                               lastSvn := some (leAt h 0x1C 4) } }

/-- VERIFY of the image whose header lies at `a` (R464): the status. -/
def State.verify (s : State) (a : Nat) : Nat × State :=
  let r := s.memRead s.secReq a 512
  if r.st ≠ .ok then (7, r.s)
  else
    match r.s.headerCheck r.data (decide (s.lifeCycle = 0)) with
    | some k => (k, r.s)
    | none =>
      let b := r.s.readBody s.secReq (leAt r.data 0x08 8) (leAt r.data 0x18 4 / 64)
      match b.1 with
      | none => (7, b.2)
      | some body => if sha512 body = cut r.data 0x40 64 then (0, b.2.measured r.data) else (5, b.2)

/-! ### Authorisation records (R470) -/

/-- The 32 bytes of the present challenge. -/
def State.challenge (s : State) : List Byte := (List.range 8).flatMap (fun n => toBytes 4 (s.reg (R.SEC_CHALLENGE n)))

/-- Fresh random bytes in the challenge registers (R479). -/
def State.newChallenge (s : State) : State :=
  ((List.range 8).foldl (fun (t : State) n =>
    t.setReg (R.SEC_CHALLENGE n) ((Config.freeValue (s.free + n)).toNat % 2 ^ 32)) s).skipFree 8

/-- The checks of a record `b` of KIND `kind` (1 to 3): 0, or the status of the first that fails. -/
def State.recordCheck (s : State) (b : List Byte) (kind : Nat) : Nat :=
  let key := cut b 0xC8 133
  let id := cut b 0x08 16
  let zero := id.all (· == (0 : Byte))
  let want := if kind = 3 then s.challenge else List.replicate 32 0
  if leAt b 0 4 ≠ 0x55414453 ∨ leAt b 4 2 ≠ kind ∨ leAt b 0x18 4 / 8 ≠ 0 then 1
  else
    match s.activeSlot with
    | none => 2
    | some k =>
      if leAt b 6 2 ≠ k then 2
      else if sha512 key ≠ s.slotHash k then 3
      else if sigOk key (cut b 0x150 132) (b.take 0x150) = false then 6
      else if (id ≠ s.deviceId ∧ ¬(kind = 1 ∧ zero = true)) ∨ cut b 0x20 32 ≠ want then 0x0A
      else 0

/-- The record at `a`, read by the controller. -/
def State.readRecord (s : State) (a : Nat) : Acc := s.memRead s.secReq a 512

/-! ### Commands (R460 to R474) -/

/-- The life-cycle states in which operation `op` runs; none for an unknown operation. -/
def opStates : Nat → Option (List Nat)
  | 1 => some [0, 1, 2, 3]
  | 2 => some [1, 2]
  | 3 => some [1, 2]
  | 4 => some [0]
  | 5 => some [1]
  | 6 => some [2]
  | 7 => some [0, 1, 2, 3, 4]
  | 8 => some [2]
  | 9 => some [1, 2]
  | _ => none

/-- A write of 1 to GO (R460). A DEBUG_UNLOCK that does not pass replaces the challenge all the same (R479). -/
def State.secGo (s : State) : State :=
  if s.flag F.SEC_CMD_BUSY then s.setFld F.SEC_CMD_CMD_ERR 1
  else
    let op := s.fld F.SEC_CMD_OP
    let lc := s.lifeCycle
    let done : Option Nat := match opStates op with
      | none => some (if lc = 4 then 9 else 1)
      | some l => if l.contains lc then none else some 9
    let s := if op = 8 ∧ done.isSome then s.newChallenge else s
    { (s.setFld F.SEC_CMD_BUSY 1).setFld F.SEC_CMD_GO 1 with
      sec := { s.sec with cmd := some (op, s.fld F.SEC_ARG_ADDR * 64), done := done } }

/-- The work of the running command `op`, when its turn is not over: `f` gives its status from the argument address. Once
the device is SCRAPPED every command but CHALLENGE ends with status 0x09 (R473), DEBUG_UNLOCK with a new challenge (R479).
-/
def State.secWork (s : State) (op : Nat) (f : State → Nat → Nat × State) : State :=
  match s.sec.cmd, s.sec.done with
  | some (o, a), none =>
    if o = op ∧ o ≠ 7 ∧ s.lifeCycle = 4 then
      { (if o = 8 then s.newChallenge else s) with sec := { s.sec with done := some 9 } }
    else if o = op then
      let r := f s a
      { r.2 with sec := { r.2.sec with done := some r.1 } }
    else s
  | _, _ => s

/-- The command ends: RESULT holds its status (R460). -/
def State.secEnd (s : State) : State :=
  match s.sec.cmd, s.sec.done with
  | some _, some k =>
    { ((s.setFld F.SEC_CMD_BUSY 0).setFld F.SEC_CMD_GO 0).setFld F.SEC_CMD_RESULT k with
      sec := { s.sec with cmd := none, done := none } }
  | _, _ => s

/-- The attestation report before its signature (R474). -/
def State.report (s : State) (nonce : List Byte) (d : Nat) : List Byte :=
  let flags := b2n (s.flag F.SEC_STATUS_DEBUG_OPEN) + 2 * b2n s.sec.tampered +
    4 * b2n (decide (s.fld F.SEC_BOOT_INFO_BOOTED = 2))
  let p := baseTimes d
  toBytes 4 0x54414453 ++ toBytes 2 1 ++ toBytes 1 s.lifeCycle ++ toBytes 1 (s.activeSlot.getD ((Config.freeValue (s.free + 34)).toNat % 256)) ++
  toBytes 4 s.svnFloor ++ toBytes 4 flags ++ s.deviceId ++ toBytes 8 s.stc ++ toBytes 8 s.sec.count ++ nonce ++
  s.sec.measure ++ (4 : Byte) :: toBytesBE 66 p.1 ++ toBytesBE 66 p.2 ++ List.replicate 3 0

/-- ATTEST. -/
def State.attest (s : State) (a : Nat) : Nat × State :=
  let r := s.memRead s.secReq (a + 0x30) 64
  if r.st ≠ .ok then (7, r.s)
  else
    let d := r.s.sec.identity.getD (freeScalar (r.s.free + 17))
    let rep := r.s.report r.data d
    let w := (r.s.skipFree 35).memWrite s.secReq a (padTo 512 (rep ++ ecdsaSign d (freeScalar r.s.free) rep))
    (if w.st = .ok then 0 else 7, w.s)

/-- REVOKE (R471). `fail` names the burn that fails. -/
def State.revoke (s : State) (a : Nat) (fail : Option Nat) : Nat × State :=
  let r := s.readRecord a
  if r.st ≠ .ok then (7, r.s)
  else
    match r.s.recordCheck r.data 1, s.activeSlot with
    | 0, some k =>
      let h := sha512 (cut r.data 0x40 133)
      if k = 15 then (0x0B, r.s)
      else
        let gone : State → List (Nat × Nat) := fun t => t.slotBurn k 3
        if s.slotState (k + 1) = 0 then
          let x := r.s.burns fail 0 [fun _ => hashBurn (k + 1) h, fun t => t.slotBurn (k + 1) 1, gone]
          (if x.1 then 0 else 0x0D, x.2)
        else if s.slotState (k + 1) = 1 ∧ s.slotHash (k + 1) = h then
          let x := r.s.burns fail 0 [gone]
          (if x.1 then 0 else 0x0D, x.2)
        else (0x0C, r.s)
    | k, _ => (k, r.s)

/-- PROVISION (R469). -/
def State.provision (s : State) (a : Nat) (fail : Option Nat) : Nat × State :=
  let r := s.readRecord a
  let key := cut r.data 0x40 133
  if r.st ≠ .ok then (7, r.s)
  else if leAt r.data 0 4 ≠ 0x55414453 ∨ leAt r.data 4 2 ≠ 4 then (1, r.s)
  else if keyOk key = false then (6, r.s)
  else if s.slotState 0 ≠ 0 ∧ s.slotHash 0 ≠ sha512 key then (0x0C, r.s)
  else
    let first := if s.slotState 0 ≠ 0 then (true, r.s)
      else r.s.burns fail 0 [fun _ => hashBurn 0 (sha512 key), fun t => t.slotBurn 0 1]
    if ¬ first.1 then (0x0D, first.2)
    else
      let t := first.2
      let v := freeScalar t.free
      let fits : Bool := decide (t.sec.idBits = 0) || decide (Nat.lor t.sec.idBits v = v)
      if t.sec.identity.isNone && (fail == some 2 || !fits) then
        let set := if fail == some 2 then Nat.land v (freeMask (t.free + 17) 17) else v
        (0x0D, { t.skipFree 34 with sec := { t.sec with idBits := Nat.lor t.sec.idBits set } })
      else
        let t := if t.sec.identity.isSome then t else
          { t.skipFree 17 with sec := { t.sec with identity := some v } }
        let x := t.burnLc 1 (fail == some 3)
        (if x.1 then 0 else 0x0D, x.2)

/-- TO_FIELD (R468). -/
def State.toField (s : State) (fail : Option Nat) : Nat × State :=
  let x := s.burnLc 3 fail.isSome
  (if x.1 then 0 else 0x0D, x.2)

/-- TO_RETURN (R468). -/
def State.toReturn (s : State) (a : Nat) (fail : Option Nat) : Nat × State :=
  let r := s.readRecord a
  if r.st ≠ .ok then (7, r.s)
  else
    match r.s.recordCheck r.data 2 with
    | 0 =>
      let x := r.s.burnLc 7 fail.isSome
      (if x.1 then 0 else 0x0D, x.2)
    | k => (k, r.s)

/-- DEBUG_UNLOCK (R479). -/
def State.debugUnlock (s : State) (a : Nat) : Nat × State :=
  let r := s.readRecord a
  if r.st ≠ .ok then (7, r.s.newChallenge)
  else
    match r.s.recordCheck r.data 3 with
    | 0 =>
      let s := (r.s.newChallenge.wipe).setFld F.SEC_STATUS_DEBUG_OPEN 1
      (0, s.setFld F.SEC_DEBUG_SCOPE (Nat.lor (s.fld F.SEC_DEBUG_SCOPE) (leAt r.data 0x18 4 % 8)))
    | k => (k, r.s.newChallenge)

/-- SVN_COMMIT (R472). -/
def State.svnCommit (s : State) (fail : Option Nat) : Nat × State :=
  match s.sec.lastSvn with
  | none => (8, s)
  | some v =>
    if v ≤ s.svnFloor then (0, s)
    else
      let m := 2 ^ min v 64 - 1
      let x := s.burn [(R.OTP_SVN_LO, m % 2 ^ 32), (R.OTP_SVN_HI, m / 2 ^ 32)] fail.isSome
      (if x.1 then 0 else 0x0D, x.2)

/-- A write to KEY of SEC_SCRAP (R342, R473). -/
def State.scrapKey (s : State) (w : RegW) (bad : Bool) : State :=
  if Nat.land w.m 0xFFFF = 0 then s
  else
    let key := if Nat.land w.m 0xFFFF = 0xFFFF then bits w.v 0 16 else 0
    let was := s.sec.scrap
    let s := { s with sec := { s.sec with scrap := decide (key = 0x5C4A) } }
    if was && decide (key = 0xA3B5) then (s.burnLc 15 bad).2.wipe else s

/-! ### The boot procedure (R465 to R467) -/

/-- Owner code 0 with attribute S in an owner field of the register at `k` that holds 15. -/
def State.handOwner (s : State) (k lo attr : Nat) : State :=
  if s.blockOn (blockOf k) && decide (bits (s.reg k) lo 4 = 15) then
    s.setReg k (putBits (putBits (s.reg k) lo 4 0) attr 1 1)
  else s

/-- The owner registers of R466 beside banks and pins: key, place of the owner code, place of the attribute. -/
def ownerFields : List (Nat × Nat × Nat) :=
  ((List.range 256).map (fun c => (R.BRZ_CH_OWN c, 0, 4))) ++ ((List.range 256).map (fun t => (R.BRZ_TASK_CTL t, 0, 4))) ++
  ((List.range 32).map (fun c => (R.TIM_OWN c, 0, 4))) ++ ((List.range 16).map (fun g => (R.GST_GROUP_OWN g, 0, 4))) ++
  [(R.GAL_OWN, 0, 4), (R.ETH_RULE_OWN 0, 0, 4), (R.ETH_RULE_OWN 1, 0, 4), (R.TWD_ERR_CFG, 12, 11),
   (R.HSE_CTS_ACCESS, 0, 4)] ++
  ((List.range 64).map (fun q => (R.LUL_Q_CFG q, 12, 11))) ++ allRings.map (fun r => (r.cfgKey, 12, 11))

/-- The hand-over of R466. -/
def State.handOver (s : State) : State :=
  let s := (List.range 288).foldl (fun (s : State) b =>
    if s.fld (F.POOL_BANK_STATE_STATE b) = 3 then s else s.handOwner (R.POOL_BANK_OWN b) 0 4) s
  let s := (List.range 256).foldl (fun (s : State) p =>
    if s.flag (F.GPIO_PIN_LOCK_LOCKED p) then s else s.handOwner (R.GPIO_PIN_OWN p) 0 4) s
  ownerFields.foldl (fun (s : State) (e : Nat × Nat × Nat) => s.handOwner e.1 e.2.1 e.2.2) s

/-- Thread 0 starts on the image with header `h` (R467). -/
def State.bootThread (s : State) (h : List Byte) : State :=
  let size := leAt h 0x18 4
  let stack := leAt h 0x24 4
  ((s.setAll [(R.CORE_TH_PC 0, leAt h 0x10 8), (R.CORE_TH_SP 0, stack), (R.CORE_TH_SG0_B 0, leAt h 0x08 8),
    (R.CORE_TH_SG0_L 0, size + 2 ^ 48 + 2 ^ 50), (R.CORE_TH_SG7_B 0, leAt h 0x28 8),
    (R.CORE_TH_SG7_L 0, stack + 2 ^ 48 + 2 ^ 49)]).setFld (F.CORE_TH_CTRL_SATTR 0) 1).threadStart 0

/-- The banks of `n` bytes at pool address `a` are on. -/
def State.poolOn (s : State) (a n : Nat) : Bool :=
  (List.range ((a - poolBase + n - 1) / bankSize + 1 - (a - poolBase) / bankSize)).all (fun i =>
    s.bankOn ((a - poolBase) / bankSize + i))

/-- Flash command of the boot procedure: opcode, address bytes, address, dummy cycles, and the bytes written, or else the
length read. -/
def State.flashCmd (s : State) (op ab a dummy n : Nat) (wr : List Byte := []) (octal : Bool := false) : State :=
  s.emit ⟨.xspi, [op, ab, a, dummy, n, b2n !wr.isEmpty, b2n octal], wr⟩

/-- One image: `img` is what the flash holds at offset `o`. Status 0 is a start. -/
def State.bootImage (s : State) (o : Nat) (img : List Byte) : Nat × State :=
  let h := padTo 512 img
  let s := s.flashCmd 0x13 4 o 0 512
  match s.headerCheck h (decide (s.sec.bootLc = 0)) with
  | some k => (k, s)
  | none =>
    let size := leAt h 0x18 4
    let s := if bit (leAt h 6 2) 0 then
        let s := (((s.flashCmd 0x06 0 0 0 0).flashCmd (leAt h 0x30 1) (leAt h 0x31 1) (leAt h 0x32 4) 0 1 (cut h 0x36 1)).setFld
          F.XSPI_CFG_OCTAL 1).setFld F.XSPI_CFG_DIV 0
        s.skipFree.flashCmd (s.freeVal % 256) 4 (o + 512) (leAt h 0x37 1) size [] true
      else s.flashCmd 0x13 4 (o + 512) 0 size
    let body := padTo size (img.drop 512)
    let w := s.writeBody s.secReq (leAt h 0x08 8) (size / 64) body
    let code := if ¬ w.1 then 7 else if sha512 body = cut h 0x40 64 then 0 else 5
    if code = 0 then (0, ((w.2.measured h).handOver).bootThread h)
    else (code, (w.2.setFld F.XSPI_CFG_OCTAL 0).setFld F.XSPI_CFG_DIV 0x1E)

/-- The banks that image `img` is copied into and keeps its stack in are on, if its header passes. -/
def State.bootWaits (s : State) (img : List Byte) : Bool :=
  let h := padTo 512 img
  match s.headerCheck h (decide (s.sec.bootLc = 0)) with
  | some _ => false
  | none => !(s.poolOn (leAt h 0x08 8) (leAt h 0x18 4) &&
      (decide (leAt h 0x24 4 = 0) || s.poolOn (leAt h 0x28 8) (leAt h 0x24 4)))

/-- The boot procedure, with what the flash holds as images A and B. It waits for SECURE, the PLLs, core 0 and the banks
it copies into. -/
def State.bootProcedure (s : State) (a b : List Byte) : State :=
  if s.sec.boot = false ∨ s.domOn 149 = false ∨ s.flag F.CLK_STATUS_FAB_LOCKED = false then s
  else if s.sec.bootLc = 4 then { s with sec := { s.sec with boot := false } }
  else if s.domOn 0 = false ∨ s.domOn 32 = false ∨ s.bootWaits a = true then s
  else
    let x := { s with sec := { s.sec with boot := false } }.bootImage 0 a
    if x.1 = 0 then x.2.setFld F.SEC_BOOT_INFO_BOOTED 1
    else if s.bootWaits b then s
    else
      let y := (x.2.setFld F.SEC_BOOT_INFO_A_CODE x.1).bootImage 0x800000 b
      if y.1 = 0 then y.2.setFld F.SEC_BOOT_INFO_BOOTED 2 else y.2.setFld F.SEC_BOOT_INFO_B_CODE y.1

/-! ### Tamper (R475 to R477) -/

/-- AON time: cycles of 32.768 kHz (R477). -/
def State.aonTime (s : State) : Nat := s.now * 32768 / 500000000 % 2 ^ 32

/-- A log entry. -/
def State.tamperLog (s : State) (cause : Nat) : State :=
  let n := s.fld F.PWR_TAMPER_LOG_CTL_COUNT
  let k := if n = 0 then 0 else (s.fld F.PWR_TAMPER_LOG_CTL_NEWEST + 1) % 8
  ((s.setReg (R.PWR_TAMPER_LOG k) (s.aonTime * 2 ^ 32 + cause)).setFld F.PWR_TAMPER_LOG_CTL_NEWEST k).setFld
    F.PWR_TAMPER_LOG_CTL_COUNT (satU 16 (n + 1))

/-- The sensors of `mask` that can raise an event: armed, a pin selecting function 9, and not already in their
condition. -/
def State.tamperMask (s : State) (mask : Nat) : Nat :=
  let m := Nat.land mask (s.fld F.PWR_TAMPER_CFG_ENABLE)
  let m := m - Nat.land m s.sec.conds
  let m := if s.pinFunc 254 = 9 then m else m - Nat.land m 8
  if s.pinFunc 255 = 9 then m else m - Nat.land m 16

/-- A tamper event ends a command in progress that it can end (R461). -/
def State.tamperCmd (s : State) : State :=
  match s.sec.cmd, s.sec.done with
  | some (op, _), none =>
    if op = 1 ∨ op = 2 ∨ op = 7 ∨ op = 8 then { s with sec := { s.sec with done := some 0x0E } }.secEnd else s
  | _, _ => s

/-- The sensors of `mask` come into their event conditions together (R476). While PORST_N is low only the AON island
acts. -/
def State.tamper (s : State) (mask : Nat) : State :=
  let m := s.tamperMask mask
  if m = 0 then s
  else
    let s := (s.tamperLog m)
    let s := { s with sec := { s.sec with conds := Nat.lor s.sec.conds m } }
    if s.held && !s.pwr.noRef then s
    else
      let s := (s.wipe.setFld F.SEC_STATUS_TAMPER 1).tamperCmd
      { s with sec := { s.sec with tampered := true, reset := s.sec.reset || s.flag F.PWR_TAMPER_CFG_RESET } }

/-- Sensor `k` leaves its event condition. -/
def State.tamperLeft (s : State) (k : Nat) : State :=
  { s with sec := { s.sec with conds := s.sec.conds - Nat.land s.sec.conds (2 ^ k) } }

/-- CLEAR empties the log. -/
def State.tamperClear (s : State) : State :=
  ((List.range 8).foldl (fun (s : State) k => s.setReg (R.PWR_TAMPER_LOG k) 0) s).setReg R.PWR_TAMPER_LOG_CTL 0

/-- A write to a tamper register. -/
def State.tamperWrite (s : State) (w : RegW) : State :=
  if w.k = R.PWR_TAMPER_CFG then
    let w' := if s.flag F.PWR_TAMPER_CFG_LOCK then w.without 0x71F else w
    s.plainWrite w'
  else if w.k = R.PWR_TAMPER_LOG_CTL ∧ (w.one F.PWR_TAMPER_LOG_CTL_CLEAR = true) then s.tamperClear
  else s

/-! ### SEC and OTP registers -/

/-- A write to a SEC register; a scrap burn may fail (`bad`). -/
def secWrite (s : State) (q : Req) (w : RegW) (bad : Bool := false) : Acc :=
  if ¬ q.s then refAcc s q true (.sys (blockOf w.k)) 0
  else if w.k = R.SEC_CMD then
    let s := s.plainWrite w
    okAcc (if w.one F.SEC_CMD_GO then s.secGo else s)
  else if w.k = R.SEC_SCRAP then okAcc (s.scrapKey w bad)
  else okAcc (s.plainWrite w)

/-- What a read of a SEC or OTP register returns. -/
def secRead (s : State) (q : Req) (k : Nat) : Nat × State :=
  if ¬ q.s then (0, s)
  else if k = R.SEC_STATUS then
    let v := putBits (putBits (s.reg k) 0 3 s.lifeCycle) 9 1 (b2n s.activeSlot.isNone)
    match s.activeSlot with
    | some n => (putBits v 4 4 n, s)
    | none => (putBits v 4 4 s.freeVal, s.skipFree)
  else (s.reg k, s)

/-! ### The debug TAP (R480 to R482) -/

/-- The debug TAP is open (R478). -/
def State.tapOpen (s : State) : Bool :=
  match s.lifeCycle with
  | 2 => bit (s.fld F.SEC_DEBUG_SCOPE) 0
  | 4 => false
  | _ => true

/-- Boundary scan is open (R478). -/
def State.scanOpen (s : State) : Bool := s.lifeCycle != 2 || bit (s.fld F.SEC_DEBUG_SCOPE) 1

/-- The instruction that code `c` selects (R480): 31 is BYPASS. -/
def State.tapSelect (s : State) (c : Nat) : Nat :=
  if c = 0 ∨ c = 1 then (if s.scanOpen then c else 31)
  else if c = 2 then 2
  else if c = 8 then (if s.tapOpen then 8 else 31)
  else 31

/-- IDCODE (R480). -/
def idcode : Nat := 1 + Config.maker.toNat * 2 + 0x9460 * 2 ^ 12 + Config.revision.toNat * 2 ^ 28

/-- The TAP takes instruction code `c`; IDCODE gives its data register. -/
def State.tapIr (s : State) (c : Nat) : State :=
  let i := s.tapSelect c
  ({ s with sec := { s.sec with ir := c } }).emit ⟨.tap, if i = 2 then [i, idcode] else [i], []⟩

/-- A write to a DBG register from the TAP (R482). -/
def State.dbgWrite (s : State) (w : RegW) : State :=
  if w.k = R.DBG_STATUS then s.plainWrite w
  else if s.flag F.DBG_CMD_GO then s
  else if w.k = R.DBG_CMD then
    let s := s.plainWrite w
    if w.one F.DBG_CMD_GO then s.setFld F.DBG_CMD_GO 1 else s
  else s.plainWrite w

/-- DBG_REG on Update-DR (R481): what the scan captured goes out first. -/
def State.dbgReg (s : State) (write : Bool) (off data : Nat) : State :=
  if s.tapSelect s.sec.ir ≠ 8 ∨ s.held = true then s
  else
    let s := s.emit ⟨.tap, [8, s.sec.dr], []⟩
    match regAt (0x3F0000 + off / 4 * 4) with
    | none => if write then s else { s with sec := { s.sec with dr := 0 } }
    | some (r, b) =>
      if write then s.dbgWrite ⟨r, b, 2 ^ 32 - 1, data⟩
      else { s with sec := { s.sec with dr := s.reg b } }

end Sys2Proof.Machine
end

