-- ==== Sys2Proof/Machine/Squall.lean ====
section
/-! DEFINITION. The Squall block engine (chapter 8): rings and command lists, the commands, and its registers. -/

namespace Sys2Proof.Machine

/-! ### Commands (R230 to R235) -/

/-- A command as its 64 bytes give it. -/
structure SqlCmd where
  op : Nat
  flags : Nat
  df : Nat
  sf : Nat
  w : Nat
  h : Nat
  db : Nat
  ds : Nat
  dp : Nat
  dx : Nat
  dy : Nat
  sb : Nat
  ss : Nat
  sp : Nat
  sx : Nat
  sy : Nat
  colour : Nat
  colour2 : Nat
  alpha : Nat

def sqlCmd (b : List Byte) : SqlCmd :=
  ⟨leAt b 0 1, leAt b 1 1, leAt b 2 1, leAt b 3 1, leAt b 4 2, leAt b 6 2, leAt b 8 8, leAt b 16 4, leAt b 20 4, leAt b 24 2,
   leAt b 26 2, leAt b 32 8, leAt b 40 4, leAt b 44 4, leAt b 48 2, leAt b 50 2, leAt b 52 4, leAt b 56 4, leAt b 60 1⟩

/-- The bytes of a pixel of format `f` (R231). -/
def sqlBytes (f : Nat) : Nat := if f = 0 then 1 else if f = 1 then 2 else 4

/-- A command is bad (R232). -/
def SqlCmd.bad (c : SqlCmd) : Bool :=
  let past (b z : Nat) : Bool := Nat.ble (2 ^ 44 + 1) (b + z)
  let rgb (f : Nat) : Bool := decide (1 ≤ f) && decide (f ≤ 3)
  past c.db c.ds ||
  (match c.op with
  | 0 => false
  | 1 => past c.sb c.ss || decide (c.sf ≠ c.df) || decide (3 < c.df)
  | 2 => decide (3 < c.df)
  | 3 => past c.sb c.ss || !(decide (c.sf = 1) || decide (c.sf = 2)) || !rgb c.df
  | 4 => past c.sb c.ss || decide (c.sf ≠ 4) || decide (3 < c.df)
  | 5 => past c.sb c.ss || !rgb c.sf || !rgb c.df
  | _ => true)

/-- The address of destination pixel (`i`, `j`). -/
def SqlCmd.dst (c : SqlCmd) (i j : Nat) : Nat := c.db + (c.dy + j) * c.dp + (c.dx + i) * sqlBytes c.df

/-- The address of source pixel (`i`, `j`), and its bit where the source is G1. -/
def SqlCmd.src (c : SqlCmd) (i j : Nat) : Nat :=
  c.sb + (c.sy + j) * c.sp + (if c.sf = 4 then (c.sx + i) / 8 else (c.sx + i) * sqlBytes c.sf)

/-- The rectangle has a byte at or above the top of its region (R233, U-07). -/
def SqlCmd.crosses (c : SqlCmd) : Bool :=
  Nat.ble (c.db + c.ds + 1) (c.dst (c.w - 1) (c.h - 1) + sqlBytes c.df) ||
  (decide (c.op ≠ 2) && Nat.ble (c.sb + c.ss + 1) (c.src (c.w - 1) (c.h - 1) + (if c.sf = 4 then 1 else sqlBytes c.sf)))

/-- A pixel unpacked to alpha and three 10-bit components (R234). -/
def sqlUnpack (f v : Nat) : Nat × Px :=
  match f with
  | 1 => (if bit v 15 then 255 else 0, ⟨exp5 (bits v 10 5), exp5 (bits v 5 5), exp5 (bits v 0 5)⟩)
  | 2 => (bits v 24 8, ⟨exp8 (bits v 16 8), exp8 (bits v 8 8), exp8 (bits v 0 8)⟩)
  | _ => (255, ⟨bits v 20 10, bits v 10 10, bits v 0 10⟩)

/-- A pixel packed (R234). -/
def sqlPack (f a : Nat) (c : Px) : Nat :=
  match f with
  | 1 => b2n (decide (128 ≤ a)) * 2 ^ 15 + c.r / 32 * 2 ^ 10 + c.g / 32 * 2 ^ 5 + c.b / 32
  | 2 => a * 2 ^ 24 + c.r / 4 * 2 ^ 16 + c.g / 4 * 2 ^ 8 + c.b / 4
  | _ => c.r * 2 ^ 20 + c.g * 2 ^ 10 + c.b

/-- BLEND of source value `sv` over destination value `dv` (R235). -/
def SqlCmd.blend (c : SqlCmd) (sv dv : Nat) : Nat :=
  let s := sqlUnpack c.sf sv
  let d := sqlUnpack c.df dv
  let a := if bit c.flags 2 then rnd255 (s.1 * c.alpha) else c.alpha
  let f (cs cd : Nat) : Nat := min (rnd255 (cs * a) + rnd255 (cd * (255 - a))) 1023
  sqlPack c.df (a + rnd255 (d.1 * (255 - a))) ⟨f s.2.r d.2.r, f s.2.g d.2.g, f s.2.b d.2.b⟩

/-- The destination value for source value `sv` and destination value `dv`. -/
def SqlCmd.pixel (c : SqlCmd) (sv dv : Nat) : Nat :=
  match c.op with
  | 1 => sv
  | 2 => c.colour
  | 3 => c.blend sv dv
  | 4 => if sv = 1 then c.colour else if bit c.flags 3 then dv else c.colour2
  | _ => let s := sqlUnpack c.sf sv; sqlPack c.df s.1 s.2

/-! ### Spans (R236) -/

/-- One pixel read: its value, or the address whose read failed. No byte at or above `top` is read (R233): such a pixel's
value counts for nothing. -/
def State.sqlRead (s : State) (q : Req) (top a n : Nat) : Except Nat Nat × State :=
  if top < a + n then (.ok 0, s)
  else
    let r := s.memRead q a n
    match r.st with
    | .ok => (.ok (ofBytes r.data), r.s)
    | _ => (.error a, r.s)

/-- The source value of pixel (`i`, `j`); FILL reads none. -/
def State.sqlSrc (s : State) (q : Req) (c : SqlCmd) (i j : Nat) : Except Nat Nat × State :=
  if c.op = 2 then (.ok 0, s)
  else if c.sf = 4 then
    let r := s.sqlRead q (c.sb + c.ss) (c.src i j) 1
    (r.1.map (fun v => bits v (7 - (c.sx + i) % 8) 1), r.2)
  else s.sqlRead q (c.sb + c.ss) (c.src i j) (sqlBytes c.sf)

/-- Whether the command reads its destination. -/
def SqlCmd.readsDst (c : SqlCmd) : Bool := decide (c.op = 3) || (decide (c.op = 4) && bit c.flags 3)

/-- The new values of the columns `l` of row `j`, every read made before any write. -/
def State.spanRead (s : State) (q : Req) (c : SqlCmd) (j : Nat) : List Nat → Except Nat (List (Nat × Nat)) × State
  | [] => (.ok [], s)
  | i :: rest =>
    let a := s.sqlSrc q c i j
    let b := if c.readsDst then a.2.sqlRead q (c.db + c.ds) (c.dst i j) (sqlBytes c.df) else (.ok 0, a.2)
    match a.1, b.1 with
    | .ok sv, .ok dv =>
      let r := b.2.spanRead q c j rest
      (r.1.map (fun l => (c.dst i j, c.pixel sv dv) :: l), r.2)
    | .error e, _ => (.error e, b.2)
    | .ok _, .error e => (.error e, b.2)

/-- The values written; the address of the last write that failed. Where the command crosses the top of a region (`open_`),
what it writes inside the destination region is free, and nothing is written beyond (R233, U-07). -/
def State.spanWrite (s : State) (r : Ring) (c : SqlCmd) (open_ : Bool) : List (Nat × Nat) → Option Nat × State
  | [] => (none, s)
  | (a, v) :: rest =>
    let n := sqlBytes c.df
    let k := if open_ then min n (c.db + c.ds - a) else n
    if k = 0 then s.spanWrite r c open_ rest
    else
      let b := if open_ then (freeBytes s.free k, s.skipFree k) else s.jobBytes r (toBytes n v)
      let w := b.2.memWrite (s.ringReq r) a b.1
      let t := w.s.spanWrite r c open_ rest
      (if t.1.isSome then t.1 else if w.st = .ok then none else some a, t.2)

/-- The columns of span `k`. -/
def SqlCmd.span (c : SqlCmd) (k : Nat) : List Nat :=
  if bit c.flags 0 then
    let lo := c.w - 32 * (k + 1)
    (List.range (c.w - 32 * k - lo)).map (lo + ·)
  else (List.range (min 32 (c.w - 32 * k))).map (32 * k + ·)

/-- The spans of a command in order, as (row, columns). -/
def SqlCmd.spans (c : SqlCmd) : List (Nat × List Nat) :=
  let rows := if bit c.flags 1 then (List.range c.h).reverse else List.range c.h
  rows.flatMap (fun j => (List.range (ceilDiv c.w 32)).map (fun k => (j, c.span k)))

/-- The spans carried out until one fails: the status and the failing address. -/
def State.sqlSpans (s : State) (r : Ring) (c : SqlCmd) : List (Nat × List Nat) → Option (Nat × Nat) × State
  | [] => (none, s)
  | (j, l) :: rest =>
    match s.spanRead (s.ringReq r) c j l with
    | (.error a, s) => (some (2, a), s)
    | (.ok ps, s) =>
      match s.spanWrite r c c.crosses ps with
      | (some a, s) => (some (3, a), s)
      | (none, s) => s.sqlSpans r c rest

/-- A command carried out: the status and address of its failure. -/
def State.sqlExec (s : State) (r : Ring) (c : SqlCmd) : Option (Nat × Nat) × State :=
  if c.op = 0 ∨ c.w = 0 ∨ c.h = 0 then (none, s)
  else s.sqlSpans r c c.spans

/-! ### Lists (R227, R228, R237 to R239) -/

/-- The list that runs on ring `n`. -/
def State.sqlList (s : State) (n : Nat) : Option SqlList := AMap.get s.sql.lists n none

def State.setSqlList (s : State) (n : Nat) (l : Option SqlList) : State :=
  { s with sql := { s.sql with lists := AMap.set s.sql.lists n l none } }

/-- Ring `n` has a next command or a descriptor to start. -/
def State.sqlWork (s : State) (n : Nat) : Bool :=
  match s.sqlList n with
  | some l => l.code.isNone && s.flag (Ring.sql n).enable && !(s.ringSt (.sql n)).stopping
  | none => s.ringReady (.sql n)

/-- The ring whose turn it is (R228). -/
def State.sqlTurn (s : State) : Option Nat :=
  if s.domOn 119 then ([1, 2, 3, 4].map (fun k => (s.sql.last + k) % 4)).find? s.sqlWork else none

/-- The list of ring `n` ends with its status: its completion record is offered. -/
def State.sqlFinish (s : State) (n : Nat) (l : SqlList) (code : Nat) : State :=
  let r := Ring.sql n
  let s := (s.setSqlList n none).setFld r.busy 0
  let idx := if code = 0 then l.count else l.next
  let s := s.complete r code l.tag (l.next % 65536 + idx % 65536 * 65536) 0
  if code = 0 ∨ code = 4 then s
  else
    ((s.setFld F.SQL_STATUS_ERR 1).setReg R.SQL_ERR_INFO (n * 2 ^ 28 + code * 2 ^ 24 + idx % 65536)).fire Src.SQL_ERR

/-- A list starts. -/
def State.sqlStart (s : State) : State :=
  match s.sqlTurn with
  | none => s
  | some n =>
    match s.sqlList n with
    | some _ => s
    | none =>
      let r := Ring.sql n
      let a := s.slotAddr r (s.fld r.cons)
      let d := s.memRead (s.ringReq r) a 32
      let l : SqlList := { addr := leAt d.data 0 8, count := leAt d.data 8 4, tag := leAt d.data 12 4 }
      let code := if d.st ≠ .ok then some 2 else if l.addr % 64 ≠ 0 ∨ l.count = 0 ∨ 65535 < l.count then some 5 else none
      let s := if d.st = .ok then d.s else d.s.setReg R.SQL_ERR_ADDR a
      (s.setFld r.busy 1).setSqlList n (some { l with code := code })

/-- Ring `n` starts a command: it is the ring that ran last (R228). -/
def State.sqlBegin (s : State) (n : Nat) : State := { s.setFld F.SQL_STATUS_RING n with sql := { s.sql with last := n } }

/-- The next command in turn: its ring, its list, and the command where its read succeeded. -/
def State.sqlNext (s : State) : Option (Nat × SqlList × Option SqlCmd × State) :=
  match s.sqlTurn with
  | none => none
  | some n =>
    match s.sqlList n with
    | none => none
    | some l =>
      let r := s.memRead (s.ringReq (.sql n)) (l.addr + 64 * l.next) 64
      some (n, l, if r.st = .ok then some (sqlCmd r.data) else none, r.s)

/-- The next command in turn is carried out where it is a good command with operation code `op`. -/
def State.sqlRun (s : State) (op : Nat) : State :=
  match s.sqlNext with
  | some (n, l, some c, s') =>
    if c.op ≠ op ∨ (c.bad = true) then s
    else
      let x := (s'.sqlBegin n).sqlExec (.sql n) c
      match x.1 with
      | none =>
        let l := { l with next := l.next + 1 }
        x.2.setSqlList n (some { l with code := if l.next = l.count then some 0 else none })
      | some (st, a) => (x.2.setReg R.SQL_ERR_ADDR (a % 2 ^ 44)).setSqlList n (some { l with code := some st })
  | _ => s

/-- A list that has ended is completed; a next command that is bad or cannot be read ends its list. -/
def State.sqlEnd (s : State) : State :=
  let done := (List.range 4).find? (fun n => match s.sqlList n with
    | some l => l.code.isSome
    | none => false)
  match done with
  | some n =>
    match s.sqlList n with
    | some l => s.sqlFinish n l (l.code.getD 0)
    | none => s
  | none =>
    match s.sqlNext with
    | some (n, l, none, s) =>
      ((s.setReg R.SQL_ERR_ADDR ((l.addr + 64 * l.next) % 2 ^ 44)).sqlBegin n).sqlFinish n l 2
    | some (n, l, some c, s') => if c.bad then (s'.sqlBegin n).sqlFinish n l 1 else s
    | none => s

/-- CANCEL of ring `n` (R238). -/
def State.sqlCancel (s : State) (n : Nat) : State :=
  let r := Ring.sql n
  let s := s.ringCancel r
  let s := match s.sqlList n with
    | some l => s.sqlFinish n l (l.code.getD 4)
    | none => s
  (s.ringRest r).foldl (fun s i =>
    let d := s.memRead (s.ringReq r) (s.slotAddr r i) 32
    d.s.skipFree.completeAt r i 4 (if d.st = .ok then leAt d.data 12 4 else d.s.freeVal % 2 ^ 32) 0 0) s

/-- Ring `n` stops where a stop waits (R532). -/
def State.sqlStop (s : State) (n : Nat) : State :=
  if (s.ringSt (.sql n)).stopping then (s.setSqlList n none).ringStopped (.sql n) else s

/-- A write to an SQL register. -/
def sqlWrite (s : State) (q : Req) (w : RegW) : Acc :=
  let n := (w.k - R.SQL_RING_BASE 0) / 0x20
  if w.row.key = R.SQL_RING_BASE 0 then okAcc (s.ringBase (.sql n) w)
  else if w.row.key = R.SQL_RING_CFG 0 then
    match s.ringCfg (.sql n) w with
    | none => okAcc s
    | some t => okAcc (if w.one (Ring.sql n).cancel && !s.flag (Ring.sql n).cancel then t.sqlCancel n else t)
  else if w.row.key = R.SQL_RING_DB 0 then s.doorbell q (.sql n) (w.newFld (s.reg w.k) (Ring.sql n).prod)
  else okAcc (s.plainWrite w)

end Sys2Proof.Machine
end

