-- ==== Sys2Proof/Machine/Tradewind.lean ====
section
/-! DEFINITION. Tradewind (chapter 17) but for the pieces it moves: transfers, pacing, halts, completion, registers. -/

namespace Sys2Proof.Machine

/-- Channel `c` beside its registers. -/
def State.tw (s : State) (c : Nat) : TwdCh := AMap.get s.twd.ch c {}

def State.setTw (s : State) (c : Nat) (x : TwdCh) : State :=
  { s with twd := { s.twd with ch := AMap.set s.twd.ch c x {} } }

/-- Fields of CONTROL (R391). -/
def TwdDesc.pace (d : TwdDesc) : Nat := bits d.control 0 2
def TwdDesc.paceDst (d : TwdDesc) : Bool := bit d.control 2
def TwdDesc.engine (d : TwdDesc) : Nat := bits d.control 8 6

/-- The descriptor in 32 bytes. -/
def twdDesc (b : List Byte) : TwdDesc :=
  ⟨leAt b 0 8, leAt b 8 8, leAt b 16 2, leAt b 18 2, leAt b 20 4, leAt b 24 4⟩

/-- A bad descriptor (R398). -/
def State.twdBad (s : State) (c : Nat) (d : TwdDesc) : Bool :=
  decide (d.src % 16 ≠ 0) || decide (d.dst % 16 ≠ 0) || decide (d.nSrc = 0) || decide (4096 < d.nSrc) ||
  decide (d.nDst = 0) || decide (4096 < d.nDst) || decide (bits d.control 14 18 ≠ 0) || decide (bits d.control 3 5 ≠ 0) ||
  (decide (2 ≤ d.pace) && !s.gstAdmits (s.ringReq (.twd c)) (d.engine / 4))

/-- Channel `c` is HALTED. -/
def State.twdHalted (s : State) (c : Nat) : Bool := s.flag (F.TWD_CH_STATUS_HALTED c)

/-- HALTED of channel `c`, and its bit of TWD_HALTED, take `b`. -/
def State.setHalted (s : State) (c : Nat) (b : Bool) : State :=
  (s.setFld (F.TWD_CH_STATUS_HALTED c) (b2n b)).setFld ⟨R.TWD_HALTED, c, 1⟩ (b2n b)

/-- TWD_CH_POS follows the place of channel `c`. -/
def State.twdShow (s : State) (c : Nat) : State :=
  let p := (s.tw c).pos
  s.setReg (R.TWD_CH_POS c) (p.dstE * 65536 + p.srcE)

/-- The transfer of channel `c` ends with `code`; its lists are no longer watched (R399). -/
def State.twdEnd (s : State) (c code : Nat) : State :=
  let r := Ring.twd c
  let i := s.fld r.cons + 65536
  let x := s.ringSt r
  ((s.setRingSt r { x with watch := x.watch.filter (fun (e : Nat × Nat × Nat) => e.1 != i) }).setTw c
    { s.tw c with code := some code }).setFld (F.TWD_CH_STATUS_PACE_WAIT c) 0

/-- The transfer in progress of channel `c` stands at an element boundary (R393). -/
def State.twdAtBound (s : State) (c : Nat) : Bool := decide ((s.tw c).pos = (s.tw c).bound)

/-- A CANCEL that waits takes the transfer at its element boundary (R404). -/
def State.twdCancelCheck (s : State) (c : Nat) : State :=
  if (s.tw c).desc.isSome && (s.tw c).code.isNone && !s.twdHalted c && s.twdAtBound c &&
     (s.ringSt (.twd c)).cancelTo.isSome then s.twdEnd c 4
  else s

/-- The ring of channel `c` stops (R532): its transfer is abandoned. -/
def State.twdAbandon (s : State) (c : Nat) : State :=
  ((s.setTw c {}).ringStopped (.twd c)).setFld (F.TWD_CH_STATUS_PACE_WAIT c) 0

/-- The ring of channel `c` stops where a stop waits and its boundary is reached. -/
def State.twdStop (s : State) (c : Nat) : State :=
  if (s.ringSt (.twd c)).stopping && (s.twdHalted c || (s.tw c).desc.isNone || (s.tw c).code.isSome || s.twdAtBound c)
  then s.twdAbandon c else s

/-- A failed access at `a` (R405): counted, the first recorded; every channel that is not HALTED stops at its last
element boundary, and an error record is due. -/
def State.twdFail (s : State) (a cause : Nat) : State :=
  let s := if s.fld F.TWD_ERR_INFO_COUNT = 0 then
      (s.setReg R.TWD_ERR_ADDR (a % 2 ^ 44)).setFld F.TWD_ERR_INFO_CAUSE cause
    else s
  let s := s.bumpFld F.TWD_ERR_INFO_COUNT
  let s := (List.range 32).foldl (fun (s : State) c =>
    if s.twdHalted c then s
    else
      let x := s.tw c
      let s := (s.setHalted c true).setTw c { x with pos := x.bound }
      (s.twdShow c).twdStop c) s
  { s with twd := { s.twd with halts := s.twd.halts ++ [(a, cause, s.reg R.TWD_HALTED)] } }

/-- The cause of a failed read or write. -/
def twdCause (st : Status) (write : Bool) : Nat :=
  match st with
  | .refused => if write then 2 else 1
  | _ => if write then 4 else 3

/-- Channel `c` reads its next descriptor and starts its transfer (R391, R398, R404). -/
def State.twdStart (s : State) (c : Nat) : State :=
  let r := Ring.twd c
  let x := s.tw c
  if ¬ s.flag r.enable ∨ ((s.ringSt r).stopping = true) ∨ s.ringHeld r = 0 ∨ (s.holds r = true) ∨ (s.twdHalted c = true) ∨
     (x.desc.isSome = true) ∨ (x.code.isSome = true) then s
  else
    let a := s.slotAddr r (s.fld r.cons)
    let d := s.memRead (s.ringReq r) a 32
    let s := d.s.setFld r.busy 1
    match d.st with
    | .ok =>
      let t := twdDesc d.data
      let s := (s.setTw c { desc := some t, ready := x.ready }).twdShow c
      if (s.ringSt r).cancelTo.isSome then s.twdEnd c 4
      else if s.twdBad c t then s.twdEnd c 2
      else s.setFld (F.TWD_CH_STATUS_PACE_WAIT c) (b2n (decide (t.pace ≠ 0)))
    | st => s.twdFail a (twdCause st false)

/-- The request that the paced list of channel `c` waits for (R400 to R402). -/
def State.twdRequest (s : State) (c : Nat) (d : TwdDesc) : Bool :=
  match d.pace with
  | 1 => s.flag (F.TWD_CH_STATUS_TRIG_PEND c)
  | 2 => decide ((s.tw c).ready ≤ s.now) && s.rxReq d.engine
  | 3 => decide ((s.tw c).ready ≤ s.now) && s.txReq d.engine
  | _ => false

/-- A paced element use of channel `c` starts on its request (R400). -/
def State.twdPacedUse (s : State) (c : Nat) : State :=
  let x := s.tw c
  match x.desc with
  | none => s
  | some d =>
    if d.pace = 0 ∨ (x.pos.use = true) ∨ (x.code.isSome = true) ∨ (s.twdHalted c = true) ∨
       ((s.ringSt (.twd c)).stopping && s.twdAtBound c) = true ∨ s.twdRequest c d = false then s
    else
      let p := { x.pos with use := true }
      let b := if s.twdAtBound c then p else x.bound
      let s := (s.setTw c { x with pos := p, bound := b }).setFld (F.TWD_CH_STATUS_PACE_WAIT c) 0
      if d.pace = 1 then s.setFld (F.TWD_CH_STATUS_TRIG_PEND c) 0 else s

/-- Whether a trigger of channel `c` finds it busy: a paced use that a trigger started is in progress (R361, R401). -/
def State.twdTrigBusy (s : State) (c : Nat) : Bool :=
  match (s.tw c).desc with
  | some d => decide (d.pace = 1) && (s.tw c).pos.use && (s.tw c).code.isNone
  | none => false

/-- A trigger is taken (R401): kept as the one pending trigger, or lost. -/
def State.twdTrigger (s : State) (c : Nat) : State :=
  if s.flag (F.TWD_CH_STATUS_TRIG_PEND c) then s.setFld (F.TWD_CH_STATUS_TRIG_LOST c) 1
  else s.setFld (F.TWD_CH_STATUS_TRIG_PEND c) 1

/-- The transfer of channel `c` that has ended completes (R403). A descriptor that was never read gives a free TAG. -/
def State.twdComplete (s : State) (c : Nat) : State :=
  let x := s.tw c
  match x.code with
  | none => s
  | some k =>
    if s.twdHalted c then s
    else
      let tag := match x.desc with
        | some d => d.tag
        | none => s.freeVal % 2 ^ 32
      let s := if x.desc.isSome then s else s.skipFree
      let s := s.complete (.twd c) k tag (satU 32 x.counted) (x.pos.dstE * 65536 + x.pos.srcE)
      ((s.setTw c { ready := x.ready }).setFld (Ring.twd c).busy 0)

/-- The error record of the earliest halt whose record is due (R406). -/
def State.twdErrorRecord (s : State) : State :=
  match s.twd.halts with
  | [] => s
  | (a, cause, mask) :: r =>
    let s := { s with twd := { s.twd with halts := r } }
    s.offer ⟨2, cause, 5, 0xFF, a % 2 ^ 32, bits a 32 12, mask, none,
      s.fld F.TWD_ERR_CFG_QUEUE, s.fld F.TWD_ERR_CFG_OWNER, s.flag F.TWD_ERR_CFG_ATTR_S⟩

/-- RESUME or ABORT of channel `c` (R407); after a stop they only clear HALTED (R532). -/
def State.twdCtrl (s : State) (c : Nat) (abort : Bool) : State :=
  if ¬ s.twdHalted c then s
  else
    let s := s.setHalted c false
    if abort then (if s.flag (Ring.twd c).busy then s.twdEnd c 3 else s)
    else
      let wait : Bool := match (s.tw c).desc with
        | some d => decide (d.pace ≠ 0) && !(s.tw c).pos.use && (s.tw c).code.isNone
        | none => false
      (s.setFld (F.TWD_CH_STATUS_PACE_WAIT c) (b2n wait)).twdCancelCheck c

/-- A write to TWD_CH_CFG. -/
def State.twdCfgWrite (s : State) (c : Nat) (w : RegW) : State :=
  let r := Ring.twd c
  let was := s.flag r.enable
  match s.ringCfg r w with
  | none => s
  | some t =>
    let t := if was && !t.flag r.enable then (t.setFld (F.TWD_CH_STATUS_TRIG_PEND c) 0) else t
    let t := if was && !t.flag r.enable && t.twdHalted c then t.twdAbandon c else t
    if w.one r.cancel && !s.flag r.cancel then (t.ringCancel r).twdCancelCheck c else t

/-- A write to a TWD register. -/
def twdWrite (s : State) (q : Req) (w : RegW) : Acc :=
  if w.k < R.TWD_ERR_CFG then
    let c := (w.k - R.TWD_CH_BASE 0) / 0x20
    let r := Ring.twd c
    if ¬ s.admits q (s.fld r.owner) (s.flag r.attr) then refAcc s q true (.sys 0x0A) 0
    else if w.row.key = R.TWD_CH_BASE 0 then okAcc (s.ringBase r w)
    else if w.row.key = R.TWD_CH_CFG 0 then okAcc (s.twdCfgWrite c w)
    else if w.row.key = R.TWD_CH_DB 0 then s.doorbell q r (w.newFld (s.reg w.k) r.prod)
    else if w.row.key = R.TWD_CH_CTRL 0 then
      okAcc (if w.one (F.TWD_CH_CTRL_ABORT c) then s.twdCtrl c true
        else if w.one (F.TWD_CH_CTRL_RESUME c) then s.twdCtrl c false else s)
    else okAcc (s.plainWrite w)
  else if w.k = R.TWD_ERR_CFG then if q.s then okAcc (s.plainWrite w) else refAcc s q true (.sys 0x0A) 0
  else if w.k = R.TWD_ERR_INFO then
    let v := w.merged (s.reg w.k)
    if bits v 16 16 = 0 ∧ Nat.land w.m (fieldMask 16 16) ≠ 0 then
      okAcc ((s.setReg w.k 0).setReg R.TWD_ERR_ADDR 0)
    else okAcc (s.plainWrite w)
  else okAcc (s.plainWrite w)

end Sys2Proof.Machine
end

