-- ==== Sys2Proof/Machine/Power.lean ====
section
/-! DEFINITION. Power domains, clocks, resets and the Twilight service (chapter 21), the temperature sensor (R517) and
the fault summary (R521). -/

namespace Sys2Proof.Machine

/-! ### A domain's block stops (R487) -/

/-- The STATE of domain `d`: 0 off, 1 waking, 2 on, 3 sleeping. -/
def State.domState (s : State) (d : Nat) : Nat := s.fld (F.PWR_DOM_STATUS_STATE d)

/-- Threads go to STATE off; nobody waits for their accesses any more. -/
def State.threadsOff (s : State) (l : List Nat) : State :=
  let s := l.foldl (fun (s : State) t =>
    ((s.setFld (F.CORE_TH_CTRL_STATE t) 0).setFld (F.CORE_TH_CTRL_STOP t) 0).setTh t {}) s
  { s with outst := s.outst.map (fun o => match o.waiter with
      | .thread t _ => if l.contains t then { o with waiter := .nobody } else o
      | _ => o) }

/-- The block at index `b` and its rings are back at their reset state; what they held is abandoned. -/
def State.blockReset (s : State) (b : Nat) (rings : List Ring) : State :=
  rings.foldl (fun (s : State) r => (s.dropRecords r).setRingSt r {}) (s.resetRegs (fun k => blockOf k == b))

/-- The producer's records that no ring carries are abandoned. -/
def State.dropUnit (s : State) (u : Nat) : State :=
  { s with lull := { s.lull with offers := s.lull.offers.filter (fun o => o.unit != u || o.ring.isSome) } }

/-- Head `n` is off or reset: its lanes idle, everything of it at reset. The composer's capture of it ends (R162, R218). -/
def State.headReset (s : State) (n : Nat) : State :=
  let x : HeadSt := { cap := (s.head n).capStop n }
  ((s.blockReset (0x10 + n) []).setHead n x).emit ⟨.laneIdle, [n, 0], []⟩

/-- What composition keeps in a head is gone. -/
def HeadSt.uncomposed (x : HeadSt) : HeadSt :=
  { x with comp := false, live := false, cFrame := 0, cLine := 0, cPix := 0, buf := [], mask := 0, ls := [], spr := none, lineSpr := [],
           lead := 0, lateTo := 0, late := [], alExp := 0, masks := [], tiles := [], wbNew := none, cap := none }

/-- The composer at reset. -/
def State.composerReset (s : State) : State :=
  let s := (s.blockReset 0x0C ((List.range 6).map .wb))
  (List.range 6).foldl (fun (s : State) n => s.setHead n (s.head n).uncomposed) { s with cmp := {} }

/-- The HSE at reset (R489, R106). -/
def State.hseReset (s : State) : State := { s.blockReset 0x19 ((List.range 4).map .hse) with hse := {} }

/-- Gust group `g` at reset: GST_GROUP_OWN_g keeps its value (R332). -/
def State.gustReset (s : State) (g : Nat) : State :=
  let s := s.resetRegs (fun k => decide (R.GST_GROUP_OWN g < k) && decide (k < R.GST_GROUP_OWN g + 0x400))
  { s with gst := s.gst.dropKeys (fun e => e / 4 == g) }

/-- Domain `d` is isolated: pins that its block drove enter hold, and the block stops with everything in it lost. -/
def State.isolate (s : State) (d : Nat) : State :=
  let s := s.pinsHold (s.holdOf d)
  if d < 32 then (s.loseCore d).threadsOff [2 * d, 2 * d + 1]
  else if d < 40 then s.loseDirty (fun x => x.cluster == d - 32)
  else if d < 112 then s
  else if d < 118 then s.headReset (d - 112)
  else if d = 118 then s.composerReset
  else if d = 119 then { s.blockReset 0x0B ((List.range 4).map .sql) with sql := {} }
  else if d < 124 then (if s.hseOn then s.hseReset else s)
  else if d = 124 then { (s.blockReset 0x18 ((List.range 16).map .gal)).dropUnit 6 with gal := {} }
  else if d < 141 then s.gustReset (d - 125)
  else if d < 143 then (s.cxlDown (d - 141)).blockReset (0x20 + (d - 141)) []
  else if d < 147 then ((s.atsDown (d - 143)).blockReset (0x24 + (d - 143)) []).setAts (d - 143) {}
  else if d < 149 then
    let e := d - 147
    ((s.blockReset (0x28 + e) [.ethTx e, .ethRx e])).setMac e {}
  else s

/-- What a wake clears: a bank group (R305) with the spare of a copy that waits there, the CTS (R42), the vault (R306). -/
def State.wakeClear (s : State) (d : Nat) : State :=
  let clear (s : State) (a n : Nat) : State :=
    { s.zero a n with
      pool := { s.pool with copy := s.pool.copy.map (fun c =>
        if a ≤ poolBase + c.bank * bankSize ∧ poolBase + c.bank * bankSize < a + n then { c with poisoned := [] } else c) },
      ecc := s.ecc.dropKeys (fun k => decide (a ≤ k) && decide (k < a + n)),
      dirty := s.dirty.filter (fun x => decide (x.addr < a) || decide (a + n ≤ x.addr)) }
  if 40 ≤ d ∧ d < 112 then clear s (poolBase + (d - 40) * (4 * bankSize)) (4 * bankSize)
  else if d = 120 then { clear s ctsBase ctsSize with ctsHits := [], valHits := [] }
  else if d = 149 then (clear s vaultBase vaultSize).setFld F.SEC_STATUS_WIPING 0
  else s

/-! ### Transitions (R485, R486) -/

/-- Waking domains start their wake in ascending index while fewer than 8 have started. SECURE wakes first (R496). -/
def State.ramps (s : State) : State :=
  let waiting := if s.domState 149 = 1 then [149] else (List.range 150).filter (fun d => decide (s.domState d = 1))
  let new := (waiting.filter (fun d => !s.pwr.ramp.contains d)).take (8 - s.pwr.ramp.length)
  { s with pwr := { s.pwr with ramp := s.pwr.ramp ++ new } }

/-- A domain that is off or on moves toward ON. The clearing shows at once; accesses wait for its end (log entry 44). -/
def State.domMove (s : State) (d : Nat) : State :=
  let on := s.flag (F.PWR_DOM_CTRL_ON d)
  if s.domState d = 0 ∧ on = true then ((s.wakeClear d).setFld (F.PWR_DOM_STATUS_STATE d) 1).ramps
  else if s.domState d = 2 ∧ on = false then (s.isolate d).setFld (F.PWR_DOM_STATUS_STATE d) 3
  else s

/-- R488 refuses switching domain `d` to `on`. -/
def State.switchRefused (s : State) (d : Nat) (on : Bool) : Bool :=
  if d < 32 then on && !s.domOn (32 + d / 4)
  else if d < 40 then !on && (List.range 4).any (fun k => decide (s.domState (4 * (d - 32) + k) ≠ 0))
  else if d = 118 then !on && (List.range 6).any s.scanning
  else if 113 ≤ d ∧ d ≤ 117 then on && s.twilight
  else if d = 149 then !on
  else false

/-- ON of domain `d` is written. -/
def State.domainWrite (s : State) (d : Nat) (on : Bool) : State :=
  if s.flag (F.PWR_DOM_CTRL_ON d) = on then s
  else if s.switchRefused d on then (s.setFld F.PWR_ERR_REFUSED 1).setFld F.PWR_ERR_DOMAIN d
  else (s.setFld (F.PWR_DOM_CTRL_ON d) (b2n on)).domMove d

/-- What R490 does once domain `d` reads on: an L2 lets its cores wake, a core's threads start. -/
def State.autoNext (s : State) (d : Nat) : State :=
  if 32 ≤ d ∧ d < 40 then
    (s.pwr.auto.filter (fun c => c / 4 == d - 32)).foldl (fun (s : State) c => s.domainWrite c true) s
  else if d < 32 ∧ s.pwr.auto.contains d then
    let s := { s with pwr := { s.pwr with auto := s.pwr.auto.filter (· != d) } }
    let s := if s.flag (F.PWR_WAKE_START_T0 d) then s.threadStart (2 * d) else s
    if s.flag (F.PWR_WAKE_START_T1 d) then s.threadStart (2 * d + 1) else s
  else s

/-- The wake of domain `d` ends (R485). -/
def State.wakeDone (s : State) (d : Nat) : State :=
  if ¬ s.pwr.ramp.contains d ∨ s.held = true then s
  else
    let s := { s with pwr := { s.pwr with ramp := s.pwr.ramp.filter (· != d) } }
    let s := (s.setFld (F.PWR_DOM_STATUS_STATE d) 2).ramps
    let s := if d < 32 then { s with clk0 := AMap.set s.clk0 d (AMap.get s.clk (d / 4) 0) 0 } else s
    if s.flag (F.PWR_DOM_CTRL_ON d) then s.autoNext d else s.domMove d

/-- The sleep of domain `d` ends. -/
def State.sleepDone (s : State) (d : Nat) : State :=
  if s.domState d ≠ 3 then s else (s.setFld (F.PWR_DOM_STATUS_STATE d) 0).domMove d

/-- Lull's wake request for core `c` is acted on (R490). -/
def State.autoWake (s : State) (c : Nat) : State :=
  if ¬ s.wakeRequest c ∨ s.flag (F.PWR_WAKE_AUTO_WAKE c) = false ∨ s.domState c = 1 ∨ s.pwr.auto.contains c = true then s
  else
    let s := { s with pwr := { s.pwr with auto := c :: s.pwr.auto } }
    if s.domOn (32 + c / 4) then s.domainWrite c true else s.domainWrite (32 + c / 4) true

/-! ### Clocks (R491 to R494) -/

/-- The effective frequency that cluster `c` should have, in 25 MHz (R492). -/
def State.freqWanted (s : State) (c : Nat) : Nat :=
  let f := s.fld (F.CLK_CORE_FREQ c)
  if s.twilight then min f 32 else f

/-- Cluster `c` begins to move to its effective frequency, unless a move is in progress. -/
def State.coreMove (s : State) (c : Nat) : State :=
  let f := s.freqWanted c
  if s.flag (F.CLK_CORE_SWITCHING c) ∨ f = s.fld (F.CLK_CORE_EFFECTIVE c) then s
  else
    let s := s.setFld (F.CLK_CORE_EFFECTIVE c) 32
    if f = 32 then s
    else
      let s := (s.setFld (F.CLK_CORE_SWITCHING c) 1).setFld ⟨R.CLK_STATUS, 5 + c, 1⟩ 0
      { s with pwr := { s.pwr with freq := AMap.set s.pwr.freq c f 0 } }

/-- The relocked PLL of cluster `c` takes over (R492). -/
def State.coreMoved (s : State) (c : Nat) : State :=
  if s.flag (F.CLK_CORE_SWITCHING c) then
    let f := AMap.get s.pwr.freq c 0
    let s := ((s.setFld (F.CLK_CORE_EFFECTIVE c) f).setFld (F.CLK_CORE_SWITCHING c) 0).setFld ⟨R.CLK_STATUS, 5 + c, 1⟩ 1
    { s with pwr := { s.pwr with freq := AMap.erase s.pwr.freq c } }.coreMove c
  else s

/-- A write to CLK_CORE_c. -/
def State.clkCoreWrite (s : State) (c : Nat) (w : RegW) : State :=
  let f := w.newFld (s.reg w.k) (F.CLK_CORE_FREQ c)
  if f < 8 ∨ 80 < f then s else (s.plainWrite w).coreMove c

/-- A write to CLK_PIX_n (R493). -/
def State.clkPixWrite (s : State) (n : Nat) (w : RegW) : State :=
  let f := w.newFld (s.reg w.k) (F.CLK_PIX_FREQ_KHZ n)
  if s.scanning n then s.orReg R.CLK_ERR (2 ^ n)
  else if f < 25000 ∨ 600000 < f then s
  else (s.plainWrite w).setFld (F.CLK_PIX_LOCKED n) 0

/-- The pixel PLL of head `n` locks (R493). -/
def State.pixRelock (s : State) (n : Nat) : State :=
  if s.flag (F.CLK_PIX_SET n) && !s.held then s.setFld (F.CLK_PIX_LOCKED n) 1 else s

/-- PLL `k` of CLK_STATUS locks after cold reset: 0 FAB, which also supplies the CORE clocks, 1 HSE, 2 CMP, 3 GUST, 4 AUD
(R491). -/
def State.pllLock (s : State) (k : Nat) : State :=
  if s.held then s
  else
    let s := s.orReg R.CLK_STATUS (2 ^ k)
    if k = 0 then s.setFld F.CLK_STATUS_CORE_LOCKED 0xFF else s

/-- A write to a CLK register. -/
def clkWrite (s : State) (q : Req) (w : RegW) : Acc :=
  if ¬ q.s then refAcc s q true (.sys 0x01) 0
  else if w.row.key = R.CLK_CORE 0 then okAcc (s.clkCoreWrite ((w.k - R.CLK_CORE 0) / 4) w)
  else if w.row.key = R.CLK_PIX 0 then okAcc (s.clkPixWrite ((w.k - R.CLK_PIX 0) / 4) w)
  else okAcc (s.plainWrite w)

/-! ### Resets (R496 to R498) -/

/-- A cold reset (R496, R498): everything but the AON island and OTP is held in reset. What lies outside the device, the
supply of its banks and the memory of CXL devices, is untouched by it. -/
def State.coldReset (s : State) : State :=
  let kept (k : Nat) : Bool := blockOf k == 0x04 || (decide (R.PWR_TAMPER_LOG_CTL ≤ k) && decide (k < 0x30000))
  let pg := (List.range 8).filter (fun k => s.flag (F.GPIO_BANK_CFG_PG k))
  let base : State := {
    regs := s.regs.filter (fun (e : Nat × Word) => kept e.1),
    mem := s.mem.filter (fun (e : Nat × Byte) => Nat.ble cxlBase e.1),
    ecc := s.ecc.filter (fun (e : Nat × Ecc) => Nat.ble cxlBase e.1),
    now := s.now, free := s.free, out := s.out, pending := s.pending, cxlTaint := s.cxlTaint, cxlFresh := s.cxlFresh,
    sec := { identity := s.sec.identity, idBits := s.sec.idBits, conds := s.sec.conds } }
  pg.foldl (fun (s : State) k => s.setFld (F.GPIO_BANK_CFG_PG k) 1) base

/-- PORST_N rises with the strap balls at `p` (R125, R496): the life-cycle state is taken (R468), SECURE wakes, then the
cold-reset set. -/
def State.porstRise (s : State) (p : Nat) : State :=
  if ¬ s.held ∨ s.pwr.noRef = true then s
  else
    let s := { s with held := false, stc := 0, sec := { s.sec with bootLc := s.lifeCycle, boot := true } }
    let s := s.setFld F.CST_ID_POS p
    (coldDomains.foldl (fun (s : State) d => s.setFld (F.PWR_DOM_STATUS_STATE d) 1) s).ramps

/-- A register's value after the entry edge of a warm reset; none is its reset value (R304, R348, R364, R374, R498). -/
def warmKeep (lg0 : Bool) (k v : Nat) : Option Nat :=
  let b := blockOf k
  let cleared : Option Nat :=
    match regAt k with
    | some (r, _) => some (v - Nat.land v r.w1c)
    | none => none
  if b = 0x01 then (if k = R.CLK_STATUS then some (if bit v 0 then Nat.lor v 0x1FE0 else v) else none)
  else if b = 0x02 then
    if 0x2F800 ≤ k then some v
    else if R.PWR_DOM_STATUS 0 ≤ k ∧ k < R.PWR_DOM_STATUS 150 then some v
    else if k = R.PWR_DOM_CTRL 120 ∧ lg0 = true then some v
    else if k = R.PWR_RESET_CAUSE then some v
    else none
  else if b = 0x03 then
    if k = R.SEC_STATUS then some (Nat.land v 0x1C00) else if k = R.SEC_DEBUG then some (Nat.land v 0xE) else none
  else if b = 0x04 ∨ b = 0x07 then some v
  else if b = 0x06 then
    if k = R.BRZ_VIOL_COUNT then none
    else if R.BRZ_CH_CFG 0 ≤ k ∧ k < R.BRZ_CH_CFG 256 ∧ k % 16 = 0xC then some (Nat.land v 8) else cleared
  else if b = 0x08 then
    if k % 32 = 8 then (cleared.map (fun x => x - x % 2)) else cleared
  else if b = 0x1A then
    if (0x1A1000 ≤ k ∧ k < 0x1A2000) ∨ k = R.POOL_SPARE ∨ k = R.POOL_FAIL_LAST then some v else none
  else if b = 0x1B then
    if k = R.CST_ID ∨ k = R.CST_EPOCH ∨ k = R.CST_RESET_GRANT then some v else none
  else none

/-- The registers after the entry edge of a warm reset. -/
def warmRegs (lg0 : Bool) (m : AMap Word) : AMap Word :=
  m.foldr (fun (e : Nat × Word) (a : AMap Word) =>
    match warmKeep lg0 e.1 e.2.toNat with
    | some v => setRegs a e.1 v
    | none => a) []

/-- The sender of an access that has not been answered gets an error response. -/
def State.failSender (s : State) : State :=
  if s.outst.any (fun o => o.waiter == .sender) then s.answer .error [] else s

/-- What a warm reset keeps of the Constellation unit: the tick schedule and the slewing of the counter (R372, R500). -/
def Cst.warm (c : Cst) : Cst :=
  { sched := c.sched, prev := c.prev, next := c.next, period := c.period, slews := c.slews, skew := c.skew }

/-- The entry edge of a warm reset (R497, R498). -/
def State.warmEntry (s : State) : State :=
  let lg0 := s.domOn 120
  let s := (List.range 6).foldl (fun (s : State) n => if s.headOn n then s.emit ⟨.laneIdle, [n, 0], []⟩ else s) s
  let s := ((s.pinsHold (List.range 256)).loseDirty (fun _ => true)).failSender
  let s : State := { s with
    regs := warmRegs lg0 s.regs,
    clk := [], clk0 := [],
    rings := [], threads := [], outst := [], fired := [], tasks := [],
    pool := { s.pool with old := [] },
    brz := [], hops := [], here := [], tim := [], lull := {}, hse := {}, heads := [], cmp := {}, sql := {}, gst := [], twd := {},
    gal := {}, ports := {},
    cst := s.cst.warm,
    posted := [],
    pins := { s.pins with armed := [] },
    sec := { s.sec with m := [], count := 0, cmd := none, done := none, scrap := false, boot := true, reset := false,
                        ir := 2, dr := 0 },
    pwr := { ramp := s.pwr.ramp.filter coldDomains.contains, noRef := s.pwr.noRef } }
  (List.range 150).foldl (fun (s : State) d =>
    let st := s.domState d
    if coldDomains.contains d ∨ (d = 120 ∧ lg0 = true) then
      (if st = 0 then ((s.wakeClear d).setFld (F.PWR_DOM_STATUS_STATE d) 1).ramps else s)
    else if st = 1 then s.setFld (F.PWR_DOM_STATUS_STATE d) 3
    else if st = 2 then s.setFld (F.PWR_DOM_STATUS_STATE d) 3 else s) s

/-- A warm reset by the cause at bit `b` of PWR_RESET_CAUSE (with the peer's position for PEER). One that comes while a
warm reset runs is merged into it. -/
def State.warmReset (s : State) (b : Nat) (peer : Nat := 0) : State :=
  if s.held && !s.pwr.noRef then s
  else
    let runs : Bool := (s.pwr.noRef || s.sec.boot) && !s.flag F.PWR_RESET_CAUSE_COLD
    let old := if runs then s.reg R.PWR_RESET_CAUSE else 0
    let v := Nat.lor old (2 ^ b)
    let v := if b = 3 then putBits v 5 2 peer else v
    let s := s.setReg R.PWR_RESET_CAUSE v
    if runs then s else s.warmEntry

/-- A write to KEY of PWR_RESET (R497, under the rules of R342). -/
def State.resetKey (s : State) (w : RegW) : State :=
  if Nat.land w.m 0xFFFF = 0 then s
  else
    let key := if Nat.land w.m 0xFFFF = 0xFFFF then bits w.v 0 16 else 0
    let was := s.pwr.armed
    let s := { s with pwr := { s.pwr with armed := decide (key = 0x6B29) } }
    if was && decide (key = 0x94D6) then s.warmReset 1 else s

/-- The reference is lost (R494): a warm reset that holds the device until the reference returns. -/
def State.refLoss (s : State) : State :=
  if s.held then s
  else { s.warmReset 4 with held := true, pwr := { (s.warmReset 4).pwr with noRef := true } }

/-- The reference has returned: warm reset ends. -/
def State.refReturn (s : State) : State :=
  if s.pwr.noRef then { s with held := false, pwr := { s.pwr with noRef := false } } else s

/-- The wipe of the vault ends (R307); a tamper event with RESET then resets the device (R476). -/
def State.wipeEnd (s : State) : State :=
  if ¬ s.flag F.SEC_STATUS_WIPING then s
  else
    let s := s.setFld F.SEC_STATUS_WIPING 0
    if s.sec.reset then { s with sec := { s.sec with reset := false } }.warmReset 2 else s

/-! ### The Twilight service, sensors, the fault summary -/

/-- LEAVE (R501): every cluster moves to its FREQ. -/
def State.leaveTwilight (s : State) : State :=
  if s.held ∨ s.twilight = false then s
  else (List.range 8).foldl State.coreMove (s.setReg R.PWR_SERVICE 3)

/-- The hottest sensor reads `v` (R517). -/
def State.tjUpdate (s : State) (v : Nat) : State :=
  let s := s.setFld F.SYS_TJ_TJ v
  let hot : Bool := decide (sext 16 (s.fld F.SYS_TJ_TJ_MAX) < sext 16 v)
  if hot then s.setFld F.SYS_TJ_TJ_MAX v else s

/-- What SYS_FAULT reads (R521). -/
def State.sysFault (s : State) (q : Req) : Nat :=
  let up := (List.range 4).filter s.atsUp
  let slots := (match s.activeSlot with
    | some k => b2n (decide (k = 15)) * 2 ^ 24 + (15 - k) * 2 ^ 20
    | none => 0)
  let otp := if q.s then s.svnFloor * 2 ^ 25 + slots else 0
  otp + (up.filter (fun n => decide ((s.atsPort n).active.length = 3))).foldl (fun a n => a + 2 ^ (16 + n)) 0 +
  (up.filter (fun n => (s.atsPort n).spare.isNone)).foldl (fun a n => a + 2 ^ (12 + n)) 0 +
  b2n (decide (s.reg R.TWD_HALTED ≠ 0)) * 2 ^ 8 +
  b2n ((List.range 288).any (fun b => decide (s.fld (F.POOL_BANK_STATE_STATE b) = 3))) * 2 ^ 4 +
  (8 - popc 8 (s.fld F.POOL_SPARE_USED))

/-! ### PWR and SYS registers -/

/-- A write to a PWR register (R483). -/
def pwrWrite (s : State) (q : Req) (w : RegW) : Acc :=
  if ¬ q.s then refAcc s q true (.sys 0x02) 0
  else if 0x2F800 ≤ w.k then okAcc (s.tamperWrite w)
  else if w.row.key = R.PWR_DOM_CTRL 0 then
    let d := (w.k - R.PWR_DOM_CTRL 0) / 4
    okAcc (if bit w.m 0 then s.domainWrite d (bit w.v 0) else s)
  else if w.k = R.PWR_SERVICE then okAcc (if w.one F.PWR_SERVICE_LEAVE then s.leaveTwilight else s)
  else if w.k = R.PWR_RESET then okAcc (s.resetKey w)
  else okAcc (s.plainWrite w)

/-- What a read of a PWR register returns: the tamper log reads 0 to N requesters (R477). -/
def pwrRead (s : State) (q : Req) (k : Nat) : Nat :=
  if 0x2F800 ≤ k ∧ q.s = false then 0
  else if R.PWR_ON 0 ≤ k ∧ k < R.PWR_ON 5 then
    (List.range 32).foldl (fun a i =>
      let d := 32 * ((k - R.PWR_ON 0) / 4) + i
      if d < 150 ∧ s.domOn d = true then a + 2 ^ i else a) 0
  else if k = R.PWR_RESET then 0
  else s.reg k

/-- A write to a SYS register (R372, R517). -/
def sysWrite (s : State) (q : Req) (w : RegW) : Acc :=
  if R.SYS_TIME_SET_LO ≤ w.k ∧ w.k ≤ R.SYS_TIME_CMD then
    if ¬ q.s then refAcc s q true (.sys 0x00) 0
    else if w.k = R.SYS_TIME_CMD then
      okAcc (if w.one F.SYS_TIME_CMD_SET then (if s.alone then s.timeSet.cstSet else s) else s)
    else okAcc (s.plainWrite w)
  else okAcc (s.plainWrite w)

/-- What a read of a SYS register returns. -/
def sysRead (s : State) (q : Req) (k : Nat) : Nat :=
  if k = R.SYS_TIME_LO then s.stc % 2 ^ 32
  else if k = R.SYS_TIME_HI then s.stc / 2 ^ 32
  else if k = R.SYS_FAULT then s.sysFault q
  else if k = R.SYS_TIME_CMD then 0
  else s.reg k

end Sys2Proof.Machine
end

