-- ==== Sys2Proof/Machine/Bus.lean ====
section
/-! DEFINITION. The bus: an access of any requester to any address (R17 to R27, R531): register space block by block,
plain memory, other devices' windows, CXL. -/

namespace Sys2Proof.Machine

/-! ### One register -/

/-- The checks of R27 that come before a switched-off block is found off: the blocks that admit writes only from S
requesters. -/
def offRefuses (b o : Nat) : Bool :=
  decide (b = 0x03) || decide (b = 0x04) || (decide (0x20 ≤ b) && decide (b ≤ 0x27)) ||
  ((decide (b = 0x28) || decide (b = 0x29)) && !(decide (0x100 ≤ o) && decide (o < 0x140)))

/-- A write to one register. -/
def State.writeReg (s : State) (q : Req) (w : RegW) : Acc :=
  let b := blockOf w.k
  if ¬ s.blockOn b then
    if ¬ q.s ∧ offRefuses b (w.k % 0x10000) then refAcc s q true (.sys b) 0 else offAcc s true 0
  else if b = 0x00 then sysWrite s q w
  else if b = 0x01 then clkWrite s q w
  else if b = 0x02 then pwrWrite s q w
  else if b = 0x03 ∨ b = 0x04 then secWrite s q w
  else if b = 0x05 then lulWrite s q w
  else if b = 0x06 then brzWrite s q w
  else if b = 0x07 then gpioWrite s q w
  else if b = 0x08 then timWrite s q w
  else if b = 0x09 then gstWrite s q w
  else if b = 0x0A then twdWrite s q w
  else if b = 0x0B then sqlWrite s q w
  else if b = 0x0C then cmpWrite s q w
  else if 0x10 ≤ b ∧ b ≤ 0x15 then headWrite s w
  else if b = 0x18 then galWrite s q w
  else if b = 0x19 then hseWrite s q w
  else if b = 0x1A then poolRegWrite s q w
  else if b = 0x1B then cstWrite s q w
  else if b = 0x20 ∨ b = 0x21 then cxlRegWrite s q (b - 0x20) w
  else if 0x24 ≤ b ∧ b ≤ 0x27 then atsWrite s q (b - 0x24) w
  else if b = 0x28 ∨ b = 0x29 then ethWrite s q (b - 0x28) w
  else if b = 0x2C then xspiWrite s q w
  else if b = 0x2D then bmiWrite s q w
  else if b = 0x2E then dbguWrite s q w
  else if b = 0x30 then coreWrite s q w
  else refAcc s q true (.sys b) 0

/-- A read of one register: all of its bytes. -/
def State.readReg (s : State) (q : Req) (r : RegRow) (k : Nat) : Acc :=
  let b := blockOf k
  let n := r.bytes
  let pair (x : Nat × State) : Acc := ⟨.ok, toBytes n x.1, x.2⟩
  if ¬ s.blockOn b then offAcc s false n
  else if b = 0x00 then pair (sysRead s q k, s)
  else if b = 0x02 then pair (pwrRead s q k, s)
  else if b = 0x03 ∨ b = 0x04 then pair (secRead s q k)
  else if b = 0x06 then pair (brzRead s q k, s)
  else if b = 0x07 then pair (gpioRead s q k, s)
  else if b = 0x09 then gstRead s q k n
  else if b = 0x0C then pair (cmpRead s k, s)
  else if 0x10 ≤ b ∧ b ≤ 0x15 then pair (headRead s k)
  else if b = 0x1B then pair (cstRead s k, s)
  else if b = 0x2E then pair (dbguRead s k)
  else if b = 0x3F then refAcc s q false (.sys b) n
  else pair (s.reg k, s)

/-! ### An access to register space -/

/-- The status of an access whose parts were answered `a` and `b`. -/
def joinStatus (a b : Status) : Status :=
  match a, b with
  | .error, _ => .error
  | _, .error => .error
  | .refused, _ => .refused
  | _, .refused => .refused
  | _, _ => .ok

/-- How many of `n` bytes from key `k` on lie in one register, or in one unassigned place. -/
def regSpan (k n : Nat) : Nat :=
  match regAt k with
  | none => min n (4 - k % 4)
  | some (r, b) => min n (b + r.bytes - k)

/-- A read of `n` bytes from key `k` on, register by register from the lowest; unassigned offsets read zero (R18). -/
def State.regRead (s : State) (q : Req) : Nat → Nat → Nat → Acc
  | 0, _, _ => okAcc s
  | f + 1, k, n =>
    if n = 0 then okAcc s
    else
      let c := regSpan k n
      let a : Acc := match regAt k with
        | none => ⟨.ok, List.replicate c 0, s⟩
        | some (r, b) =>
          let x := s.readReg q r b
          { x with data := (x.data.drop (k - b)).take c }
      let z := State.regRead a.s q f (k + c) (n - c)
      ⟨joinStatus a.st z.st, a.data ++ z.data, z.s⟩

/-- A write of bytes from key `k` on, register by register from the lowest; each register takes the bytes that the access
covers (R531), and unassigned offsets ignore theirs (R18). -/
def State.regWrite (s : State) (q : Req) : Nat → Nat → List Byte → Acc
  | 0, _, _ => okAcc s
  | f + 1, k, bs =>
    if bs.isEmpty then okAcc s
    else
      let c := regSpan k bs.length
      let a : Acc := match regAt k with
        | none => okAcc s
        | some (r, b) =>
          s.writeReg q ⟨r, b, fieldMask (8 * (k - b)) (8 * c), ofBytes (bs.take c) * 2 ^ (8 * (k - b))⟩
      let z := State.regWrite a.s q f (k + c) (bs.drop c)
      ⟨joinStatus a.st z.st, [], z.s⟩

/-! ### Any address -/

/-- A read of `n` bytes at physical address `a`; `w` waits if the answer comes from outside the device. -/
def State.busRead (s : State) (q : Req) (a n : Nat) (w : Waiter) : BusOut :=
  match regionOf a n with
  | some (.reg o) => .acc (s.regRead q n o n)
  | some (.peer d o) => if d = s.pos then .acc (s.memRead q a n) else s.peerSend d .read q o n [] w
  | some (.cxlCfg o) => s.cxlCfgSend .read q o n [] w
  | _ => .acc (s.memRead q a n)

/-- A write of `bs` at physical address `a`. -/
def State.busWrite (s : State) (q : Req) (a : Nat) (bs : List Byte) (w : Waiter) : BusOut :=
  match regionOf a bs.length with
  | some (.reg o) => .acc (s.regWrite q bs.length o bs)
  | some (.peer d o) => if d = s.pos then .acc (s.memWrite q a bs) else s.peerSend d .write q o bs.length bs w
  | some (.cxlCfg o) => s.cxlCfgSend .write q o bs.length bs w
  | _ => .acc (s.memWrite q a bs)

/-- An atomic operation on the 8 bytes at physical address `a` (R253). -/
def State.busAtomic (s : State) (q : Req) (a op b d : Nat) (w : Waiter) : BusOut :=
  match regionOf a 8 with
  | some (.peer n o) =>
    if n = s.pos then .acc (s.memAtomic q a op b d) else s.peerSend n (.atomic op) q o 8 (toBytes 8 b ++ toBytes 8 d) w
  | _ => .acc (s.memAtomic q a op b d)

/-- The machine after an access command of a sender: its answer, if it came at once. -/
def BusOut.answer (o : BusOut) (s : State) : State :=
  match o with
  | .acc a => a.s.answer a.st a.data
  | .sent t => t
  | .full => s

/-- A write of the whole value `v` to the register at key `k`, as `q` makes it on the bus. -/
def State.regCmd (s : State) (q : Req) (k v : Nat) : State :=
  if s.held then s
  else
    let a := s.writeReg q (fullW k v)
    a.s.answer a.st

/-! ### The debug port's access (R482) -/

/-- GO of DBG_CMD: one access as the secure controller. -/
def State.dbgGo (s : State) : State :=
  if s.held ∨ s.flag F.DBG_CMD_GO = false ∨ s.outst.any (fun o => o.waiter == .dbg) = true then s
  else
    let a := (s.reg R.DBG_ADDR_HI * 2 ^ 32 + s.reg R.DBG_ADDR_LO) % 2 ^ 44
    let n := 2 ^ s.fld F.DBG_CMD_SIZE
    let write := s.flag F.DBG_CMD_WRITE
    let bs := toBytes n (s.reg R.DBG_DATA_HI * 2 ^ 32 + s.reg R.DBG_DATA_LO)
    if a % n ≠ 0 then ((s.setFld F.DBG_CMD_GO 0).setFld F.DBG_STATUS_MISALIGNED 1).setFld F.DBG_STATUS_ERR 1
    else
      match (if write then s.busWrite s.secReq a bs .dbg else s.busRead s.secReq a n .dbg) with
      | .acc r => r.s.dbgDone write r.st r.data
      | .sent t => t
      | .full => s

end Sys2Proof.Machine
end

