-- ==== Sys2Proof/Machine/Knarn.lean ====
section
/-! DEFINITION. What the Knarn instructions share: register and immediate forms, loads, stores and atomics through
segments, the stack, system registers, and lanes (R240 to R272). -/

namespace Sys2Proof.Machine

/-! ### How an instruction runs (R245, R262 to R264) -/

/-- Thread `t` can execute: it runs, waits for no load, and stands at no boundary where a returned store error (R263), a
pending interrupt (R262) or a STOP (R291) comes first. -/
def State.kReady (s : State) (t : Nat) : Bool :=
  let x := s.th t
  decide (s.thState t = 1) && x.load.isNone && x.badSt.isEmpty && !s.flag (F.CORE_TH_CTRL_STOP t) &&
  !((s.irqAt t).isSome && x.st St.IE && !x.st St.IN_TRAP)

/-- A fetch outside plain memory of the word at `a` (R245): the register space answers at once, a peer window or CXL
when the response returns. Its answer, where it has come, or the machine that waits for it. -/
def State.fetchFar (s : State) (t a : Nat) : State ⊕ Acc :=
  let send : State ⊕ Acc :=
    if s.outst.any (fun o => o.waiter == .fetch t) then .inl s
    else
      match s.busRead (s.kReq t) a 4 (.fetch t) with
      | .acc r => .inr r
      | .sent z => .inl z
      | .full => .inl s
  match (s.th t).fetched with
  | some g => if g.addr = a then .inr ⟨g.st, g.data, s.modTh t (fun x => { x with fetched := none })⟩ else send
  | none => send

/-- Thread `t` fetches and executes the instruction word `w` of pattern `p`, whose effect is `f` (log entry 8). Where the
fetch traps, that trap is taken; where another word stands at PC, nothing happens. -/
def State.kRun (s : State) (t : Nat) (w : BitVec 32) (legal : Nat → Bool) (f : State → Nat → KOut) : State :=
  if s.kReady t && legal w.toNat then
    match s.kFetch t with
    | .bad s' code tval => (KOut.trap s' code tval 0).finish t
    | .word s' n => if n = w.toNat then (f s' n).finish t else s
    | .outside a =>
      match s.fetchFar t a with
      | .inl z => z
      | .inr r =>
        if r.st = .error then (KOut.trap r.s 7 a 0).finish t
        else if (if r.st = .refused then 0 else ofBytes r.data) = w.toNat then (f r.s w.toNat).finish t
        else s
  else s

/-- An instruction of pattern `p`. -/
def State.kInstr (s : State) (t : Nat) (w : BitVec 32) (p : KPat) (f : State → Nat → KOut) : State :=
  s.kRun t w (fun n => p.is n && !kIllegal n) f

/-- A request with the tag of thread `t` to CXL memory that overlaps `n` bytes at `a` is outstanding: accesses of one
thread to one address are seen in program order (R286). -/
def State.cxlAhead (s : State) (t a n : Nat) : Bool :=
  s.outst.any (fun o => s.ofThread t o && decide (4 ≤ o.port) && decide (cxlBase ≤ o.addr) &&
    decide (o.addr < a + n) && decide (a < o.addr + o.size))


/-! ### Operands -/

/-- wA of instruction `n` of thread `t`. -/
def State.wA (s : State) (t n : Nat) : Nat := (s.th t).gpr (kA n)
/-- wB. -/
def State.wB (s : State) (t n : Nat) : Nat := (s.th t).gpr (kB n)
/-- wD. -/
def State.wD (s : State) (t n : Nat) : Nat := (s.th t).gpr (kD n)
/-- wD takes `v`; the instruction is done. -/
def State.putD (s : State) (t n v : Nat) : KOut := .done (s.setW t (kD n) v)

/-- An integer operation of R248 on wA and wB. -/
def kRR (t : Fin 64) (w : BitVec 32) (fn : Nat) (f : Nat → Nat → Alu) (s : State) : State :=
  s.kInstr t w (kFn 0 fn) (fun s n => s.kAlu t (kD n) (f (s.wA t n) (s.wB t n)))

/-- An integer operation of R248 that also reads C. -/
def kRRc (t : Fin 64) (w : BitVec 32) (fn : Nat) (f : Bool → Nat → Nat → Alu) (s : State) : State :=
  s.kInstr t w (kFn 0 fn) (fun s n => s.kAlu t (kD n) (f ((s.th t).st St.C) (s.wA t n) (s.wB t n)))

/-- An integer operation of R248 on wA. -/
def kR1 (t : Fin 64) (w : BitVec 32) (fn : Nat) (f : Nat → Alu) (s : State) : State :=
  s.kInstr t w (kFn 0 fn) (fun s n => s.kAlu t (kD n) (f (s.wA t n)))

/-- IMM16 sign-extended to 64 bits. -/
def immS (n : Nat) : Nat := wrap 64 (sext 16 (kImm n))

/-- An immediate form of R251; `x` is what it makes of the instruction's IMM16. -/
def kRI (t : Fin 64) (w : BitVec 32) (op : Nat) (x : Nat → Nat) (f : Nat → Nat → Alu) (s : State) : State :=
  s.kInstr t w (kOp op) (fun s n => s.kAlu t (kD n) (f (s.wA t n) (x n)))

/-! ### Accesses of a thread (R243, R252, R286) -/

/-- Core stores to the address go to a cache (R281). -/
def cacheable (a : Nat) : Bool :=
  match regionOf a 1 with
  | some (.pool _) => true
  | some (.cxl _) => true
  | _ => false

/-- The pieces `i` to `i + k - 1` of a load are requested; none where a port is full. -/
def State.askPieces (s : State) (t a size : Nat) : Nat → Nat → Option State
  | _, 0 => some s
  | i, k + 1 =>
    match s.busRead (s.kReq t) (a + 8 * i) (min size 8) (.thread t i) with
    | .acc r => (r.s.loadPiece t i r.st r.data).askPieces t a size (i + 1) k
    | .sent s => s.askPieces t a size (i + 1) k
    | .full => none

/-- The load of thread `t` ends if every piece has come; else the thread waits for the rest. -/
def State.loadNow (s : State) (t : Nat) : KOut :=
  match (s.th t).load with
  | none => .stay s
  | some l =>
    if l.got.length + l.bad.length < pieces l.size then .stay s
    else
      let s := s.modTh t (fun x => { x with load := none })
      match l.bad with
      | [] => s.loaded t l
      | a :: r => .trap s 7 (r.foldl min a) 0

/-- A load of `size` bytes at physical address `a`. -/
def State.loadAt (s : State) (t a size : Nat) (d : LoadDest) : KOut :=
  if s.cxlAhead t a size then .stay s
  else
  match (s.modTh t (fun x => { x with load := some { dest := d, addr := a, size := size } })).askPieces t a size 0
      (pieces size) with
  | none => .stay s
  | some s => s.loadNow t

/-- The pieces of a store of `bs` at `a` are sent; none where a port is full. -/
def State.putPiecesK (s : State) (t a : Nat) (bs : List Byte) : Nat → Nat → Option State
  | _, 0 => some s
  | i, k + 1 =>
    let b := (bs.drop (8 * i)).take 8
    match s.busWrite (s.kReq t) (a + 8 * i) b (.thread t i) with
    | .acc r =>
      let z := if cacheable (a + 8 * i) ∧ r.st = .ok then r.s.noteDirty t (a + 8 * i) b.length s else r.s
      let z := if r.st = .error then z.storeBad t (a + 8 * i) else z
      z.putPiecesK t a bs (i + 1) k
    | .sent s => s.putPiecesK t a bs (i + 1) k
    | .full => none

/-- A store of `bs` at physical address `a`; `f` is the rest of the instruction. -/
def State.storeAt (s : State) (t a : Nat) (bs : List Byte) (f : State → KOut) : KOut :=
  if s.cxlAhead t a bs.length then .stay s
  else
  match s.putPiecesK t a bs 0 (pieces bs.length) with
  | none => .stay s
  | some s => f s

/-- An access through segment `g` at offset `off`: a trap, or `f` at its address. -/
def State.viaSeg (s : State) (t g : Nat) (off : Int) (size : Nat) (r w : Bool) (f : State → Nat → KOut) : KOut :=
  match s.segAddr ((s.th t).seg g) off size r w with
  | (.error (code, tval), s) => .trap s code tval g
  | (.ok a, s) => f s a

/-- The offset of format M: wA + sext(IMM13) × size. -/
def State.offM (s : State) (t n size : Nat) : Int := s64 (wrap 64 (s64 (s.wA t n) + sext 13 (bits n 0 13) * (size : Int)))

/-- A load of R252. -/
def kLoad (t : Fin 64) (w : BitVec 32) (op size : Nat) (signed : Bool) (s : State) : State :=
  s.kInstr t w (kOp op) (fun s n => s.viaSeg t (kSgM n) (s.offM t n size) size true false
    (fun s a => s.loadAt t a size (.gpr (kD n) signed)))

/-- A store of R252. -/
def kStore (t : Fin 64) (w : BitVec 32) (op size : Nat) (s : State) : State :=
  s.kInstr t w (kOp op) (fun s n => s.viaSeg t (kSgM n) (s.offM t n size) size false true
    (fun s a => s.storeAt t a (toBytes size (s.wD t n)) .done))

/-- An atomic operation of R253. -/
def kAtomic (t : Fin 64) (w : BitVec 32) (fn : Nat) (s : State) : State :=
  s.kInstr t w (kFn8 0x1C fn) (fun s n => s.viaSeg t (kSgA n) (s64 (s.wA t n)) 8 true true (fun s a =>
    let s' := s.modTh t (fun x => { x with load := some { dest := .gpr (kD n) false, addr := a, size := 8 } })
    if s.cxlAhead t a 8 then .stay s
    else
    match s'.busAtomic (s.kReq t) a fn (s.wB t n) (s.wD t n) (.thread t 0) with
    | .acc r => (r.s.loadPiece t 0 r.st r.data).loadNow t
    | .sent s => .stay s
    | .full => .stay s))

/-! ### Branches and the stack (R254, R255) -/

/-- PC of thread `t`. -/
def State.kPc (s : State) (t : Nat) : Nat := (s.th t).pc.toNat

/-- PC + 4 × `o`. -/
def State.kTarget (s : State) (t : Nat) (o : Int) : Nat := wrap 64 ((s.kPc t : Int) + 4 * o)

/-- A conditional branch: format B holds its registers in bits [25:21] and [20:16]. -/
def kBranch (t : Fin 64) (w : BitVec 32) (op : Nat) (c : Nat → Nat → Bool) (s : State) : State :=
  s.kInstr t w (kOp op) (fun s n =>
    if c ((s.th t).gpr (kD n)) ((s.th t).gpr (kA n)) then s.kJump t (s.kTarget t (sext 16 (kImm n))) else .done s)

/-- A stack access at offset `sp` of sg7, which counts as linear; `w` for a push. -/
def State.viaStack (s : State) (t sp : Nat) (w : Bool) (f : State → Nat → KOut) : KOut :=
  let g := (s.th t).seg 7
  let perm := if w then g.w else g.r
  if ¬ perm then .trap s 3 sp 7
  else if 2 ^ 44 < g.b + g.limit then .trap s 2 sp 7
  else if s64 sp < 0 ∨ (g.limit : Int) - 8 < s64 sp then .trap s 6 sp (if w then 0 else 1)
  else
    let a := g.b + sp
    if a % 8 ≠ 0 then .trap s 4 a 7 else f s a

/-- The offset that a push of thread `t` stores at. -/
def State.pushSp (s : State) (t : Nat) : Nat := wrap 64 (((s.th t).gpr 31 : Int) - 8)

/-- `v` is pushed; `f` is the rest of the instruction. -/
def State.kPush (s : State) (t v : Nat) (f : State → KOut) : KOut :=
  let sp := s.pushSp t
  s.viaStack t sp true (fun s a => s.storeAt t a (toBytes 8 v) (fun s => f (s.setW t 31 sp)))

/-- A call of `target` (R254, R255). -/
def State.kCall (s : State) (t target : Nat) : KOut :=
  if (s.th t).fetchOk target then s.kPush t ((s.kPc t + 4) % 2 ^ 64) (fun s => .jump s target) else .trap s 5 target 0

/-! ### Segments and system registers (R241, R256, R257) -/

/-- sg[`i`] takes `g`, or trap 0x0B. -/
def State.kSetSeg (s : State) (t i : Nat) (g : Seg) (ok : Bool) : KOut :=
  if ok && g.ok then .done (s.modTh t (fun x => x.setSeg i g)) else .trap s 0x0B g.l i

/-- The system register is privileged (R241). -/
def srPriv (n : Nat) : Bool := decide (1 ≤ n) && decide (n ≤ 0x11)

/-- The CORE cycles of the core of thread `t` since its power domain last woke (R241, R291). -/
def State.cycle (s : State) (t : Nat) : Nat :=
  (AMap.get s.clk (t / 8) 0 / 20 - AMap.get s.clk0 (t / 2) 0 / 20) % 2 ^ 64

/-- What MFS reads: TID and CYCLE come from outside the thread's registers. -/
def State.mfsRead (s : State) (t n : Nat) : Nat :=
  if n = Sr.TID then 64 * s.pos + t else if n = Sr.CYCLE then s.cycle t else (s.th t).sr n

/-- ST after a write of `v` (R241): at user level only C, V and DZ; PRIV only by traps; SATTR only cleared. -/
def stWritten (old v : Nat) (priv : Bool) : Nat :=
  let st := putBits old 0 3 v
  if ¬ priv then st
  else
    let st := putBits (putBits st 8 2 (bits v 8 2)) 15 1 (bits v 15 1)
    if bit v St.SATTR then st else putBits st St.SATTR 1 0

/-- The bits of a system register that hold what is written; the others read zero. -/
def srKept (n : Nat) : Nat :=
  if n = Sr.CAUSE then 0x800000000000FFFF else if n = Sr.EST then 0x8F07 else 2 ^ 64 - 1

/-- What MTS writes. -/
def Thread.mts (x : Thread) (n v : Nat) : Thread :=
  if n = Sr.ST then x.setSr n (stWritten (x.sr n) v (x.st St.PRIV))
  else if n = Sr.TID ∨ n = Sr.CYCLE then x
  else x.setSr n (Nat.land v (srKept n))

/-- TRET (R260). -/
def Thread.tret (x : Thread) : Thread :=
  let e := x.sr Sr.EST
  let x := ((x.setSeg 0 ⟨x.sr Sr.ESG0_B, x.sr 0x09⟩).setSeg 7 ⟨x.sr 0x0A, x.sr 0x0B⟩).setGpr 31 (x.sr Sr.ESP)
  ((x.setSt St.PRIV (bit e St.PRIV)).setSt St.IE (bit e St.IE)).setSt St.IN_TRAP false

/-- FENCE waits (R287): accesses of the predecessor set are outstanding, and the successor set names some. -/
def State.fenceWaits (s : State) (t n : Nat) : Bool :=
  decide (bits (kA n) 1 4 ≠ 0) && s.unperformed t (bit (kD n) 4) (bit (kD n) 3) (bit (kD n) 2)

/-! ### Lanes (R266, R267) -/

/-- The element format that X[4] selects. -/
def kFmt (n : Nat) : FloatFmt := if bit (kX n) 4 then b32 else b64

/-- The element in a lane. -/
def laneIn (f : FloatFmt) (v : Nat) : Nat := v % 2 ^ f.width

/-- The flags of an operation are added to the thread's vector status. -/
def Thread.raise (x : Thread) (l : List FFlags) : Thread := { x with vstat := l.foldl (fun a f => Nat.lor a f.toNat) x.vstat }

/-- A vector result and its flags. -/
def State.putV (s : State) (t n : Nat) (l : List (Nat × FFlags)) : KOut :=
  .done (s.modTh t (fun x => (x.raise (l.map (·.2))).setVec (kD n) (l.map (·.1))))

/-- An operation of cp0 on the lanes of vA; the function gets the format. -/
def kV1 (t : Fin 64) (w : BitVec 32) (fn : Nat) (f : FloatFmt → Nat → Nat × FFlags) (s : State) : State :=
  s.kInstr t w (kCp 0x38 fn) (fun s n =>
    s.putV t n (((s.th t).vec (kA n)).map (fun a => f (kFmt n) (laneIn (kFmt n) a))))

/-- An operation of cp0 on the lanes of vA and vB; the function gets the format and a free value of its own. -/
def kV2 (t : Fin 64) (w : BitVec 32) (fn : Nat) (f : FloatFmt → Nat → Nat → Nat → Nat × FFlags) (s : State) : State :=
  s.kInstr t w (kCp 0x38 fn) (fun s n =>
    let x := s.th t
    (s.skipFree 4).putV t n ((List.range 4).map (fun i =>
      f (kFmt n) (Config.freeValue (s.free + i)).toNat (laneIn (kFmt n) (x.lane (kA n) i)) (laneIn (kFmt n) (x.lane (kB n) i)))))

/-- VMIN (`low`) or VMAX: one NaN gives the other operand; zeros of both signs give either. -/
def laneMinMax (low : Bool) (f : FloatFmt) (c a b : Nat) : Nat × FFlags :=
  let fl : FFlags := { nv := fisSNan f a || fisSNan f b }
  if fisNan f a && fisNan f b then (f.nan, fl)
  else if fisNan f a then (b, fl)
  else if fisNan f b then (a, fl)
  else
    match fcompare f a b with
    | some 0 => (if a = b then a else if c % 2 = 0 then a else b, fl)
    | some k => (if (decide (k < 0)) = low then a else b, fl)
    | none => (f.nan, fl)

/-- A comparison: all ones when it holds. A signalling NaN sets NV; whether a quiet one does in `<` and `≤` is free. -/
def laneCmp (ordered : Bool) (p : Int → Bool) (f : FloatFmt) (c a b : Nat) : Nat × FFlags :=
  let nan := fisNan f a || fisNan f b
  let nv := fisSNan f a || fisSNan f b || (ordered && nan && decide (c % 2 = 1))
  match fcompare f a b with
  | some k => (if p k then 2 ^ f.width - 1 else 0, { nv := nv })
  | none => (0, { nv := nv })

/-- Floating point to a signed 64-bit integer, truncated; whether a value with a fraction sets NX is free. -/
def laneToInt (f : FloatFmt) (c a : Nat) : Nat × FFlags :=
  match funpack f a with
  | .nan => (0, { nv := true })
  | .inf neg => (if neg then 2 ^ 63 else 2 ^ 63 - 1, { nv := true })
  | .fin neg m e =>
    let x := ftrunc neg m e
    if satS 64 x.1 = x.1 then (wrap 64 x.1, { nx := x.2 && decide (c % 2 = 1) })
    else (wrap 64 (satS 64 x.1), { nv := true })

/-- A sum of lanes in order, with the flags of every step. -/
def laneSum (f : FloatFmt) (l : List Nat) : Nat × List FFlags :=
  match l with
  | [] => (0, [])
  | a :: r => r.foldl (fun (p : Nat × List FFlags) b => let z := faddFl f p.1 b; (z.1, z.2 :: p.2)) (a, [])

/-- Lane 0 takes the sum, the other lanes zero. -/
def State.putSum (s : State) (t n : Nat) (x : Nat × List FFlags) : KOut :=
  .done (s.modTh t (fun th => (th.raise x.2).setVec (kD n) [x.1, 0, 0, 0]))

/-! ### cp1 to cp3 (R268 to R272) -/

/-- The number of a field register. -/
def kF (r : Nat) : Nat := r % 8

/-- A cp3 operation on fA and fB. -/
def kField (t : Fin 64) (w : BitVec 32) (fn : Nat) (f : Nat → Nat → Nat) (s : State) : State :=
  s.kInstr t w (kCp 0x3B fn) (fun s n =>
    .done (s.modTh t (fun x => x.setFr (kF (kD n)) (f (x.fr (kF (kA n))) (x.fr (kF (kB n))) % p521))))

/-- A SHA-512 function of wA. -/
def kSha (t : Fin 64) (w : BitVec 32) (fn : Nat) (f : Nat → Nat) (s : State) : State :=
  s.kInstr t w (kCp 0x3B fn) (fun s n => s.putD t n (f (s.wA t n)))

/-- HQREAD (R268): the word of the latched half, then that half's EPOCH. With the HSE off the word and STALE are free. -/
def State.hqRead (s : State) (t n : Nat) : KOut :=
  let i := s.wA t n
  if 2559 < i then (s.modTh t (fun x => { x with range := true })).putD t n 0
  else if ¬ s.hseOn then
    let st := bit (s.skipFree).freeVal 0
    ((s.skipFree 2).modTh t (fun x => { x with stale := x.stale || st })).putD t n s.freeVal
  else
    let l := (s.th t).hqL.toNat
    let base := s.hse.result + l % 2 * 0x5000
    let r := s.memRead s.hseReq (base + 8 * i) 8
    let e := r.s.memRead s.hseReq (base + 8) 8
    if r.st = .error then .trap r.s 7 (base + 8 * i) 0
    else if e.st = .error then .trap e.s 7 (base + 8) 0
    else if ofBytes e.data = l ∧ l ≠ 2 ^ 64 - 1 then e.s.putD t n (ofBytes r.data)
    else (e.s.modTh t (fun x => { x with stale := true })).putD t n 0

/-- WAITBEAM (R269): a head above 5, then SCANNING 0, then the rest of a bad target, then the beam's place. -/
def State.waitBeam (s : State) (t n : Nat) : KOut :=
  let a := s.wA t n
  let h := bits a 32 3
  let target := (bits a 16 16, bits a 0 16)
  let scan := bit (kX n) 1
  if 5 < h then s.putD t n 3
  else if ¬ s.scanning h then s.putD t n 1
  else if s.badTarget h target.1 target.2 scan then s.putD t n 3
  else
    let p := s.beamOf h scan
    let wait := KOut.stay (s.kWait t (.beam h target.1 target.2 scan (bit (kX n) 0) (before p target) (s.frameOf h scan) (kD n)))
    if bit (kX n) 0 then wait
    else if p = target then s.putD t n 0
    else if before p target then wait
    else s.putD t n 2

/-- A new arrival at barrier `b` (R136, R270, R289), after the thread's own accesses have been performed; in group scope
its token goes to every peer. -/
def State.barrierNew (s : State) (t n b : Nat) : KOut :=
  let scope := s.fld (F.CST_BAR_CFG_SCOPE b)
  let s := s.modTh t (fun x => { x with arrived := none })
  if s.fld (F.CST_BAR_CFG_EXPECT b) = 0 ∨ (scope = 0 ∧ t / 8 ≠ s.fld (F.CST_BAR_CFG_CLUSTER b)) then s.putD t n 3
  else if s.accessOver t then .stay s
  else
    let g := s.barGen b
    let s := s.modTh t (fun x => { x with arrived := some ⟨b, g, none⟩ })
    let s := if scope = 2 then s.tokens .barrierToken s.livePeers [b] else s
    .stay ((s.barArrive b s.pos).kWait t (.barrier (kD n)))

/-- BARRIER (R270). -/
def State.barrier (s : State) (t n : Nat) : KOut :=
  let b := kX n
  match (s.th t).arrived with
  | some a =>
    if a.bar = b then
      match a.res with
      | some r => if s.accessOver t then .stay s else (s.modTh t (fun x => { x with arrived := none })).putD t n r
      | none => .stay (s.kWait t (.barrier (kD n)))
    else s.barrierNew t n b
  | none => s.barrierNew t n b

/-- SGSUB (R257): a segment inside sg[SGX]. -/
def State.sgSub (s : State) (t n : Nat) : KOut :=
  let g := (s.th t).seg (kSgA n)
  let h : Seg := ⟨g.b + s.wA t n, s.wB t n⟩
  s.kSetSeg t (kD n % 8) h (decide (s.wA t n + h.limit ≤ g.limit) && (!h.r || g.r) && (!h.w || g.w) && (!h.x || g.x))

/-- VSEL (R267): the lane of vA where the lane of vD is not zero. -/
def State.vSel (s : State) (t n : Nat) : KOut :=
  let x := s.th t
  let f := kFmt n
  s.putV t n ((List.range 4).map (fun i =>
    (laneIn f (if laneIn f (x.lane (kD n) i) ≠ 0 then x.lane (kA n) i else x.lane (kB n) i), {})))

/-- VDOT (R267): each product is rounded, the sum is taken in order. -/
def State.vDot (s : State) (t n : Nat) : KOut :=
  let f := kFmt n
  let p := (List.range 4).map (fun i => fmulFl f (laneIn f ((s.th t).lane (kA n) i)) (laneIn f ((s.th t).lane (kB n) i)))
  let z := laneSum f (p.map (·.1))
  s.putSum t n (z.1, p.map (·.2) ++ z.2)

/-- VSTAT (R267): the flags, cleared when X[0] is 1. -/
def State.vStat (s : State) (t n : Nat) : KOut :=
  let v := (s.th t).vstat
  (if bit (kX n) 0 then s.modTh t (fun x => { x with vstat := 0 }) else s).putD t n v

/-- MFS (R241). -/
def State.kMfs (s : State) (t n : Nat) : KOut :=
  let o := s.putD t n (s.mfsRead t (kB n))
  if srPriv (kB n) then s.kPriv t n o else o

/-- MTS (R241). -/
def State.kMts (s : State) (t n : Nat) : KOut :=
  let o := KOut.done (s.modTh t (fun x => x.mts (kB n) (x.gpr (kA n))))
  if srPriv (kB n) then s.kPriv t n o else o

/-- HQLATCH (R268). -/
def State.hqLatch (s : State) (t n : Nat) : KOut :=
  let e := if s.flag F.HSE_STATUS_PUBLISHED then s.reg R.HSE_EPOCH_HI * 2 ^ 32 + s.reg R.HSE_EPOCH_LO else 2 ^ 64 - 1
  (s.modTh t (fun x => { x with hqL := BitVec.ofNat 64 e })).putD t n e

/-- HQSTAT (R268). -/
def State.hqStat (s : State) (t n : Nat) : KOut :=
  let x := s.th t
  (s.modTh t (fun x => { x with stale := false, range := false })).putD t n (b2n x.stale + 2 * b2n x.range)

end Sys2Proof.Machine
end

