-- ==== Sys2Proof/Machine/ExecBranch.lean ====
section
/-! DEFINITION. What the commands do: the branches, calls and stack operations of Knarn (R254, R255). -/

namespace Sys2Proof.Machine

/-- R254: BEQ branches when wA equals wB. -/
def execBeq (t : Fin 64) (w : BitVec 32) (s : State) : Result := .next (kBranch t w 0x20 (fun a b => a == b) s)

/-- R254: BNE branches when wA differs from wB. -/
def execBne (t : Fin 64) (w : BitVec 32) (s : State) : Result := .next (kBranch t w 0x21 (fun a b => a != b) s)

/-- R254: BLT branches on signed less than. -/
def execBlt (t : Fin 64) (w : BitVec 32) (s : State) : Result :=
  .next (kBranch t w 0x22 (fun a b => decide (s64 a < s64 b)) s)

/-- R254: BGE branches on signed greater or equal. -/
def execBge (t : Fin 64) (w : BitVec 32) (s : State) : Result :=
  .next (kBranch t w 0x23 (fun a b => decide (s64 b ≤ s64 a)) s)

/-- R254: BLTU branches on unsigned less than. -/
def execBltu (t : Fin 64) (w : BitVec 32) (s : State) : Result :=
  .next (kBranch t w 0x24 (fun a b => decide (a < b)) s)

/-- R254: BGEU branches on unsigned greater or equal. -/
def execBgeu (t : Fin 64) (w : BitVec 32) (s : State) : Result :=
  .next (kBranch t w 0x25 (fun a b => decide (b ≤ a)) s)

/-- R254: J jumps to PC plus an offset. -/
def execJ (t : Fin 64) (w : BitVec 32) (s : State) : Result :=
  .next (s.kInstr t w (kOp 0x26) (fun s n => s.kJump t (s.kTarget t (sext 26 (bits n 0 26)))))

/-- R254: CALL pushes the return offset and jumps. -/
def execCall (t : Fin 64) (w : BitVec 32) (s : State) : Result :=
  .next (s.kInstr t w (kOp 0x27) (fun s n => s.kCall t (s.kTarget t (sext 26 (bits n 0 26)))))

/-- R255: JR jumps to wA after checking the target. -/
def execJr (t : Fin 64) (w : BitVec 32) (s : State) : Result :=
  .next (s.kInstr t w (kFn 0x28 0) (fun s n => s.kJump t (s.wA t n)))

/-- R255: CALLR pushes the return offset and jumps to wA. -/
def execCallr (t : Fin 64) (w : BitVec 32) (s : State) : Result :=
  .next (s.kInstr t w (kFn 0x28 1) (fun s n => s.kCall t (s.wA t n)))

/-- R255: RET pops the return offset and jumps to it. -/
def execRet (t : Fin 64) (w : BitVec 32) (s : State) : Result :=
  .next (s.kInstr t w (kFn 0x28 2) (fun s _ => s.viaStack t ((s.th t).gpr 31) false (fun s a => s.loadAt t a 8 .ret)))

/-- R255: PUSH stores wA on the sg7 stack. -/
def execPush (t : Fin 64) (w : BitVec 32) (s : State) : Result :=
  .next (s.kInstr t w (kFn 0x28 3) (fun s n => s.kPush t (s.wA t n) .done))

/-- R255: POP loads wD from the sg7 stack. -/
def execPop (t : Fin 64) (w : BitVec 32) (s : State) : Result :=
  .next (s.kInstr t w (kFn 0x28 4)
    (fun s n => s.viaStack t ((s.th t).gpr 31) false (fun s a => s.loadAt t a 8 (.pop (kD n)))))

end Sys2Proof.Machine
end

