-- ==== Sys2Proof/Machine/CstTick.lean ====
section
/-! DEFINITION. The group tick and what hangs on it: epoch stores, the gate, snapshot copies, publication (R129, R130,
R138, R139), and reset requests (R140). -/

namespace Sys2Proof.Machine

/-! ### The tick (R129, R138) -/

/-- A pending epoch store is made; register space takes only 4 bytes. -/
def State.makeStore (s : State) (e : EStore) : State :=
  let inRegs : Bool := match regionOf e.addr e.data.length with
    | some (.reg _) => true
    | _ => false
  if inRegs ∧ e.data.length ≠ 4 then s
  else
    match s.busWrite e.req e.addr e.data .nobody with
    | .acc a => a.s
    | .sent t => t
    | .full => s

/-- The stores due at epoch `e` are applied: issuers in ascending position, each one's in order of issue. One whose own
epoch has passed sets LATE. -/
def State.applyStores (s : State) (e : Nat) : State :=
  let due := (List.range 4).flatMap (fun p => s.cst.stores.filter (fun x => x.issuer == p && decide (x.epoch ≤ e)))
  let late := due.any (fun x => decide (x.epoch < e))
  let s := { s with cst := { s.cst with stores := s.cst.stores.filter (fun x => decide (e < x.epoch)) } }.storeCount
  let s := if late then s.setFld F.CST_BCAST_STATUS_LATE 1 else s
  due.foldl State.makeStore s

/-- The tick that has not reached the HSE reaches it (R130): at once when every copy due to this device has landed, else
20 µs after its scheduled time. Older votes close (R133). -/
def State.tickReach (s : State) : State :=
  match s.cst.due with
  | none => s
  | some (e, t, p) =>
    let waits := s.cst.jobs.any (fun j => j.epoch == e && !j.onPublish && (!j.group || s.isLive s.pos))
    let s := if waits then s.untilStc ((t + 2000) % 2 ^ 64) else s
    let done := s.cst.done.filter (fun x => decide (e ≤ x))
    let votes := s.cst.votes.map (fun v => { v with closed := v.closed || decide (v.epoch < e) })
    let s := { s with cst := { s.cst with due := none, reached := e, done := done, votes := votes } }
    s.hseTick e t p

/-- Ticks run: not in cold reset, and not before the boot procedure that follows it has started (R498). -/
def State.ticks (s : State) : Bool := !s.held && !(s.sec.boot && s.flag F.PWR_RESET_CAUSE_COLD)

/-- The next tick falls (R129, R500). -/
def State.groupTick (s : State) : State :=
  if ¬ s.ticks then s
  else
    let s := s.tickReach
    let s := s.untilStc s.cst.next
    let e := (s.reg R.CST_EPOCH + 1) % 2 ^ 64
    let s := s.setReg R.CST_EPOCH e
    let c := s.cst
    let p := (c.next + 2 ^ 64 - c.sched) % 2 ^ 64 / 100
    let per := s.periodAfter e
    let next := (c.next + s.tickSpan per) % 2 ^ 64
    let c := { c with prev := c.sched, sched := c.next, period := per, due := some (e, c.next, p), next := next, snap := s.snapLatch }
    let s := { s with cst := c }
    ((s.fire Src.CST_TICK).snapTick e).applyStores e

/-! ### Snapshots (R130, R139) -/

/-- The bytes of `n` pieces of 64 from `a`, as they read: an error response leaves a piece out. -/
def State.snapRead (s : State) (q : Req) (a : Nat) : Nat → List (List Byte) × State
  | 0 => ([], s)
  | n + 1 =>
    let r := s.memRead q a 64
    let z := State.snapRead r.s q (a + 64) n
    (r.data :: z.1, z.2)

/-- The pieces are written from `a` on, then the epoch. -/
def State.snapWrite (s : State) (q : Req) (a e : Nat) : List (List Byte) → State
  | [] => (s.memWrite q a (toBytes 8 e)).s
  | b :: r =>
    let s := if b.isEmpty then s else (s.memWrite q a b).s
    State.snapWrite s q (a + 64) e r

/-- A copy of epoch `e` that the gate has closed on is discarded and counted. -/
def State.snapLand (s : State) (q : Req) (a e : Nat) (gated : Bool) (l : List (List Byte)) : State :=
  if gated && decide (e ≤ s.cst.reached) then s.bump R.CST_SNAP_LATE
  else s.snapWrite q a e l

/-- The first copy of region `n` that is due is made. -/
def State.snapCopy (s : State) (n : Nat) : State :=
  match takeFirst (fun (j : SnapJob) => j.region == n) s.cst.jobs with
  | none => s
  | some (j, rest) =>
    let s := { s with cst := { s.cst with jobs := rest } }
    let q := s.engine j.owner j.s
    let r := s.snapRead q j.src j.units
    let s := r.2
    let out (s : State) (p : Nat) : State :=
      s.emit ⟨.snapshotData, [p, j.dst, j.epoch, b2n (!j.onPublish), q.tag.toNat, b2n q.s], r.1.flatten⟩
    if j.group then
      let s := s.livePeers.foldl out s
      if s.isLive s.pos then s.snapLand q j.dst j.epoch (!j.onPublish) r.1 else s
    else s.snapLand q j.dst j.epoch (!j.onPublish) r.1

/-- `bs` in pieces of 64 bytes. -/
def pieces64 (bs : List Byte) : List (List Byte) :=
  (List.range ((bs.length + 63) / 64)).map (fun i => (bs.drop (64 * i)).take 64)

/-- Snapshot data of a peer lands: written under the peer's requester, or discarded when late. -/
def State.snapReceive (s : State) (p : Nat) (q : Req) (a e : Nat) (gated : Bool) (bs : List Byte) : State :=
  if s.held ∨ ¬ s.isLive p ∨ posOf q ≠ p ∨ p = s.pos then s else s.snapLand q a e gated (pieces64 bs)

/-! ### Publication and the vote -/

/-- The carried state after the publication of epoch `e` (R131). -/
def State.carried (s : State) (e : Nat) : Carried :=
  { epoch := e, modelId := s.reg R.HSE_MODEL_ID, sol := s.hse.sol, tanks := s.hse.tanks, prev := s.hse.prev,
    fails := s.hse.fails, sfOver := s.hse.sfOver, bmOver := s.hse.bmOver, pts := s.hse.pts }

/-- An optional number: present or not, and its value. -/
def optWords : Option Nat → List Nat
  | none => [0]
  | some n => [1, n]

/-- The carried state as numbers and bytes, in the order of its fields (log entry 47). -/
def carriedOut (c : Carried) (p : Nat) : Out :=
  ⟨.carriedState,
   [p, c.epoch, c.modelId] ++ (match c.sol with | none => [0] | some x => [1, x.1, x.2.1, x.2.2]) ++
   [c.fails, c.sfOver, c.bmOver, (c.prev.getD []).length, (c.pts.getD []).length] ++
   c.tanks.flatMap (fun t => t.1 :: (optWords t.2.snd ++ optWords t.2.tmp ++ optWords t.2.den ++ optWords t.2.stamp ++
     [t.2.h, t.2.vp, t.2.r])),
   c.prev.getD [] ++ c.pts.getD []⟩

/-- The carried state goes to every LIVE peer that asks for that of the epoch `e` just published (R131). -/
def State.sendCarried (s : State) (e : Nat) : State :=
  (s.livePeers.filter (fun p => (s.cst.asks.find? (fun (x : Nat × Nat) => x.1 == p)).any (fun x => x.2 == e % 2 ^ 32))).foldl
    (fun (a : State) p => a.emit (carriedOut (s.carried e) p)) s

/-- Step 11 of the live cycle with what the Constellation unit does on it (R101, R131, R132, R133, R139). -/
def State.publish (s : State) (lat : Nat) : State :=
  let half := s.hse.result
  match s.publication lat with
  | (s, none) => s
  | (s, some (e, d)) => ((s.votePublish e d).sendCarried e).snapPublish e (half + e % 2 * 0x5000)

/-! ### Reset requests (R140) -/

/-- A reset request of the peer at position `p` arrives. With QUORUM 2 a granted request that is the only one so far is
kept for 1 ms. -/
def State.resetRequest (s : State) (p : Nat) : State :=
  if s.held ∨ p = s.pos then s
  else
    let quorum := s.fld F.CST_RESET_GRANT_QUORUM
    let granted := bit (s.fld F.CST_RESET_GRANT_GRANT) p
    let recent := s.cst.resets.filter (fun e => decide (s.now ≤ e.2 + 500000))
    if ¬ granted ∨ quorum = 0 then (s.bump R.CST_RESET_REFUSED).fire Src.CST_RESET_REFUSED
    else if quorum = 1 ∨ recent.any (fun e => e.1 != p && bit (s.fld F.CST_RESET_GRANT_GRANT) e.1) = true then
      s.warmReset 3 p
    else { s with cst := { s.cst with resets := (p, s.now) :: recent.filter (fun e => e.1 != p) } }

end Sys2Proof.Machine
end

