-- ==== Sys2Proof/Machine/TradewindMove.lean ====
section
/-! DEFINITION. The pieces that Tradewind moves (R392 to R397). -/

namespace Sys2Proof.Machine

/-! ### Elements -/

/-- A scatter/gather element (R392). -/
structure TwdElem where
  addr  : Nat
  len   : Nat
  flags : Nat
  deriving DecidableEq, Repr

def twdElem (b : List Byte) : TwdElem := ⟨leAt b 0 8, leAt b 8 4, leAt b 12 4⟩

/-- The first byte of use `k`. -/
def TwdElem.at (e : TwdElem) (k : Nat) : Nat := if bit e.flags 0 then e.addr else e.addr + k * e.len

/-- Use `k` touches register space (R396). -/
def TwdElem.inRegs (e : TwdElem) (k : Nat) : Bool :=
  decide (e.at k < regBase + 0x10000000) && decide (regBase < e.at k + e.len)

/-- The element is bad at its use `k` (R398). -/
def TwdElem.bad (e : TwdElem) (k : Nat) : Bool :=
  decide (e.len = 0) || decide (bits e.flags 1 15 ≠ 0) || decide (2 ^ 44 ≤ e.addr) ||
  (e.inRegs k && (decide (e.at k % 4 ≠ 0) || decide (e.len % 4 ≠ 0)))

/-- How many bytes of use `k` from offset `o` on one access may take: up to the end of the 64-byte line, or in register
space an aligned piece of 4, 8 or 16 bytes (R395, R396). -/
def TwdElem.most (e : TwdElem) (k o : Nat) : Nat :=
  let a := e.at k + o
  let left := e.len - o
  if e.inRegs k then
    if a % 16 = 0 ∧ 16 ≤ left then 16 else if a % 8 = 0 ∧ 8 ≤ left then 8 else 4
  else min left (64 - a % 64)

/-! ### Accesses -/

/-- A request that leaves the device and whose answer the command brings. -/
def State.twdOut (s : State) (p : Nat) (o : Out) (st : Status) (bs : List Byte) : Option Acc :=
  if 256 ≤ (s.outAt p).length then none else some ⟨st, bs, s.emit o⟩

/-- A read of `n` bytes at `a`; what comes from outside the device is answered `st` with `bs`. None while the port is
full. -/
def State.twdRead (s : State) (q : Req) (a n : Nat) (st : Status) (bs : List Byte) : Option Acc :=
  let bs := if st = .ok then padTo n bs else []
  match s.busRead q a n .nobody with
  | .acc x => some x
  | .full => none
  | .sent _ =>
    match regionOf a n with
    | some (.peer d o) => s.twdOut d ⟨.peerRequest, [d, 0, o, n, q.tag.toNat, b2n q.s], []⟩ st bs
    | _ => s.twdOut (4 + (cxlCfgAt (a - cxlCfgBase)).1) ⟨.cxlRequest, [(cxlCfgAt (a - cxlCfgBase)).1, 0, a, n], []⟩ st bs

/-- A write of `bs` at `a`; outside the device it is answered `st`. -/
def State.twdPut (s : State) (q : Req) (a : Nat) (bs : List Byte) (st : Status) : Option Acc :=
  match s.busWrite q a bs .nobody with
  | .acc x => some x
  | .full => none
  | .sent _ =>
    match regionOf a bs.length with
    | some (.peer d o) => s.twdOut d ⟨.peerRequest, [d, 1, o, bs.length, q.tag.toNat, b2n q.s], bs⟩ st []
    | _ =>
      s.twdOut (4 + (cxlCfgAt (a - cxlCfgBase)).1) ⟨.cxlRequest, [(cxlCfgAt (a - cxlCfgBase)).1, 1, a, bs.length], bs⟩ st []

/-! ### Places in the lists -/

/-- `n` bytes of the source use have been read: the next use, and the next element, follow its end. -/
def TwdPos.read (p : TwdPos) (e : TwdElem) (n : Nat) : TwdPos :=
  if p.srcOff + n < e.len then { p with srcOff := p.srcOff + n }
  else if p.srcUse < bits e.flags 16 16 then { p with srcOff := 0, srcUse := p.srcUse + 1 }
  else { p with srcOff := 0, srcUse := 0, srcE := p.srcE + 1 }

/-- `n` bytes of the destination use have been written. -/
def TwdPos.wrote (p : TwdPos) (e : TwdElem) (n : Nat) : TwdPos :=
  let p := { p with moved := p.moved + n, buf := p.buf.drop n }
  if p.dstOff + n < e.len then { p with dstOff := p.dstOff + n }
  else if p.dstUse < bits e.flags 16 16 then { p with dstOff := 0, dstUse := p.dstUse + 1 }
  else { p with dstOff := 0, dstUse := 0, dstE := p.dstE + 1 }

/-- Channel `c` has a piece ready: a transfer that neither ends, halts, stops nor waits for its pace. -/
def State.twdReady (s : State) (c : Nat) : Bool :=
  let x := s.tw c
  match x.desc with
  | none => false
  | some d => x.code.isNone && !s.twdHalted c && (decide (d.pace = 0) || x.pos.use) &&
      !((s.ringSt (.twd c)).stopping && s.twdAtBound c)

/-- The channel that the next access slot serves (R397). -/
def State.twdNext (s : State) : Option Nat :=
  ((List.range 32).map (fun i => (s.twd.last + 1 + i) % 32)).find? s.twdReady

/-- Element `i` of the list at `a`, read under the ring's requester. -/
def State.twdElemAt (s : State) (q : Req) (a i : Nat) : Except (Nat × Status) TwdElem × State :=
  let r := s.memRead q (a + 16 * i) 16
  match r.st with
  | .ok => (.ok (twdElem r.data), r.s)
  | st => (.error (a + 16 * i, st), r.s)

/-- After a piece: the element boundary, the end of a paced use, the end of a list (R393, R400, R403). -/
def State.twdAfter (s : State) (c : Nat) (d : TwdDesc) (p : TwdPos) (srcEnd dstEnd dstRegs : Bool) : State :=
  let x := s.tw c
  if x.desc.isNone then s else
  let past := decide (d.pace ≠ 0) && (if d.paceDst then dstEnd else decide (p.srcOff = 0) && (p.buf.isEmpty || dstRegs))
  let p := if past then { p with use := false } else p
  let b := if srcEnd || dstEnd || past then p else x.bound
  let s := s.setTw c { x with pos := p, bound := b, counted := max x.counted p.moved,
                              ready := if past then s.now + 2 else x.ready }
  let s := if past then s.setFld (F.TWD_CH_STATUS_PACE_WAIT c) 1 else s
  let dOver := decide (p.dstE = d.nDst)
  let sOver := decide (p.srcE = d.nSrc) && (p.buf.isEmpty || dstRegs)
  if dOver || sOver then
    let q := { p with dstE := min p.dstE (d.nDst - 1), srcE := min p.srcE (d.nSrc - 1) }
    let code := if dOver && decide (p.srcE = d.nSrc) && p.buf.isEmpty then 0 else 1
    ((s.setTw c { s.tw c with pos := q, bound := q }).twdShow c).twdEnd c code
  else (s.twdShow c).twdCancelCheck c

/-- One piece of channel `c` (R395): what is read from outside the device is answered `rst` with `rdata`, what is written
there `wst`. -/
def State.twdMove (s : State) (c : Nat) (rst : Status) (rdata : List Byte) (wst : Status) : State :=
  let x := s.tw c
  match x.desc with
  | none => s
  | some d =>
    let q := s.ringReq (.twd c)
    let p := x.pos
    let s0 := s
    let s := { s with twd := { s.twd with last := c } }
    let de := s.twdElemAt q d.dst p.dstE
    match de.1 with
    | .error (a, st) => de.2.twdFail a (twdCause st false)
    | .ok t =>
      let se := de.2.twdElemAt q d.src (min p.srcE (d.nSrc - 1))
      match se.1 with
      | .error (a, st) => se.2.twdFail a (twdCause st false)
      | .ok f =>
        let s := se.2
        let more := decide (p.srcE < d.nSrc)
        if t.bad p.dstUse || (more && f.bad p.srcUse) then s.twdEnd c 5
        else
          let nw := t.most p.dstUse p.dstOff
          let regs := t.inRegs p.dstUse
          let nr := if ¬ more then 0
            else if f.inRegs p.srcUse ∧ regs = false then
              (if p.buf.isEmpty then f.most p.srcUse p.srcOff else 0)
            else min (f.most p.srcUse p.srcOff) (nw - p.buf.length)
          let ra := f.at p.srcUse + p.srcOff
          let rd : Option Acc := if nr = 0 then some (okAcc s) else s.twdRead q ra nr rst rdata
          match rd with
          | none => s0
          | some r =>
            if r.st ≠ .ok then r.s.twdFail ra (twdCause r.st false)
            else
              let p := if nr = 0 then p else { p.read f nr with buf := p.buf ++ r.data }
              let srcEnd := decide (0 < nr) && decide (p.srcOff = 0)
              let n := min p.buf.length nw
              if n = 0 ∨ (regs = true ∧ n < nw) then r.s.twdAfter c d p srcEnd false regs
              else
                let wa := t.at p.dstUse + p.dstOff
                let bs := r.s.jobBytes (.twd c) (p.buf.take n)
                match bs.2.twdPut q wa bs.1 wst with
                | none => s0
                | some w =>
                  if w.st ≠ .ok then w.s.twdFail wa (twdCause w.st true)
                  else
                    let p := p.wrote t n
                    w.s.twdAfter c d p srcEnd (decide (p.dstOff = 0)) regs

/-- The engine's next access slot. -/
def State.twdPiece (s : State) (rst : Status) (rdata : List Byte) (wst : Status) : State :=
  match s.twdNext with
  | none => s
  | some c => s.twdMove c rst rdata wst

end Sys2Proof.Machine
end

