-- ==== Sys2Proof/Machine/Tasks.lean ====
section
/-! DEFINITION. What task inputs do with the pulses that reach them (R360, R361). -/

namespace Sys2Proof.Machine

/-- The consumer of task input `t` is busy (R361); the upper channel of a linked pair takes nothing (R370). -/
def State.taskBusy (s : State) (t : Nat) : Bool :=
  if t < 32 then s.flag (F.TIM_STATUS_COUNTING t) && !s.timUpper t
  else if 96 ≤ t ∧ t < 128 then s.twdTrigBusy (t - 96)
  else false

/-- An event that reached task input `t` in cycle `at_` is taken (R361). -/
def State.taskTake (s : State) (t at_ : Nat) : State :=
  if t < 32 then s.timArm t
  else if t < 64 then s.timStop (t - 32)
  else if t < 96 then s.timCapture (t - 64)
  else if t < 128 then s.twdTrigger (t - 96)
  else if t < 160 then s.galEvent (t - 128) at_
  else s.lullEvent (t - 160)

/-- Time passes until the first pulse under way to task input `t` reaches it, where no event waits there. -/
def State.taskAwait (s : State) (t : Nat) : State :=
  if s.tasks.any (fun (e : Nat × Nat) => e.1 == t) then s
  else
    match s.hops.find? (fun (e : Nat × Nat) => (s.tasksOf e.2).contains t) with
    | some e => s.until e.1
    | none => s

/-- The first event that has reached task input `t` is taken, or dropped while its consumer is busy (R361). -/
def State.taskEvent (s : State) (t : Nat) : State :=
  let s := s.taskAwait t
  match takeFirst (fun (e : Nat × Nat) => e.1 == t) s.tasks with
  | none => s
  | some (e, rest) =>
    let s : State := { s with tasks := rest }
    if s.taskBusy t then s.setFld (F.BRZ_TASK_CTL_OVERRUN t) 1 else s.taskTake t e.2

end Sys2Proof.Machine
end

