-- ==== Sys2Proof/Machine/Commands.lean ====
section
/-! DEFINITION. What single commands add to the shared operations: which ring a number names, a ring's stop, requests of a
given kind, arrivals from outside. -/

namespace Sys2Proof.Machine

/-- The outcome of an access command: its answer stands in State.resp. -/
def Acc.answered (a : Acc) : State := a.s.answer a.st a.data

/-- Ring `r` of the 66 rings. -/
def ringAt (r : Fin 66) : Ring := allRings.getD r.val (.hse 0)

/-- Ring `r` stops at its engine's boundary where its ENABLE was cleared (R532). A write-back ring stops at its write. -/
def State.ringStopAt (s : State) (r : Ring) : State :=
  match r with
  | .hse n => s.sweepStop n
  | .sql n => s.sqlStop n
  | .wb _ => s
  | .twd n => s.twdStop n
  | .gal n => s.galStop n
  | .ethTx n => s.ethStop n false
  | .ethRx n => s.ethStop n true

/-- A request of kind `k` at address `a` for a sender: `n` bytes read, `data` written, or an atomic operation whose wB
and wD are the two words of `data`. -/
def State.busAccess (s : State) (k : ReqKind) (q : Req) (a n : Nat) (data : List Byte) : BusOut :=
  match k with
  | .read => s.busRead q a n .sender
  | .write => s.busWrite q a data .sender
  | .atomic op => s.busAtomic q a op (leAt data 0 8) (leAt data 8 8) .sender

/-- The self-test at a free candidate boundary: a queued one begins, then one candidate is evaluated (R123, R124). -/
def State.selftestRun (s : State) (lat : Nat) : State := s.selftestStart.selftestCandidate lat

/-- The carried state arrives at a device that has armed adoption (R131). -/
def State.adoptArrive (s : State) (c : Carried) : State :=
  if s.hseOn && s.flag F.HSE_ADOPT_ARM then { s with hse := { s.hse with arrived := some c } } else s

/-- A barrier token of the member at position `p` (R136). -/
def State.barToken (s : State) (n p : Nat) : State :=
  if s.isLive p && p != s.pos && s.fld (F.CST_BAR_CFG_SCOPE n) == 2 then s.barArrive n p else s

/-- A command on the Meridian sequencer of head `n`, which is unpredictable once its running program has been written
(U-06). -/
def State.meridian (s : State) (n : Nat) (f : State → State) : Result :=
  if s.held then .next s else if (s.head n).u06 then .fault (.meridianUnpredictable n) else .next (f s)

/-- The level `v` at the pad of DP_HPD_n has passed the synchroniser, where the pin carries that signal (R160, R336). -/
def State.hpdInput (s : State) (n : Nat) (v : Bool) : State :=
  if s.pinTo (232 + n) 7 then s.pinDetect (232 + n) (some v) else s

/-- The link of CXL port `p` goes down (R436). -/
def State.cxlLost (s : State) (p : Nat) : State :=
  if s.fld (F.CXL_STATUS_LINK_STATE p) = 2 then s.cxlDown p else s

/-- A write of KEY to SEC_SCRAP; `bad` says that the burn fails. -/
def State.scrapCmd (s : State) (q : Req) (key : Nat) (bad : Bool) : State :=
  if s.blockOn 0x03 then (secWrite s q (fullW R.SEC_SCRAP key) bad).answered else s.regCmd q R.SEC_SCRAP key

/-- The register writes that engines have sent cross into their islands, in the order sent (R21, R22). -/
def State.settle (s : State) : State :=
  s.posted.foldl (fun (s : State) p => (s.regWrite p.req p.data.length p.at_ p.data).s) { s with posted := [] }

/-- With no command waiting one GUST cycle passes (log entry 1), and what is due by then is sent; in cold reset only the
time outside passes. -/
def State.idle (s : State) : State := if s.held then { s with now := s.now + 1 } else (s.settle.pass 1).sendTokens

end Sys2Proof.Machine
end

