-- ==== Sys2Proof/Machine/ExecBreeze.lean ====
section
/-! DEFINITION. What the commands do: the Breeze network and the timers (chapters 14 and 15). -/

namespace Sys2Proof.Machine

/-- R354: A source pulse arrives at a Breeze channel and passes or fails its gate. `src` is the code of the source. -/
def execSourceEvent (c : Fin 256) (src : Fin 1024) (s : State) : Result := .next (s.outOfReset fun s => s.sourceEvent c src)

/-- R353: A Breeze channel emits its pulse two cycles after a passed event. -/
def execChannelPulse (c : Fin 256) (s : State) : Result := .next (s.outOfReset fun s => s.chPulse c)

/-- R357: A held event is emitted when the spacing window allows. -/
def execHeldEmit (c : Fin 256) (s : State) : Result := .next (s.outOfReset fun s => s.chHeld c)

/-- R356: A write to BRZ_FIRE places a direct fire at a channel. `rest` is what is written to its reserved bits. -/
def execBrzFire (q : Req) (c : Fin 256) (rest : BitVec 24) (s : State) : Result :=
  .next (s.regCmd q R.BRZ_FIRE (c + 256 * rest.toNat))

/-- R360: A watched channel's pulse reaches a task input and is taken or dropped as OVERRUN. The input is 32 × g + k. -/
def execTaskInputEvent (g : Fin 8) (k : Fin 32) (s : State) : Result := .next (s.outOfReset fun s => s.taskEvent (32 * g + k))

/-- R368: ARM restarts a timer channel's count. -/
def execTimArm (q : Req) (c : Fin 32) (v : BitVec 32) (s : State) : Result :=
  .next (s.regCmd q (R.TIM_CTRL c) (withBit v (F.TIM_CTRL_ARM c)))

/-- R366: STOP ends a channel's count. -/
def execTimStop (q : Req) (c : Fin 32) (v : BitVec 32) (s : State) : Result :=
  .next (s.regCmd q (R.TIM_CTRL c) (withBit v (F.TIM_CTRL_STOP c)))

/-- R366: CAPTURE copies the count into CAPT. -/
def execTimCapture (q : Req) (c : Fin 32) (v : BitVec 32) (s : State) : Result :=
  .next (s.regCmd q (R.TIM_CTRL c) (withBit v (F.TIM_CTRL_CAPTURE c)))

/-- R366: A prescaler interval expires and the count advances. -/
def execTimTick (c : Fin 32) (s : State) : Result := .next (s.outOfReset fun s => s.timTick c)

/-- R372: SET loads the system time counter while ALONE. -/
def execSet (q : Req) (s : State) : Result := .next (s.regCmd q R.SYS_TIME_CMD 1)

end Sys2Proof.Machine
end

