-- ==== Sys2Proof/Machine/ExecBus.lean ====
section
/-! DEFINITION. What the commands do: register accesses, doorbells and rings (chapters 1 and 19). -/

namespace Sys2Proof.Machine

/-- R21: A write to a register with no behaviour of its own takes effect in its island within the block's write bound.
`o` is the offset in register space; a register with a behaviour of its own shows it. -/
def execRegisterWrite (q : Req) (o : Nat) (bs : List Byte) (s : State) : Result :=
  .next (s.outOfReset fun s => (s.busWrite q (regBase + o) bs .sender).answer s)

/-- R29: A write of PROD_IDX to a ring doorbell is accepted or refused with DB_ERR and RING_DB_ERR. `r` numbers the
rings as in RING_STOP; `p` is the word written. -/
def execDoorbellWrite (q : Req) (r : Fin 66) (p : BitVec 32) (s : State) : Result :=
  .next (s.regCmd q (ringAt r).dbKey p.toNat)

/-- R532: A write of ENABLE to a ring: 0 to 1 zeroes both indices, 1 to 0 requests a stop at the engine's next
boundary. `r` numbers the rings as in RING_STOP. -/
def execRingEnable (q : Req) (r : Fin 66) (v : BitVec 32) (s : State) : Result :=
  .next (s.regCmd q (ringAt r).cfgKey v.toNat)

/-- R532: A ring whose ENABLE was cleared stops at its engine boundary, abandoning the job in progress without a
record. `r` numbers the 66 rings: HSE, Squall, write-back, Tradewind, Gale, Ethernet TX and RX. -/
def execRingStop (r : Fin 66) (s : State) : Result := .next (s.outOfReset fun s => s.ringStopAt (ringAt r))

end Sys2Proof.Machine
end

