-- ==== Sys2Proof/Machine/ExecCompose.lean ====
section
/-! DEFINITION. What the commands do: the composer, write-back and Starfix (chapters 6 and 7). -/

namespace Sys2Proof.Machine

/-- R200: The composer builds a head's line from the layer stack once allowed by LEAD. -/
def execLineCompose (n : Fin 6) (s : State) : Result := .next (s.outOfReset fun s => s.lineCompose n)

/-- R202: A composed line is committed to the frame store through port A. `drained`: how many lines of the write-back
queue have been written by then (R217). -/
def execLineCommit (n : Fin 6) (drained : Nat) (s : State) : Result := .next (s.outOfReset fun s => s.lineCommit n drained)

/-- R203: A line not complete at its cut-off is discarded, counted and HEAD_LATE fires. -/
def execLineLate (n : Fin 6) (s : State) : Result := .next (s.outOfReset fun s => s.lineLate n)

/-- R211: In free time the composer flattens an INVALID tile into a slot. -/
def execFlattenTile (s : State) : Result := .next (s.outOfReset fun s => s.flattenTile)

/-- R210: A write of FC_EN enables the flatten cache or invalidates every tile. -/
def execFcEn (q : Req) (v : BitVec 32) (s : State) : Result := .next (s.regCmd q R.CMP_FC_CFG v.toNat)

/-- R216: At a qualifying frame boundary the composer takes a write-back descriptor. -/
def execWbCaptureStart (n : Fin 6) (s : State) : Result := .next (s.outOfReset fun s => s.wbStart n)

/-- R218: The capture ends and its completion record goes to Lull. -/
def execWbComplete (n : Fin 6) (s : State) : Result := .next (s.outOfReset fun s => s.wbComplete n)

/-- R223: After a region's last pixel Starfix writes its CRC and applies the fixed or live check. -/
def execRegionCheck (n : Fin 6) (r : Fin 16) (s : State) : Result := .next (s.outOfReset fun s => s.regionCheck n r)

/-- R224: A write to HEAD_SF_LEARN arms learning of a region's expected value. -/
def execLearn (q : Req) (n : Fin 6) (v : BitVec 32) (s : State) : Result :=
  .next (s.regCmd q (R.HEAD_SF_LEARN n) v.toNat)

/-- R225: After the last active pixel Starfix compares AL_CRC with AL_EXP. -/
def execAlarmCheck (n : Fin 6) (s : State) : Result := .next (s.outOfReset fun s => s.alarmCheck n)

end Sys2Proof.Machine
end

