-- ==== Sys2Proof/Machine/ExecCop.lean ====
section
/-! DEFINITION. What the commands do: cp1, cp2 and cp3: HSE queries, beams, barriers, crypto assist (R268 to R272). -/

namespace Sys2Proof.Machine

/-- R268: HQLATCH latches the last published epoch. -/
def execHqlatch (t : Fin 64) (w : BitVec 32) (s : State) : Result :=
  .next (s.kInstr t w (kCp 0x39 0x01) (fun s n => s.hqLatch t n))

/-- R268: HQREAD reads a word of the latched record through the HSE. -/
def execHqread (t : Fin 64) (w : BitVec 32) (s : State) : Result :=
  .next (s.kInstr t w (kCp 0x39 0x02) (fun s n => s.hqRead t n))

/-- R268: HQSTAT returns and clears STALE and RANGE. -/
def execHqstat (t : Fin 64) (w : BitVec 32) (s : State) : Result :=
  .next (s.kInstr t w (kCp 0x39 0x03) (fun s n => s.hqStat t n))

/-- R269: WAITBEAM waits on a head's composition or scan-out beam. -/
def execWaitbeam (t : Fin 64) (w : BitVec 32) (s : State) : Result :=
  .next (s.kInstr t w (kCp 0x3A 0x01) (fun s n => s.waitBeam t n))

/-- R290: The beam reaches its target or scanning stops and WAITBEAM returns. -/
def execWaitbeamEnd (t : Fin 64) (s : State) : Result := .next (s.outOfReset fun s => s.beamEnd t)

/-- R270: BARRIER arrives at a Constellation barrier and waits. -/
def execBarrier (t : Fin 64) (w : BitVec 32) (s : State) : Result :=
  .next (s.kInstr t w (kCp 0x3A 0x02) (fun s n => s.barrier t n))

/-- R136: A barrier generation completes or resets and its waiting threads are released. -/
def execBarrierRelease (n : Fin 32) (s : State) : Result := .next (s.outOfReset fun s => s.barReleases n)

/-- R271: SNAPSHOT arms the named snapshot regions. -/
def execSnapshot (t : Fin 64) (w : BitVec 32) (s : State) : Result :=
  .next (s.kInstr t w (kCp 0x3A 0x03)
    (fun s n => .done (s.writeReg (s.kReq t) (fullW R.CST_SNAP_ARM (bits (s.wA t n) 0 8))).s))

/-- R271: EPOCH reads CST_EPOCH in one sample. -/
def execEpoch (t : Fin 64) (w : BitVec 32) (s : State) : Result :=
  .next (s.kInstr t w (kCp 0x3A 0x04) (fun s n => s.putD t n (s.reg R.CST_EPOCH)))

/-- R272: FLD loads a 72-byte field element. -/
def execFld (t : Fin 64) (w : BitVec 32) (s : State) : Result :=
  .next (s.kInstr t w (kCp 0x3B 0x01)
    (fun s n => s.viaSeg t (kX n % 8) (s64 (s.wA t n)) 72 true false (fun s a => s.loadAt t a 72 (.fld (kF (kD n))))))

/-- R272: FST stores a 72-byte field element. -/
def execFst (t : Fin 64) (w : BitVec 32) (s : State) : Result :=
  .next (s.kInstr t w (kCp 0x3B 0x02)
    (fun s n => s.viaSeg t (kX n % 8) (s64 (s.wA t n)) 72 false true (fun s a => s.storeAt t a (toBytes 72
      ((s.th t).fr (kF (kD n)))) .done)))

/-- R272: FADD adds modulo p. -/
def execFadd (t : Fin 64) (w : BitVec 32) (s : State) : Result := .next (kField t w 0x03 (fun a b => a + b) s)

/-- R272: FSUB subtracts modulo p. -/
def execFsub (t : Fin 64) (w : BitVec 32) (s : State) : Result :=
  .next (kField t w 0x04 (fun a b => a + (p521 - b % p521)) s)

/-- R272: FMUL multiplies modulo p. -/
def execFmul (t : Fin 64) (w : BitVec 32) (s : State) : Result := .next (kField t w 0x05 (fun a b => a * b) s)

/-- R272: FSQR squares modulo p. -/
def execFsqr (t : Fin 64) (w : BitVec 32) (s : State) : Result := .next (kField t w 0x06 (fun a _ => a * a) s)

/-- R272: FSEL conditionally copies a field register. -/
def execFsel (t : Fin 64) (w : BitVec 32) (s : State) : Result :=
  .next (s.kInstr t w (kCp 0x3B 0x07)
    (fun s n => .done (s.modTh t (fun x => if x.gpr (kB n) = 0 then x else x.setFr (kF (kD n)) (x.fr (kF (kA n)))))))

/-- R272: FZERO tests a field element for zero. -/
def execFzero (t : Fin 64) (w : BitVec 32) (s : State) : Result :=
  .next (s.kInstr t w (kCp 0x3B 0x08) (fun s n => s.putD t n (b2n ((s.th t).fr (kF (kA n)) % p521 == 0))))

/-- R272: FMOVW moves a general register into a field register. -/
def execFmovw (t : Fin 64) (w : BitVec 32) (s : State) : Result :=
  .next (s.kInstr t w (kCp 0x3B 0x09) (fun s n => .done (s.modTh t (fun x => x.setFr (kF (kD n)) (x.gpr (kA n))))))

/-- R272: SIG0 computes SHA-512 sigma 0. -/
def execSig0 (t : Fin 64) (w : BitVec 32) (s : State) : Result := .next (kSha t w 0x10 sha512sig0 s)

/-- R272: SIG1 computes SHA-512 sigma 1. -/
def execSig1 (t : Fin 64) (w : BitVec 32) (s : State) : Result := .next (kSha t w 0x11 sha512sig1 s)

/-- R272: SUM0 computes SHA-512 Sigma 0. -/
def execSum0 (t : Fin 64) (w : BitVec 32) (s : State) : Result := .next (kSha t w 0x12 sha512sum0 s)

/-- R272: SUM1 computes SHA-512 Sigma 1. -/
def execSum1 (t : Fin 64) (w : BitVec 32) (s : State) : Result := .next (kSha t w 0x13 sha512sum1 s)

/-- R272: CH computes the SHA-512 choose function. -/
def execCh (t : Fin 64) (w : BitVec 32) (s : State) : Result :=
  .next (s.kInstr t w (kCp 0x3B 0x14) (fun s n => s.putD t n (sha512ch (s.wA t n) (s.wB t n) (s.wD t n))))

/-- R272: MAJ computes the SHA-512 majority function. -/
def execMaj (t : Fin 64) (w : BitVec 32) (s : State) : Result :=
  .next (s.kInstr t w (kCp 0x3B 0x15) (fun s n => s.putD t n (sha512maj (s.wA t n) (s.wB t n) (s.wD t n))))

end Sys2Proof.Machine
end

