-- ==== Sys2Proof/Machine/ExecCore.lean ====
section
/-! DEFINITION. What the commands do: starting and stopping threads, flushing caches (chapter 10). -/

namespace Sys2Proof.Machine

/-- R291: START loads a thread's registers and starts it. -/
def execThreadStart (q : Req) (t : Fin 64) (v : BitVec 32) (s : State) : Result :=
  .next (s.regCmd q (R.CORE_TH_CTRL t) (withBit v (F.CORE_TH_CTRL_START t)))

/-- R291: STOP halts a thread at its next instruction boundary. -/
def execThreadStop (q : Req) (t : Fin 64) (v : BitVec 32) (s : State) : Result :=
  .next (s.regCmd q (R.CORE_TH_CTRL t) (withBit v (F.CORE_TH_CTRL_STOP t)))

/-- R284: FLUSH writes back and invalidates a cluster's L1D and L2. -/
def execFlush (q : Req) (c : Fin 8) (v : BitVec 32) (s : State) : Result :=
  .next (s.regCmd q (R.CORE_CL_CTRL c) (withBit v (F.CORE_CL_CTRL_FLUSH c)))

end Sys2Proof.Machine
end

