-- ==== Sys2Proof/Machine/ExecCst.lean ====
section
/-! DEFINITION. What the commands do: the Constellation unit (chapter 4). -/

namespace Sys2Proof.Machine

/-- R126: FORM puts the device in FORMING and starts hello tokens. -/
def execForm (q : Req) (s : State) : Result := .next (s.regCmd q R.CST_GROUP_CMD 1)

/-- R126: LEAVE returns the device to ALONE and stops its tokens. -/
def execLeave (q : Req) (s : State) : Result := .next (s.regCmd q R.CST_GROUP_CMD 2)

/-- R126: A matching hello makes its peer LIVE and may complete the group. -/
def execHello (port : Fin 4) (pos : Fin 4) (gid : BitVec 16) (members : BitVec 4) (info : LeadInfo)
    (s : State) : Result :=
  .next (s.outOfReset fun s => s.hello port pos gid.toNat members.toNat info)

/-- R126: Four seconds after FORM a device not FORMED goes to DEGRADED or FAILED. -/
def execFormTimeout (s : State) : Result := .next (s.outOfReset fun s => s.formTimeout)

/-- R128: A time token arrives and the non-leader slews its counter towards the leader. `off` is the measured offset
to the leader in ns. -/
def execTimeToken (port : Fin 4) (off : Int) (info : LeadInfo) (s : State) : Result :=
  .next (s.outOfReset fun s => s.timeToken port off info)

/-- R127: A link down or 100 µs without a token loses a peer, degrades the group and resets group barriers. -/
def execPeerLost (port : Fin 4) (s : State) : Result := .next (s.outOfReset fun s => s.peerSilent port)

/-- R129: The system time counter reaches the scheduled time and the epoch advances. -/
def execGroupTick (s : State) : Result := .next (s.outOfReset fun s => s.groupTick)

/-- R133: A peer's digest arrives for a vote or is discarded if the vote closed. -/
def execDigestReceive (port : Fin 4) (epoch : BitVec 64) (digest : BitVec 64) (s : State) : Result :=
  .next (s.outOfReset fun s => if s.isLive port then s.voteDigest port epoch.toNat digest.toNat else s)

/-- R133: A vote closes on all digests or the next tick and records its outcome. -/
def execVoteClose (s : State) : Result := .next (s.outOfReset fun s => s.voteClose)

/-- R136: A barrier arrival token from a group member is counted. -/
def execBarrierArrival (n : Fin 32) (port : Fin 4) (s : State) : Result :=
  .next (s.outOfReset fun s => s.barToken n port)

/-- R136: TIMEOUT_US passes and every waiting thread is released with result 1. -/
def execBarrierTimeout (n : Fin 32) (s : State) : Result := .next (s.outOfReset fun s => s.barTimeout n)

/-- R137: GO with KIND 0 broadcasts CST_BCAST_DATA to a mailbox in scope. -/
def execMailboxBroadcast (q : Req) (v : BitVec 32) (s : State) : Result :=
  .next (s.regCmd q R.CST_BCAST_CMD (withField (withBit v F.CST_BCAST_CMD_GO) F.CST_BCAST_CMD_KIND 0))

/-- R137: A broadcast arrives, writes the mailbox and fires CST_MAILBOX. -/
def execMailboxReceive (port : Fin 4) (m : Fin 16) (d : BitVec 64) (s : State) : Result :=
  .next (s.outOfReset fun s => s.mailboxReceive port m d.toNat)

/-- R138: GO with KIND 1 sends an epoch store to every LIVE member and itself. -/
def execEpochStore (q : Req) (v : BitVec 32) (s : State) : Result :=
  .next (s.regCmd q R.CST_BCAST_CMD (withField (withBit v F.CST_BCAST_CMD_GO) F.CST_BCAST_CMD_KIND 1))

/-- R138: An epoch store arrives and is held or refused with NACK. -/
def execEpochStoreReceive (port : Fin 4) (q : Req) (epoch : BitVec 64) (a : BitVec 44) (data : List Byte)
    (s : State) : Result :=
  .next (s.outOfReset fun s => s.storeReceive port ⟨port, epoch.toNat, a.toNat, data, q⟩)

/-- R139: At a tick or publication a snapshot region is copied and its epoch written. -/
def execSnapshotCopy (n : Fin 8) (s : State) : Result := .next (s.outOfReset fun s => s.snapCopy n)

/-- R139: A write to CST_SNAP_ARM arms mode 2 regions for the next tick. -/
def execSnapshotArm (q : Req) (v : BitVec 32) (s : State) : Result := .next (s.regCmd q R.CST_SNAP_ARM v.toNat)

/-- R130: Snapshot data from a peer lands, or is discarded and counted if late. -/
def execSnapshotDataReceive (port : Fin 4) (q : Req) (a : BitVec 44) (epoch : BitVec 64) (gated : Bool)
    (data : List Byte) (s : State) : Result :=
  .next (s.snapReceive port q a.toNat epoch.toNat gated data)

/-- R140: CST_RESET_CMD.GO sends a reset request to a LIVE peer. -/
def execResetRequestSend (q : Req) (v : BitVec 32) (s : State) : Result :=
  .next (s.regCmd q R.CST_RESET_CMD (withBit v F.CST_RESET_CMD_GO))

/-- R140: A peer's reset request is accepted into peer reset or refused and counted. -/
def execResetRequestReceive (port : Fin 4) (s : State) : Result := .next (s.resetRequest port)

/-- R140: A write of CST_RESET_GRANT, frozen by LOCK, sets GRANT and QUORUM. -/
def execResetGrantWrite (q : Req) (v : BitVec 32) (s : State) : Result := .next (s.regCmd q R.CST_RESET_GRANT v.toNat)

end Sys2Proof.Machine
end

