-- ==== Sys2Proof/Machine/ExecGale.lean ====
section
/-! DEFINITION. What the commands do: Gale (chapter 18). -/

namespace Sys2Proof.Machine

/-- R409: A write of GAL_CTRL.ENABLE starts or stops frame processing. -/
def execGalEnable (q : Req) (v : BitVec 32) (s : State) : Result := .next (s.regCmd q R.GAL_CTRL v.toNat)

/-- R410: Every 512 AUD cycles Gale processes one sample frame. `words` are the TDM words of the wire frame before;
`late` names the streams whose reads have not returned. -/
def execSampleFrame (words : List (BitVec 32)) (late : BitVec 16) (s : State) : Result :=
  .next (s.outOfReset fun s => s.sampleFrame (words.map BitVec.toNat) late.toNat)

/-- R413: KEY_ON gives a tone channel a start action. -/
def execKeyOn (q : Req) (c : Fin 32) (s : State) : Result := .next (s.regCmd q (R.GAL_TONE_CTRL c) 1)

/-- R413: KEY_OFF gives a tone channel a stop action. -/
def execKeyOff (q : Req) (c : Fin 32) (s : State) : Result := .next (s.regCmd q (R.GAL_TONE_CTRL c) 2)

/-- R417: A write of TARGET sets a node's endpoint unless XP_HOLD is 1. -/
def execXpTargetWrite (q : Req) (o : Fin 32) (j : Fin 64) (v : BitVec 32) (s : State) : Result :=
  .next (s.regCmd q (R.GAL_XP o j) v.toNat)

/-- R417: XP_HOLD changing to 0 starts every pending ramp together. -/
def execXpHoldRelease (q : Req) (v : BitVec 32) (s : State) : Result :=
  .next (s.regCmd q R.GAL_CTRL (withField v.toNat F.GAL_CTRL_XP_HOLD 0))

/-- R419: A coefficient write to an active section makes two frames undefined and resets its state. -/
def execBqCoefWrite (q : Req) (k : Fin 256) (j : Fin 5) (v : BitVec 32) (s : State) : Result :=
  .next (s.regCmd q (R.GAL_BQ_B0 k + 4 * j) v.toNat)

/-- R418: CLEAR zeroes a section's state. -/
def execBqClear (q : Req) (k : Fin 256) (v : BitVec 32) (s : State) : Result :=
  .next (s.regCmd q (R.GAL_BQ_CTL k) (withBit v (F.GAL_BQ_CTL_CLEAR k)))

/-- R425: A buffer completes and its record goes to Lull. -/
def execGalBufferComplete (n : Fin 16) (s : State) : Result := .next (s.outOfReset fun s => s.galComplete n)

/-- R427: CANCEL ends the stream's buffer at the next frame with status 0x1. -/
def execGalCancel (q : Req) (n : Fin 16) (v : BitVec 32) (s : State) : Result :=
  .next (s.regCmd q (R.GAL_STR_CFG n) (withBit v (F.GAL_STR_CFG_CANCEL n)))

end Sys2Proof.Machine
end

