-- ==== Sys2Proof/Machine/ExecGust.lean ====
section
/-! DEFINITION. What the commands do: Gust (chapter 12). -/

namespace Sys2Proof.Machine

/-- R308: An engine's divider interval expires and the engine takes a step. -/
def execGstStep (e : Fin 64) (s : State) : Result := .next (s.outOfReset fun s => s.gstStep e)

/-- R314: SHIFT moves bits between a shift register and pins, counters or nothing. -/
def execGstShift (e : Fin 64) (s : State) : Result := .next (s.outOfReset fun s => s.gstRun e 1)

/-- R311: DRIVE writes OUT_VAL or OUT_EN positions. -/
def execGstDrive (e : Fin 64) (s : State) : Result := .next (s.outOfReset fun s => s.gstRun e 2)

/-- R316: AWAIT stalls until a pin level, Breeze pulse or counter condition holds. -/
def execGstAwait (e : Fin 64) (s : State) : Result := .next (s.outOfReset fun s => s.gstRun e 3)

/-- R311: BRANCH tests a condition, optionally decrements a counter and branches. -/
def execGstBranch (e : Fin 64) (s : State) : Result := .next (s.outOfReset fun s => s.gstRun e 4)

/-- R311: COUNT loads, decrements or copies a counter. -/
def execGstCount (e : Fin 64) (s : State) : Result := .next (s.outOfReset fun s => s.gstRun e 5)

/-- R317: XFER pushes to the RX FIFO or pulls from the TX FIFO. -/
def execGstXfer (e : Fin 64) (s : State) : Result := .next (s.outOfReset fun s => s.gstRun e 6)

/-- R318: SIGNAL fires a Breeze channel as owner code 12. -/
def execGstSignal (e : Fin 64) (s : State) : Result := .next (s.outOfReset fun s => s.gstRun e 7)

/-- R319: STAMP takes the system time into STAMP_LATCH or the RX FIFO. -/
def execGstStamp (e : Fin 64) (s : State) : Result := .next (s.outOfReset fun s => s.gstRun e 8)

/-- R320: CHECK builds a sample record with its CRC-16 and pushes it. -/
def execGstCheck (e : Fin 64) (s : State) : Result := .next (s.outOfReset fun s => s.gstRun e 9)

/-- R312: An illegal instruction halts the engine and fires GST_FAULT. -/
def execGstIllegal (e : Fin 64) (s : State) : Result := .next (s.outOfReset fun s => s.gstIllegal e)

/-- R309: A stalled instruction completes at the first step at which it can. -/
def execGstStallComplete (e : Fin 64) (s : State) : Result := .next (s.outOfReset fun s => s.gstStallEnd e)

/-- R329: A write of ENABLE starts or freezes an engine. -/
def execGstEnable (q : Req) (e : Fin 64) (v : BitVec 32) (s : State) : Result :=
  .next (s.regCmd q (R.GST_ENG_CTRL e) v.toNat)

/-- R329: RESTART resets an engine's PC and registers. -/
def execGstRestart (q : Req) (e : Fin 64) (v : BitVec 32) (s : State) : Result :=
  .next (s.regCmd q (R.GST_ENG_CTRL e) (withBit v (F.GST_ENG_CTRL_RESTART e)))

/-- R329: FIFO_CLR empties both FIFOs on one edge. -/
def execFifoClr (q : Req) (e : Fin 64) (v : BitVec 32) (s : State) : Result :=
  .next (s.regCmd q (R.GST_ENG_CTRL e) (withBit v (F.GST_ENG_CTRL_FIFO_CLR e)))

/-- R308: DIV_RESTART sets the step counter to 0 at the next step. -/
def execDivRestart (q : Req) (e : Fin 64) (v : BitVec 32) (s : State) : Result :=
  .next (s.regCmd q (R.GST_ENG_CTRL e) (withBit v (F.GST_ENG_CTRL_DIV_RESTART e)))

/-- R329: GST_START starts the named engines on one edge. -/
def execGstStart (q : Req) (m : BitVec 64) (s : State) : Result := .next (s.regCmd q R.GST_START m.toNat)

/-- R329: GST_STOP clears ENABLE of the named engines on one edge. -/
def execGstStop (q : Req) (m : BitVec 64) (s : State) : Result := .next (s.regCmd q R.GST_STOP m.toNat)

/-- R327: A write to GST_ENG_TXF pushes words to the TX FIFO. -/
def execGstTxfWrite (q : Req) (e : Fin 64) (ws : List (BitVec 32)) (s : State) : Result :=
  .next (s.outOfReset fun s =>
    (s.busWrite q (regBase + R.GST_ENG_TXF e 0) (ws.flatMap (fun v => toBytes 4 v.toNat)) .sender).answer s)

/-- R327: A read of GST_ENG_RXF pops words from the RX FIFO. -/
def execGstRxfRead (q : Req) (e : Fin 64) (n : Nat) (s : State) : Result :=
  .next (s.outOfReset fun s => (s.busRead q (regBase + R.GST_ENG_RXF e 0) (4 * n) .sender).answer s)

/-- R326: A write to a program store word takes effect on one edge. -/
def execGstProgWrite (q : Req) (g : Fin 16) (j : Fin 64) (v : BitVec 32) (s : State) : Result :=
  .next (s.regCmd q (R.GST_PROG g j) v.toNat)

end Sys2Proof.Machine
end

