-- ==== Sys2Proof/Machine/ExecHead.lean ====
section
/-! DEFINITION. What the commands do: the heads: scan-out and DisplayPort (chapter 5). -/

namespace Sys2Proof.Machine

/-- R149: A write of 1 to ENABLE takes the shadow set and starts scan-out at vertical blanking. -/
def execHeadEnable (q : Req) (n : Fin 6) (v : BitVec 32) (s : State) : Result :=
  .next (s.regCmd q (R.HEAD_CTRL n) (withBit v (F.HEAD_CTRL_ENABLE n)))

/-- R150: A write of 0 to ENABLE requests scan-out to stop at the next vertical blanking. -/
def execHeadDisable (q : Req) (n : Fin 6) (v : BitVec 32) (s : State) : Result :=
  .next (s.regCmd q (R.HEAD_CTRL n) (withField v.toNat (F.HEAD_CTRL_ENABLE n) 0))

/-- R150: Scan-out stops at the start of vertical blanking and SCANNING clears. -/
def execScanStop (n : Fin 6) (s : State) : Result := .next (s.outOfReset fun s => s.scanStop n)

/-- R146: COMMIT arms the shadow transfer. -/
def execCommit (q : Req) (n : Fin 6) (v : BitVec 32) (s : State) : Result :=
  .next (s.regCmd q (R.HEAD_CTRL n) (withBit v (F.HEAD_CTRL_COMMIT n)))

/-- R141: The beam reaches the start of vertical blanking and HEAD_VBLANK fires. -/
def execVblankStart (n : Fin 6) (s : State) : Result := .next (s.outOfReset fun s => s.vblankStart n)

/-- R144: The beam reaches (0, 0) and HEAD_FRAME advances. -/
def execFrameStart (n : Fin 6) (s : State) : Result := .next (s.outOfReset fun s => s.frameStart n)

/-- R153: The head fetches a frame store line through port B before its pixel 0. -/
def execLineFetch (n : Fin 6) (s : State) : Result := .next (s.outOfReset fun s => s.lineFetch n)

/-- R158: TRAIN runs DisplayPort link training with HEAD_DP_CFG. -/
def execTrain (q : Req) (n : Fin 6) (s : State) : Result := .next (s.regCmd q (R.HEAD_DP_CMD n) 1)

/-- R158: Link training ends with TRAIN_STATE and HEAD_LINK fires. `answers`: what the sink still answers to the reads of
its lane status, DPCD 0x202 to 0x207, beside what AUX_REPLY gave. -/
def execTrainEnd (n : Fin 6) (answers : List (List Byte)) (s : State) : Result :=
  .next (s.outOfReset fun s => s.trainEnd n answers)

/-- R159: GO sends one AUX request. -/
def execAuxGo (q : Req) (n : Fin 6) (v : BitVec 32) (s : State) : Result :=
  .next (s.regCmd q (R.HEAD_AUX_CMD n) (withBit v (F.HEAD_AUX_CMD_GO n)))

/-- R159: An AUX reply, malformed reply or 400 µs timeout ends the request. `kind`: 0 a reply `code` with `data`, 1 a
malformed reply, 2 the timeout. -/
def execAuxReply (n : Fin 6) (kind : Nat) (code : BitVec 4) (data : List Byte) (s : State) : Result :=
  .next (s.outOfReset fun s => s.auxReply n kind code.toNat data)

/-- R160: A low HPD pulse of 250 µs to 2 ms while PLUGGED sets IRQ_EVT. -/
def execHpdIrq (n : Fin 6) (s : State) : Result :=
  .next (s.outOfReset fun s =>
    let s := (s.hpdInput n false).hpdInput n true
    if s.pinSig (232 + n) 7 false then s.hpdIrq n else s)

/-- R160: HPD low for 2 ms clears PLUGGED, idles the lanes and sets UNPLUG_EVT. -/
def execHpdUnplug (n : Fin 6) (s : State) : Result :=
  .next (s.outOfReset fun s =>
    let s := s.hpdInput n false
    if s.pinSig (232 + n) 7 false then s else s.hpdUnplug n)

/-- R160: HPD high for 2 ms while unplugged sets PLUGGED and PLUG_EVT. -/
def execHpdPlug (n : Fin 6) (s : State) : Result :=
  .next (s.outOfReset fun s =>
    let s := s.hpdInput n true
    if s.pinSig (232 + n) 7 false then s.hpdPlug n else s)

end Sys2Proof.Machine
end

