-- ==== Sys2Proof/Machine/ExecHse.lean ====
section
/-! DEFINITION. What the commands do: the hydrostatic engine (chapters 2 to 4). -/

namespace Sys2Proof.Machine

/-- R69: A write of HSE_MODEL_NEXT.BANK, ignored during validation or arm, otherwise sets VAL_STATE to 0. -/
def execHseModelNextWrite (q : Req) (v : BitVec 32) (s : State) : Result :=
  .next (s.regCmd q R.HSE_MODEL_NEXT v.toNat)

/-- R70: VALIDATE latches BANK and starts model validation in HSE idle slots. -/
def execValidate (q : Req) (v : BitVec 32) (s : State) : Result :=
  .next (s.regCmd q R.HSE_MODEL_CMD (withBit v F.HSE_MODEL_CMD_VALIDATE))

/-- R70: Model validation finishes with VAL_STATE passed or failed and its code and item. -/
def execValidationEnd (s : State) : Result := .next (s.outOfReset fun s => s.validationEnd)

/-- R74: RELEASE hands bank BANK to RELEASE_OWNER when no armed or active model uses it. -/
def execRelease (q : Req) (v : BitVec 32) (s : State) : Result :=
  .next (s.regCmd q R.HSE_MODEL_CMD (withBit v F.HSE_MODEL_CMD_RELEASE))

/-- R71: A write of 1 to ARM arms a validated model for the switch at EPOCH. -/
def execArm (q : Req) (v : BitVec 32) (s : State) : Result :=
  .next (s.regCmd q R.HSE_MODEL_ARM (withBit v F.HSE_MODEL_ARM_ARM))

/-- R72: DISARM cancels an armed switch that has not yet reached the HSE. -/
def execDisarm (q : Req) (v : BitVec 32) (s : State) : Result :=
  .next (s.regCmd q R.HSE_MODEL_ARM (withBit v F.HSE_MODEL_ARM_DISARM))

/-- R80: A write of HSE_CTRL.ENABLE starts or stops live cycles at the next cycle boundary. -/
def execHseEnable (q : Req) (v : BitVec 32) (s : State) : Result := .next (s.regCmd q R.HSE_CTRL v.toNat)

/-- R106: RESTART makes the next live cycle run as on first use. -/
def execHseRestart (q : Req) (v : BitVec 32) (s : State) : Result :=
  .next (s.regCmd q R.HSE_CTRL (withBit v F.HSE_CTRL_RESTART))

/-- R130: The tick of an epoch reaches the HSE once its snapshots and epoch stores have landed or 20 µs have passed.
-/
def execTickReachesHse (s : State) : Result := .next (s.outOfReset fun s => s.tickReach)

/-- R77: At the first candidate boundary after the tick the HSE runs steps 1 to 10 of the live cycle. -/
def execLiveCycle (s : State) : Result := .next (s.outOfReset fun s => s.liveCycle)

/-- R101: Step 11 writes the result record and tank block in stages and updates HSE_EPOCH. -/
def execPublication (lat : Nat) (s : State) : Result := .next (s.outOfReset fun s => s.publish lat)

/-- R107: COMMIT arms the shadow RHO_SEA and LIMIT_SET for PARAM_EPOCH. -/
def execParamCommit (q : Req) (s : State) : Result := .next (s.regCmd q R.HSE_PARAM_CMD 1)

/-- R112: The HSE reads a sweep descriptor from a ring and checks it. -/
def execSweepJobStart (s : State) : Result := .next (s.outOfReset fun s => s.sweepStart)

/-- R116: A paced sweep candidate is read, formed and evaluated, and its record written if selected. -/
def execSweepCandidate (lat : Nat) (s : State) : Result := .next (s.outOfReset fun s => s.sweepCandidate lat)

/-- R119: A job ends with its job code and its completion record goes to Lull. -/
def execSweepJobEnd (s : State) : Result := .next (s.outOfReset fun s => s.sweepFinish)

/-- R121: CANCEL ends the running job and every covered descriptor with code 0x4. -/
def execSweepCancel (q : Req) (n : Fin 4) (v : BitVec 32) (s : State) : Result :=
  .next (s.regCmd q (R.HSE_SWP_CFG n) (withBit v (F.HSE_SWP_CFG_CANCEL n)))

/-- R110: CAPTURE arms a base slot to be filled by the next publishing live cycle. -/
def execCapture (q : Req) (v : BitVec 32) (s : State) : Result :=
  .next (s.regCmd q R.HSE_BASE_CMD (withBit v F.HSE_BASE_CMD_CAPTURE))

/-- R111: CLEAR clears VALID of a base slot at the next candidate boundary. -/
def execClear (q : Req) (v : BitVec 32) (s : State) : Result :=
  .next (s.regCmd q R.HSE_BASE_CMD (withBit v F.HSE_BASE_CMD_CLEAR))

/-- R111: A write of HSE_BASE_ADDR clears every base slot's VALID. -/
def execBaseAddrWrite (q : Req) (v : BitVec 64) (s : State) : Result := .next (s.regCmd q R.HSE_BASE_ADDR v.toNat)

/-- R123: START queues the known-answer self-test, which begins at a free candidate boundary. -/
def execSelftestStart (q : Req) (s : State) : Result := .next (s.regCmd q R.HSE_ST_CMD 1)

/-- R124: One self-test candidate is evaluated and its digest compared; the last ends the test with HSE_SELFTEST. -/
def execSelftestCandidate (lat : Nat) (s : State) : Result := .next (s.outOfReset fun s => s.selftestRun lat)

/-- R131: HSE_ADOPT.ARM starts state adoption from a source at an epoch. -/
def execAdoptArm (q : Req) (v : BitVec 32) (s : State) : Result :=
  .next (s.regCmd q R.HSE_ADOPT (withBit v F.HSE_ADOPT_ARM))

/-- R131: The carried state arrives at the joining device for its next live cycle. -/
def execAdoptedStateArrive (c : Carried) (s : State) : Result := .next (s.outOfReset fun s => s.adoptArrive c)

end Sys2Proof.Machine
end

