-- ==== Sys2Proof/Machine/ExecInteger.lean ====
section
/-! DEFINITION. What the commands do: the integer instructions of Knarn (R248 to R251). -/

namespace Sys2Proof.Machine

/-- R248: ADD writes A + B and sets C and V. -/
def execAdd (t : Fin 64) (w : BitVec 32) (s : State) : Result := .next (kRR t w 0x01 aluAdd s)

/-- R248: SUB writes A − B and sets C and V. -/
def execSub (t : Fin 64) (w : BitVec 32) (s : State) : Result := .next (kRR t w 0x02 aluSub s)

/-- R248: ADC adds with carry. -/
def execAdc (t : Fin 64) (w : BitVec 32) (s : State) : Result := .next (kRRc t w 0x03 aluAdc s)

/-- R248: SBC subtracts with carry. -/
def execSbc (t : Fin 64) (w : BitVec 32) (s : State) : Result := .next (kRRc t w 0x04 aluSbc s)

/-- R250: NEG writes 0 − A. -/
def execNeg (t : Fin 64) (w : BitVec 32) (s : State) : Result := .next (kR1 t w 0x05 aluNeg s)

/-- R248: ADDS writes the signed saturating sum. -/
def execAdds (t : Fin 64) (w : BitVec 32) (s : State) : Result := .next (kRR t w 0x06 aluAdds s)

/-- R248: SUBS writes the signed saturating difference. -/
def execSubs (t : Fin 64) (w : BitVec 32) (s : State) : Result := .next (kRR t w 0x07 aluSubs s)

/-- R248: ADDUS writes the unsigned saturating sum. -/
def execAddus (t : Fin 64) (w : BitVec 32) (s : State) : Result := .next (kRR t w 0x08 aluAddus s)

/-- R248: SUBUS writes the unsigned saturating difference. -/
def execSubus (t : Fin 64) (w : BitVec 32) (s : State) : Result := .next (kRR t w 0x09 aluSubus s)

/-- R248: AND writes the bitwise and. -/
def execAnd (t : Fin 64) (w : BitVec 32) (s : State) : Result := .next (kRR t w 0x0A aluAnd s)

/-- R248: OR writes the bitwise or. -/
def execOr (t : Fin 64) (w : BitVec 32) (s : State) : Result := .next (kRR t w 0x0B aluOr s)

/-- R248: XOR writes the bitwise exclusive or. -/
def execXor (t : Fin 64) (w : BitVec 32) (s : State) : Result := .next (kRR t w 0x0C aluXor s)

/-- R248: ANDN writes A and not B. -/
def execAndn (t : Fin 64) (w : BitVec 32) (s : State) : Result := .next (kRR t w 0x0D aluAndn s)

/-- R250: SLL shifts left by the whole value of B. -/
def execSll (t : Fin 64) (w : BitVec 32) (s : State) : Result := .next (kRR t w 0x10 aluSll s)

/-- R250: SRL shifts right logically. -/
def execSrl (t : Fin 64) (w : BitVec 32) (s : State) : Result := .next (kRR t w 0x11 aluSrl s)

/-- R250: SRA shifts right arithmetically. -/
def execSra (t : Fin 64) (w : BitVec 32) (s : State) : Result := .next (kRR t w 0x12 aluSra s)

/-- R248: MUL writes the low 64 bits of the product. -/
def execMul (t : Fin 64) (w : BitVec 32) (s : State) : Result := .next (kRR t w 0x18 aluMul s)

/-- R248: MULH writes the high 64 bits of the signed product. -/
def execMulh (t : Fin 64) (w : BitVec 32) (s : State) : Result := .next (kRR t w 0x19 aluMulh s)

/-- R248: MULHU writes the high 64 bits of the unsigned product. -/
def execMulhu (t : Fin 64) (w : BitVec 32) (s : State) : Result := .next (kRR t w 0x1A aluMulhu s)

/-- R250: DIV writes the signed quotient, with DZ and V cases. -/
def execDiv (t : Fin 64) (w : BitVec 32) (s : State) : Result := .next (kRR t w 0x1C aluDiv s)

/-- R250: DIVU writes the unsigned quotient. -/
def execDivu (t : Fin 64) (w : BitVec 32) (s : State) : Result := .next (kRR t w 0x1D aluDivu s)

/-- R250: REM writes the signed remainder. -/
def execRem (t : Fin 64) (w : BitVec 32) (s : State) : Result := .next (kRR t w 0x1E aluRem s)

/-- R250: REMU writes the unsigned remainder. -/
def execRemu (t : Fin 64) (w : BitVec 32) (s : State) : Result := .next (kRR t w 0x1F aluRemu s)

/-- R248: SLT writes 1 if A < B signed. -/
def execSlt (t : Fin 64) (w : BitVec 32) (s : State) : Result := .next (kRR t w 0x20 aluSlt s)

/-- R248: SLTU writes 1 if A < B unsigned. -/
def execSltu (t : Fin 64) (w : BitVec 32) (s : State) : Result := .next (kRR t w 0x21 aluSltu s)

/-- R248: MIN writes the signed minimum. -/
def execMin (t : Fin 64) (w : BitVec 32) (s : State) : Result := .next (kRR t w 0x22 aluMin s)

/-- R248: MAX writes the signed maximum. -/
def execMax (t : Fin 64) (w : BitVec 32) (s : State) : Result := .next (kRR t w 0x23 aluMax s)

/-- R248: MINU writes the unsigned minimum. -/
def execMinu (t : Fin 64) (w : BitVec 32) (s : State) : Result := .next (kRR t w 0x24 aluMinu s)

/-- R248: MAXU writes the unsigned maximum. -/
def execMaxu (t : Fin 64) (w : BitVec 32) (s : State) : Result := .next (kRR t w 0x25 aluMaxu s)

/-- R248: CLZ counts leading zeros. -/
def execClz (t : Fin 64) (w : BitVec 32) (s : State) : Result := .next (kR1 t w 0x28 aluClz s)

/-- R248: CTZ counts trailing zeros. -/
def execCtz (t : Fin 64) (w : BitVec 32) (s : State) : Result := .next (kR1 t w 0x29 aluCtz s)

/-- R248: POPC counts ones. -/
def execPopc (t : Fin 64) (w : BitVec 32) (s : State) : Result := .next (kR1 t w 0x2A aluPopc s)

/-- R248: SEXTB sign-extends the low byte. -/
def execSextb (t : Fin 64) (w : BitVec 32) (s : State) : Result := .next (kR1 t w 0x2B (aluSext 8) s)

/-- R248: SEXTH sign-extends the low halfword. -/
def execSexth (t : Fin 64) (w : BitVec 32) (s : State) : Result := .next (kR1 t w 0x2C (aluSext 16) s)

/-- R248: SEXTW sign-extends the low 32 bits. -/
def execSextw (t : Fin 64) (w : BitVec 32) (s : State) : Result := .next (kR1 t w 0x2D (aluSext 32) s)

/-- R248: ZEXTW zero-extends the low 32 bits. -/
def execZextw (t : Fin 64) (w : BitVec 32) (s : State) : Result := .next (kR1 t w 0x2E aluZextw s)

/-- R251: ADDI adds a sign-extended immediate and sets C and V. -/
def execAddi (t : Fin 64) (w : BitVec 32) (s : State) : Result := .next (kRI t w 0x01 immS aluAdd s)

/-- R251: ANDI ands a zero-extended immediate. -/
def execAndi (t : Fin 64) (w : BitVec 32) (s : State) : Result := .next (kRI t w 0x02 kImm aluAnd s)

/-- R251: ORI ors a zero-extended immediate. -/
def execOri (t : Fin 64) (w : BitVec 32) (s : State) : Result := .next (kRI t w 0x03 kImm aluOr s)

/-- R251: XORI exclusive-ors a zero-extended immediate. -/
def execXori (t : Fin 64) (w : BitVec 32) (s : State) : Result := .next (kRI t w 0x04 kImm aluXor s)

/-- R251: SLTI compares with a signed immediate. -/
def execSlti (t : Fin 64) (w : BitVec 32) (s : State) : Result := .next (kRI t w 0x05 immS aluSlt s)

/-- R251: SLTIU compares unsigned with a sign-extended immediate. -/
def execSltiu (t : Fin 64) (w : BitVec 32) (s : State) : Result := .next (kRI t w 0x06 immS aluSltu s)

/-- R251: SLLI shifts left by an immediate. -/
def execSlli (t : Fin 64) (w : BitVec 32) (s : State) : Result := .next (kRI t w 0x07 kImm aluSll s)

/-- R251: SRLI shifts right logically by an immediate. -/
def execSrli (t : Fin 64) (w : BitVec 32) (s : State) : Result := .next (kRI t w 0x08 kImm aluSrl s)

/-- R251: SRAI shifts right arithmetically by an immediate. -/
def execSrai (t : Fin 64) (w : BitVec 32) (s : State) : Result := .next (kRI t w 0x09 kImm aluSra s)

/-- R251: IMMS writes a sign-extended immediate moved up by 16k bits. -/
def execImms (t : Fin 64) (w : BitVec 32) (s : State) : Result :=
  .next (s.kInstr t w (kOpK 0x0A) (fun s n => s.kAlu t (kD n) (aluImms (kImm n) (kA n % 4))))

/-- R251: IMMI replaces one halfword of wD with the immediate. -/
def execImmi (t : Fin 64) (w : BitVec 32) (s : State) : Result :=
  .next (s.kInstr t w (kOpK 0x0B) (fun s n => s.kAlu t (kD n) (aluImmi (s.wD t n) (kImm n) (kA n % 4))))

/-- R251: ADDPC writes PC plus a scaled immediate. -/
def execAddpc (t : Fin 64) (w : BitVec 32) (s : State) : Result :=
  .next (s.kInstr t w (kOp 0x0C) (fun s n => s.putD t n (s.kTarget t (sext 16 (kImm n)))))

end Sys2Proof.Machine
end

