-- ==== Sys2Proof/Machine/ExecLull.lean ====
section
/-! DEFINITION. What the commands do: the Lull interrupt queues (chapter 16). -/

namespace Sys2Proof.Machine

/-- R379: A producer's completion or error record is offered to a queue and accepted or refused. -/
def execLullCompletion (unit : Fin 16) (index : BitVec 16) (s : State) : Result :=
  .next (s.outOfReset fun s => s.lullTake unit index.toNat)

/-- R378: Lull writes a record's payload, then its header, then advances PROD_IDX. -/
def execLullRecordWrite (n : Fin 64) (s : State) : Result := .next (s.outOfReset fun s => s.lqTurn n)

/-- R384: RESUME clears HALTED and rewrites the failed record. -/
def execLulResume (q : Req) (n : Fin 64) (v : BitVec 32) (s : State) : Result :=
  .next (s.regCmd q (R.LUL_Q_CFG n) (withBit v (F.LUL_Q_CFG_RESUME n)))

/-- R380: A write of CONS_IDX advances it or sets CONS_ERR; an emptied queue deasserts. -/
def execConsIdxWrite (q : Req) (n : Fin 64) (v : BitVec 32) (s : State) : Result :=
  .next (s.regCmd q (R.LUL_Q_CONS n) v.toNat)

/-- R387: The record count or CO_TIME releases the queue's interrupt. -/
def execCoalesceRelease (n : Fin 64) (s : State) : Result := .next (s.outOfReset fun s => s.lqCheck n)

/-- R386: A write of LUL_EVT_MAP enables or masks an event input. -/
def execEvtMapWrite (q : Req) (j : Fin 64) (v : BitVec 32) (s : State) : Result :=
  .next (s.regCmd q (R.LUL_EVT_MAP j) v.toNat)

end Sys2Proof.Machine
end

