-- ==== Sys2Proof/Machine/ExecMemory.lean ====
section
/-! DEFINITION. What the commands do: the loads, stores and atomic operations of Knarn (R252, R253). -/

namespace Sys2Proof.Machine

/-- R252: LDB loads a sign-extended byte through a segment. -/
def execLdb (t : Fin 64) (w : BitVec 32) (s : State) : Result := .next (kLoad t w 0x10 1 true s)

/-- R252: LDBU loads a zero-extended byte. -/
def execLdbu (t : Fin 64) (w : BitVec 32) (s : State) : Result := .next (kLoad t w 0x11 1 false s)

/-- R252: LDH loads a sign-extended halfword. -/
def execLdh (t : Fin 64) (w : BitVec 32) (s : State) : Result := .next (kLoad t w 0x12 2 true s)

/-- R252: LDHU loads a zero-extended halfword. -/
def execLdhu (t : Fin 64) (w : BitVec 32) (s : State) : Result := .next (kLoad t w 0x13 2 false s)

/-- R252: LDW loads a sign-extended 32-bit word. -/
def execLdw (t : Fin 64) (w : BitVec 32) (s : State) : Result := .next (kLoad t w 0x14 4 true s)

/-- R252: LDWU loads a zero-extended 32-bit word. -/
def execLdwu (t : Fin 64) (w : BitVec 32) (s : State) : Result := .next (kLoad t w 0x15 4 false s)

/-- R252: LDD loads 64 bits. -/
def execLdd (t : Fin 64) (w : BitVec 32) (s : State) : Result := .next (kLoad t w 0x16 8 false s)

/-- R252: STB stores the low byte. -/
def execStb (t : Fin 64) (w : BitVec 32) (s : State) : Result := .next (kStore t w 0x18 1 s)

/-- R252: STH stores the low halfword. -/
def execSth (t : Fin 64) (w : BitVec 32) (s : State) : Result := .next (kStore t w 0x19 2 s)

/-- R252: STW stores the low 32 bits. -/
def execStw (t : Fin 64) (w : BitVec 32) (s : State) : Result := .next (kStore t w 0x1A 4 s)

/-- R252: STD stores 64 bits. -/
def execStd (t : Fin 64) (w : BitVec 32) (s : State) : Result := .next (kStore t w 0x1B 8 s)

/-- R253: SWAP atomically exchanges memory with wB. -/
def execSwap (t : Fin 64) (w : BitVec 32) (s : State) : Result := .next (kAtomic t w 0 s)

/-- R253: AADD atomically adds wB to memory. -/
def execAadd (t : Fin 64) (w : BitVec 32) (s : State) : Result := .next (kAtomic t w 1 s)

/-- R253: AAND atomically ands wB into memory. -/
def execAand (t : Fin 64) (w : BitVec 32) (s : State) : Result := .next (kAtomic t w 2 s)

/-- R253: AOR atomically ors wB into memory. -/
def execAor (t : Fin 64) (w : BitVec 32) (s : State) : Result := .next (kAtomic t w 3 s)

/-- R253: AXOR atomically exclusive-ors wB into memory. -/
def execAxor (t : Fin 64) (w : BitVec 32) (s : State) : Result := .next (kAtomic t w 4 s)

/-- R253: CAS atomically compares with wD and writes wB on equality. -/
def execCas (t : Fin 64) (w : BitVec 32) (s : State) : Result := .next (kAtomic t w 5 s)

end Sys2Proof.Machine
end

