-- ==== Sys2Proof/Machine/ExecMeridian.lean ====
section
/-! DEFINITION. What the commands do: the Meridian raster sequencers (chapter 6). -/

namespace Sys2Proof.Machine

/-- R189: At a frame boundary Meridian samples its control and starts the selected program. -/
def execMeridianFrameStart (n : Fin 6) (s : State) : Result := s.meridian n (fun s => s.merFrameStart n)

/-- R191: WAIT closes the group or completes, depending on its target. -/
def execMerWait (n : Fin 6) (s : State) : Result := s.meridian n (fun s => s.merWait n)

/-- R191: The composition beam reaches a WAIT target and the next group opens. -/
def execMerWaitReached (n : Fin 6) (s : State) : Result := s.meridian n (fun s => s.merWaitReached n)

/-- R193: MOVE writes a half of a raster-time register at the group stamp. -/
def execMerMove (n : Fin 6) (s : State) : Result := s.meridian n (fun s => s.merMove n)

/-- R193: MOVEB writes its data words to consecutive raster-time registers. -/
def execMerMoveb (n : Fin 6) (s : State) : Result := s.meridian n (fun s => s.merMoveB n)

/-- R192: SKIP skips the next instruction by the stamp's position. -/
def execMerSkip (n : Fin 6) (s : State) : Result := s.meridian n (fun s => s.merSkip n)

/-- R192: JUMP continues at word TARGET. -/
def execMerJump (n : Fin 6) (s : State) : Result := s.meridian n (fun s => s.merJump n)

/-- R194: EVENT fires a Breeze channel as owner code 9. -/
def execMerEvent (n : Fin 6) (s : State) : Result := s.meridian n (fun s => s.merEvent n)

/-- R194: SYNC closes the group and waits for a Breeze pulse. -/
def execMerSync (n : Fin 6) (s : State) : Result := s.meridian n (fun s => s.merSync n)

/-- R194: The awaited pulse arrives and the next group opens at the composition beam. -/
def execMerSyncPulse (n : Fin 6) (s : State) : Result := s.meridian n (fun s => s.merSyncPulse n)

/-- R192: END, or an unknown type code, fetch error or fetch beyond word 4,095, ends the program for the frame. -/
def execMerEnd (n : Fin 6) (s : State) : Result := s.meridian n (fun s => s.merEnd n)

end Sys2Proof.Machine
end

