-- ==== Sys2Proof/Machine/ExecPins.lean ====
section
/-! DEFINITION. What the commands do: the pins (chapter 13). -/

namespace Sys2Proof.Machine

/-- R340: A masked write to an output or enable register changes the admitted pin bits. -/
def execGpioOutWrite (q : Req) (j : Fin 32) (v : BitVec 32) (s : State) : Result :=
  .next (s.regCmd q (R.GPIO_OUT_LO 0 + 4 * j) v.toNat)

/-- R346: A write of GPIO_PIN_CFG switches a pin's function, drive or pull on one edge. -/
def execPinCfgWrite (q : Req) (p : Fin 256) (v : BitVec 32) (s : State) : Result :=
  .next (s.regCmd q (R.GPIO_PIN_CFG p) v.toNat)

/-- R342: The key sequence on GPIO_PIN_LOCK locks a pin's set-up. One write of the sequence. -/
def execPinLock (q : Req) (p : Fin 256) (key : BitVec 16) (s : State) : Result :=
  .next (s.regCmd q (R.GPIO_PIN_LOCK p) key.toNat)

/-- R344: A pin's detector sees its edge or level and sets its status bit. `level` is the level that the
board drives at the pad, if it drives one. -/
def execPinDetect (p : Fin 256) (level : Option Bool) (s : State) : Result :=
  .next (s.outOfReset fun s => s.pinDetect p level)

/-- R339: A bank supply crosses its power-good threshold and PG follows. -/
def execVddioChange (k : Fin 8) (good : Bool) (s : State) : Result := .next (s.vddio k good)

end Sys2Proof.Machine
end

