-- ==== Sys2Proof/Machine/ExecPool.lean ====
section
/-! DEFINITION. What the commands do: the pool, the Nadir vault and the CTS (chapters 2 and 11). -/

namespace Sys2Proof.Machine

/-- R293: A read or write reaching a pool bank port is checked for peer, attribute and owner and then performed.
`rot` says that it comes through the rotated window; `upset` strikes the first word before the access (1 one bit, 2
more); `meet` is a request that it met on a word. -/
def execPoolAccess (q : Req) (o : BitVec 28) (rot write : Bool) (n : Nat) (bs : List Byte) (upset : Nat)
    (meet : Option Meeting) (s : State) : Result :=
  .next (s.outOfReset fun s => s.poolAccess q o.toNat rot write n bs upset meet)

/-- R301: The scrubber reads and corrects a word in a free port B cycle as its pass proceeds. `upset` strikes the word
before it; `slow` says that the pass has run longer than PASS_MS. -/
def execScrubRead (upset : Nat) (slow : Bool) (s : State) : Result := .next (s.outOfReset fun s => s.scrub upset slow)

/-- R302: A pending remap takes a free spare and the bank enters COPYING. -/
def execRemapStart (s : State) : Result := .next (s.outOfReset fun s => s.remapStart)

/-- R302: The copier corrects and copies one word of the bank into the spare on its port B cycle. -/
def execSpareCopy (s : State) : Result := .next (s.outOfReset fun s => s.spareCopy)

/-- R302: At the end of the copy the spare takes over address, owner, grants and power group and POOL_REMAP fires. -/
def execSpareTakeover (s : State) : Result := .next (s.outOfReset fun s => s.spareTakeover)

/-- R294: A write to POOL_BANK_OWN_n or POOL_BANK_GRANT_n is admitted or refused and starts a handover. -/
def execBankOwnershipWrite (q : Req) (b : Fin 288) (grant : Bool) (v : BitVec 32) (s : State) : Result :=
  .next (s.regCmd q (if grant then R.POOL_BANK_GRANT b else R.POOL_BANK_OWN b) v.toNat)

/-- R295: After write-back and invalidation, a bank's new owner and grants take effect on one FAB edge. -/
def execHandover (b : Fin 288) (s : State) : Result := .next (s.outOfReset fun s => s.handover b)

/-- R306: An access to the Nadir vault is admitted only for S requesters. `upset` strikes the first word before it;
`read` bytes are read, or else `bs` is written. -/
def execNadirAccess (q : Req) (o : Nat) (upset : Nat) (read : Option Nat) (bs : List Byte) (s : State) : Result :=
  .next (s.outOfReset fun s =>
    let s := if s.domTakes 149 && decide (o < vaultSize) then s.upset ((vaultBase + o) / 8 * 8) upset else s
    (match read with
      | some n => s.busRead q (vaultBase + o) n .sender
      | none => s.busWrite q (vaultBase + o) bs .sender).answer s)

/-- R307: The Nadir wipe completes and WIPING clears. -/
def execNadirWipeEnd (s : State) : Result := .next (s.outOfReset fun s => s.wipeEnd)

/-- R39: A core or Tradewind access to the CTS is admitted under HSE_CTS_ACCESS and completes behind HSE table reads.
-/
def execCtsAccess (q : Req) (o : Nat) (write : Bool) (n : Nat) (bs : List Byte) (s : State) : Result :=
  .next (s.outOfReset fun s =>
    (if write then s.busWrite q (ctsBase + o) bs .sender else s.busRead q (ctsBase + o) n .sender).answer s)

end Sys2Proof.Machine
end

