-- ==== Sys2Proof/Machine/ExecPorts.lean ====
section
/-! DEFINITION. What the commands do: CXL, Atsobry, Ethernet, flash, I2C and the debug UART (chapter 19). -/

namespace Sys2Proof.Machine

/-- R436: LINK_EN starts training of a CXL link. -/
def execCxlLinkEn (q : Req) (p : Fin 2) (v : BitVec 32) (s : State) : Result :=
  .next (s.regCmd q (R.CXL_CTRL p) (withBit v (F.CXL_CTRL_LINK_EN p)))

/-- R432: A CXL link finishes training up or failed. `width`: 1 x2, 2 x4, 3 x8, 0 failed. -/
def execCxlLinkUp (p : Fin 2) (width : Fin 4) (s : State) : Result :=
  .next (s.outOfReset fun s => s.cxlTrained p width)

/-- R435: A write of 1 to MEM_EN turns on decoding or sets CFG_ERR. -/
def execMemEn (q : Req) (p : Fin 2) (v : BitVec 32) (s : State) : Result :=
  .next (s.regCmd q (R.CXL_CTRL p) (withBit v (F.CXL_CTRL_MEM_EN p)))

/-- R433: A configuration or MMIO access is sent to the device. -/
def execCxlConfigAccess (q : Req) (kind : ReqKind) (o : BitVec 28) (n : Nat) (data : List Byte)
    (s : State) : Result :=
  .next (s.outOfReset fun s => (s.cxlCfgSend kind q o.toNat n data .sender).answer s)

/-- R434: A CXL memory access is decoded to a port and performed. `o` is the offset in CXL memory. -/
def execCxlMemoryAccess (q : Req) (kind : ReqKind) (o : BitVec 40) (n : Nat) (data : List Byte)
    (s : State) : Result :=
  .next (s.outOfReset fun s => (s.cxlMemSend kind q o.toNat n data .sender).answer s)

/-- R436: A CXL link goes down and outstanding requests get error responses. -/
def execCxlLinkLost (p : Fin 2) (s : State) : Result := .next (s.outOfReset fun s => s.cxlLost p)

/-- R437: EN starts Atsobry training. -/
def execAtsEn (q : Req) (n : Fin 4) (v : BitVec 32) (s : State) : Result :=
  .next (s.regCmd q (R.ATS_CTRL n) (withBit v (F.ATS_CTRL_EN n)))

/-- R525: RETRAIN takes an Atsobry link down and trains again. -/
def execRetrain (q : Req) (n : Fin 4) (v : BitVec 32) (s : State) : Result :=
  .next (s.regCmd q (R.ATS_CTRL n) (withBit v (F.ATS_CTRL_RETRAIN n)))

/-- R437: Training completes and the port comes up on four or three lanes. `pass` names the lanes that pass. -/
def execAtsTrainDone (n : Fin 4) (pass : BitVec 5) (s : State) : Result :=
  .next (s.outOfReset fun s => s.atsTrained n pass.toNat)

/-- R438: An active or spare lane loses lock or exceeds its budget. `symbols` were corrected on the lane within 1 ms;
none says that it lost lock. -/
def execLaneFail (n : Fin 4) (l : Fin 5) (symbols : Option Nat) (s : State) : Result :=
  .next (s.outOfReset fun s => s.laneFail n l symbols)

/-- R439: An uncorrectable codeword is sent again. `corrected` codewords before it; `failed` replays of it in a row.
-/
def execCodewordReplay (n : Fin 4) (corrected : Nat) (failed : Nat) (s : State) : Result :=
  .next (s.outOfReset fun s => s.codewordReplay n corrected failed)

/-- R437: An Atsobry link goes down and returns to training. -/
def execAtsLinkLost (n : Fin 4) (s : State) : Result := .next (s.outOfReset fun s => s.atsLost n)

/-- R441: A peer window access is sent over an Atsobry port. -/
def execPeerWindowRequest (q : Req) (kind : ReqKind) (port : Fin 4) (o : BitVec 28) (n : Nat) (data : List Byte)
    (s : State) : Result :=
  .next (s.outOfReset fun s => (s.busAccess kind q (peerBase + port * 0x10000000 + o.toNat) n data).answer s)

/-- R20: A peer's request arrives and is checked and performed locally. `o` is the offset in this device's pool. -/
def execPeerRequestReceive (port : Fin 4) (q : Req) (kind : ReqKind) (o : BitVec 28) (n : Nat) (data : List Byte)
    (s : State) : Result :=
  .next (s.outOfReset fun s => s.peerReceive port q kind o.toNat n data)

/-- R442: EN starts an Ethernet MAC with its SPEED and FEC. -/
def execEthEn (q : Req) (e : Fin 2) (v : BitVec 32) (s : State) : Result :=
  .next (s.regCmd q (R.ETH_CTRL e) (withBit v (F.ETH_CTRL_EN e)))

/-- R444: A MAC sends a TX descriptor's frame and writes its completion. -/
def execFrameTransmit (e : Fin 2) (s : State) : Result := .next (s.outOfReset fun s => s.frameTransmit e)

/-- R444: A frame arrives and is checked, ruled and written to the RX ring. -/
def execFrameReceive (e : Fin 2) (frame : List Byte) (s : State) : Result :=
  .next (s.outOfReset fun s => s.frameReceive e frame)

/-- R449: The system time reaches TIME and ETH_PPS goes high. -/
def execPpsPulse (e : Fin 2) (s : State) : Result := .next (s.outOfReset fun s => s.ppsPulse e)

/-- R449: After 1,000 SYS cycles ETH_PPS goes low. -/
def execPpsPulseEnd (e : Fin 2) (s : State) : Result := .next (s.outOfReset fun s => s.ppsEnd e)

/-- R450: GO runs one MDIO frame. -/
def execMdioGo (q : Req) (e : Fin 2) (v : BitVec 32) (s : State) : Result :=
  .next (s.regCmd q (R.ETH_MDIO e) (withBit v (F.ETH_MDIO_GO e)))

/-- R450: An MDIO frame ends. -/
def execMdioDone (data : BitVec 16) (s : State) : Result := .next (s.outOfReset fun s => s.mdioDone data.toNat)

/-- R452: GO runs one flash command. -/
def execXspiGo (q : Req) (v : BitVec 32) (s : State) : Result :=
  .next (s.regCmd q R.XSPI_CMD (withBit v F.XSPI_CMD_GO))

/-- R452: A flash command ends or times out. `timeout` says that the data strobe stopped. -/
def execXspiDone (data : List Byte) (timeout : Bool) (s : State) : Result :=
  .next (s.outOfReset fun s => s.xspiDone data timeout)

/-- R453: GO runs one I2C transaction, with bus recovery first if needed. `sdaLow` says that SDA is held low. -/
def execBmiGo (q : Req) (n : Fin 2) (v : BitVec 32) (sdaLow : Bool) (s : State) : Result :=
  .next (s.outOfReset fun s => (bmiWrite s q (fullW (R.BMI_CMD n) (withBit v (F.BMI_CMD_GO n))) sdaLow).answered)

/-- R453: An I2C transaction ends, by STOP, NACK, stretch timeout or lost arbitration. -/
def execBmiDone (n : Fin 2) (how : BmiEnd) (s : State) : Result := .next (s.outOfReset fun s => s.bmiDone n how)

/-- R455: A write of DBGU_DATA pushes a byte to the transmit FIFO. -/
def execDbguTxWrite (q : Req) (b : Byte) (s : State) : Result := .next (s.regCmd q R.DBGU_DATA b.toNat)

/-- R455: A read of DBGU_DATA pops a received byte. -/
def execDbguRxRead (q : Req) (s : State) : Result :=
  .next (s.outOfReset fun s => (s.busRead q (regBase + R.DBGU_DATA) 4 .sender).answer s)

/-- R455: A byte arrives on DBG_RXD into the receive FIFO. `noStop` says that it had no stop bit. -/
def execUartByteReceived (b : Byte) (noStop : Bool) (s : State) : Result :=
  .next (s.outOfReset fun s => s.uartReceive b.toNat noStop)

/-- R455: A byte leaves the transmit FIFO on DBG_TXD. -/
def execUartByteSent (s : State) : Result := .next (s.outOfReset fun s => s.uartSent)

end Sys2Proof.Machine
end

