-- ==== Sys2Proof/Machine/ExecPower.lean ====
section
/-! DEFINITION. What the commands do: power domains, clocks and reset (chapters 15, 16, 21, 22). -/

namespace Sys2Proof.Machine

/-- R486: A write of ON requests a domain wake or sleep, or is refused. -/
def execDomainSwitchWrite (q : Req) (d : Fin 150) (v : BitVec 32) (s : State) : Result :=
  .next (s.regCmd q (R.PWR_DOM_CTRL d) v.toNat)

/-- R485: A waking domain finishes its ramp and clearing and reads on. -/
def execDomainWakeComplete (d : Fin 150) (s : State) : Result := .next (s.outOfReset fun s => s.wakeDone d)

/-- R487: A domain is isolated, abandons its work and reads off. -/
def execDomainSleepComplete (d : Fin 150) (s : State) : Result := .next (s.outOfReset fun s => s.sleepDone d)

/-- R490: A Lull wake request powers a core and starts its threads. -/
def execAutoWake (c : Fin 32) (s : State) : Result := .next (s.outOfReset fun s => s.autoWake c)

/-- R492: A write of CLK_CORE moves the cluster to FAB ÷ 2 and starts a relock. -/
def execCoreFreqWrite (q : Req) (c : Fin 8) (v : BitVec 32) (s : State) : Result :=
  .next (s.regCmd q (R.CLK_CORE c) v.toNat)

/-- R492: The relocked cluster PLL takes over and SWITCHING clears. -/
def execCoreClockMove (c : Fin 8) (s : State) : Result := .next (s.outOfReset fun s => s.coreMoved c)

/-- R493: A write of CLK_PIX starts a pixel PLL relock, or is refused while scanning. -/
def execPixClockWrite (q : Req) (n : Fin 6) (v : BitVec 32) (s : State) : Result :=
  .next (s.regCmd q (R.CLK_PIX n) v.toNat)

/-- R493: The pixel PLL locks and PIX_n moves to it. -/
def execPixRelock (n : Fin 6) (s : State) : Result := .next (s.outOfReset fun s => s.pixRelock n)

/-- R491: A PLL locks after cold reset. -/
def execPllLock (k : Fin 5) (s : State) : Result := .next (s.outOfReset fun s => s.pllLock k)

/-- R494: The SYS reference is absent for 10 µs and the device enters warm reset. -/
def execRefLoss (s : State) : Result := .next (s.outOfReset fun s => s.refLoss)

/-- R494: The reference is good for 100 µs and warm reset ends. -/
def execRefReturn (s : State) : Result := .next s.refReturn

/-- R496: PORST_N low holds the device in cold reset. -/
def execColdReset (s : State) : Result := .next (s.coldReset)

/-- R496: PORST_N rises, the cold-reset set wakes and boot begins. `straps` is the level of GPOS_1 and GPOS_0. -/
def execPorstRise (straps : Fin 4) (s : State) : Result := .next (s.porstRise straps)

/-- R497: The PWR_RESET key sequence starts a warm reset. One write of the sequence. -/
def execWarmReset (q : Req) (key : BitVec 16) (s : State) : Result := .next (s.regCmd q R.PWR_RESET key.toNat)

/-- R501: LEAVE ends the Twilight service on one SYS edge. -/
def execLeaveTwilight (q : Req) (s : State) : Result := .next (s.regCmd q R.PWR_SERVICE 1)

/-- R517: Every 100 µs SYS_TJ takes the hottest sensor reading. -/
def execTjUpdate (v : BitVec 16) (s : State) : Result := .next (s.outOfReset fun s => s.tjUpdate v.toNat)

/-- R381: A write of ENABLE in LUL_Q_CFG_q turns a Lull queue on, setting PROD_IDX and CONS_IDX to 0, or off, so that
its events are discarded and completions are held. -/
def execLullQueueEnable (q : Req) (n : Fin 64) (v : BitVec 32) (s : State) : Result :=
  .next (s.regCmd q (R.LUL_Q_CFG n) v.toNat)

/-- R442: A MAC's PCS gains block lock and LINK_UP in ETH_CTRL becomes 1. -/
def execEthLinkUp (e : Fin 2) (s : State) : Result := .next (s.outOfReset fun s => s.ethLink e true)

/-- R442: A MAC loses PCS block lock and LINK_UP in ETH_CTRL returns to 0. -/
def execEthLinkDown (e : Fin 2) (s : State) : Result := .next (s.outOfReset fun s => s.ethLink e false)

/-- R533: The data or response of a peer window access returns over the Atsobry port to the requester within the bound
of R533. `k` counts the requests outstanding at the port. -/
def execPeerWindowResponse (port : Fin 4) (k : Nat) (st : Status) (data : List Byte) (s : State) : Result :=
  .next (s.outOfReset fun s => s.peerAnswer port k st data)

/-- R436: The CXL device's completion of a memory, configuration or MMIO request returns to the port, which performs
the write under R287 or delivers the data or poison. `k` counts the requests outstanding at the port; `poison` says
that its data is poisoned. -/
def execCxlCompletion (p : Fin 2) (k : Nat) (data : List Byte) (poison : Bool) (s : State) : Result :=
  .next (s.outOfReset fun s => s.cxlComplete p k data poison)

/-- R433: A CXL request that has received no completion within 50 ms gets an error response. `k` counts the requests
outstanding at the port. -/
def execCxlCompletionTimeout (p : Fin 2) (k : Nat) (s : State) : Result :=
  .next (s.outOfReset fun s => s.cxlTimeout p k)

/-- R138: A device's answer to a mailbox broadcast or epoch store reaches the issuer, setting its NACK bit where the
store was refused or missed, and GO clears once every device in scope has answered. -/
def execBcastAnswer (port : Fin 4) (nack : Bool) (s : State) : Result :=
  .next (s.outOfReset fun s => s.goAnswer port nack)

/-- R476: A tamper sensor that raised an event leaves its event condition and may then raise a new event. -/
def execTamperConditionLeft (k : Fin 5) (s : State) : Result := .next (s.tamperLeft k)

end Sys2Proof.Machine
end

