-- ==== Sys2Proof/Machine/ExecSecurity.lean ====
section
/-! DEFINITION. What the commands do: the security controller, tamper response and the debug port (chapter 20). -/

namespace Sys2Proof.Machine

/-- R464: VERIFY checks an image in memory and extends the measurement. -/
def execVerify (s : State) : Result := .next (s.outOfReset fun s => s.secWork 1 (fun s a => s.verify a))

/-- R474: ATTEST writes a signed attestation report. -/
def execAttest (s : State) : Result := .next (s.outOfReset fun s => s.secWork 2 (fun s a => s.attest a))

/-- R471: REVOKE moves the root key to the next slot. `fail` names the burn that fails. -/
def execRevoke (fail : Option Nat) (s : State) : Result :=
  .next (s.outOfReset fun s => s.secWork 3 (fun s a => s.revoke a fail))

/-- R469: PROVISION burns slot 0, the identity and the PROVISIONED state. `fail` names the burn that fails. -/
def execProvision (fail : Option Nat) (s : State) : Result :=
  .next (s.outOfReset fun s => s.secWork 4 (fun s a => s.provision a fail))

/-- R468: TO_FIELD burns the life cycle to FIELD. `fail` names the burn that fails. -/
def execToField (fail : Option Nat) (s : State) : Result :=
  .next (s.outOfReset fun s => s.secWork 5 (fun s _ => s.toField fail))

/-- R468: TO_RETURN burns the life cycle to RETURN on an authorised record. `fail` names the burn that fails. -/
def execToReturn (fail : Option Nat) (s : State) : Result :=
  .next (s.outOfReset fun s => s.secWork 6 (fun s a => s.toReturn a fail))

/-- R479: CHALLENGE fills the challenge registers with fresh random bytes. -/
def execChallenge (s : State) : Result := .next (s.outOfReset fun s => s.secWork 7 (fun s _ => (0, s.newChallenge)))

/-- R479: DEBUG_UNLOCK checks a debug record, wipes Nadir and opens interfaces. -/
def execDebugUnlock (s : State) : Result := .next (s.outOfReset fun s => s.secWork 8 (fun s a => s.debugUnlock a))

/-- R472: SVN_COMMIT raises the OTP version floor. `fail` names the burn that fails. -/
def execSvnCommit (fail : Option Nat) (s : State) : Result :=
  .next (s.outOfReset fun s => s.secWork 9 (fun s _ => s.svnCommit fail))

/-- R460: A security command ends and RESULT holds its status. -/
def execSecCommandEnd (s : State) : Result := .next (s.outOfReset fun s => s.secEnd)

/-- R473: The SEC_SCRAP key sequence burns the life cycle to SCRAPPED. One write of the sequence; `fails` says that
the burn fails. -/
def execScrap (q : Req) (key : BitVec 16) (fails : Bool) (s : State) : Result :=
  .next (s.outOfReset fun s => s.scrapCmd q key.toNat fails)

/-- R465: The security controller loads and checks image A or B and starts thread 0. `a` and `b` are what the flash
holds as images A and B. -/
def execBootProcedure (a : List Byte) (b : List Byte) (s : State) : Result :=
  .next (s.outOfReset fun s => s.bootProcedure a b)

/-- R476: A tamper sensor fires, wiping Nadir and logging the event. `mask` names the sensors that come into their
conditions together. -/
def execTamperEvent (mask : BitVec 5) (s : State) : Result := .next (s.tamper mask.toNat)

/-- R477: CLEAR empties the tamper log. -/
def execTamperLogClear (q : Req) (s : State) : Result := .next (s.regCmd q R.PWR_TAMPER_LOG_CTL (2 ^ 31))

/-- R480: The TAP takes a new instruction. -/
def execTapIrUpdate (c : Fin 32) (s : State) : Result := .next (s.outOfReset fun s => s.tapIr c)

/-- R481: On Update-DR the TAP reads or writes a DBG block register. `off` is the register's offset in the DBG block.
-/
def execDbgReg (write : Bool) (off : BitVec 13) (data : BitVec 32) (s : State) : Result :=
  .next (s.outOfReset fun s => s.dbgReg write off.toNat data.toNat)

/-- R482: GO makes one debug memory or register access as the secure controller. -/
def execDbgCmdGo (s : State) : Result := .next (s.outOfReset fun s => s.dbgGo)

end Sys2Proof.Machine
end

