-- ==== Sys2Proof/Machine/ExecSquall.lean ====
section
/-! DEFINITION. What the commands do: Squall (chapter 8). -/

namespace Sys2Proof.Machine

/-- R227: Squall reads a ring descriptor and starts its command list. -/
def execSquallListStart (s : State) : Result := .next (s.outOfReset fun s => s.sqlStart)

/-- R232: NOP completes without any access. -/
def execSqlNop (s : State) : Result := .next (s.outOfReset fun s => s.sqlRun 0)

/-- R236: COPY moves pixels span by span in the set direction. -/
def execSqlCopy (s : State) : Result := .next (s.outOfReset fun s => s.sqlRun 1)

/-- R233: FILL writes COLOUR to every destination pixel. -/
def execSqlFill (s : State) : Result := .next (s.outOfReset fun s => s.sqlRun 2)

/-- R235: BLEND composites source over destination by premultiplied over. -/
def execSqlBlend (s : State) : Result := .next (s.outOfReset fun s => s.sqlRun 3)

/-- R233: EXPAND writes COLOUR or COLOUR2 for each G1 source bit. -/
def execSqlExpand (s : State) : Result := .next (s.outOfReset fun s => s.sqlRun 4)

/-- R234: CONVERT unpacks each source pixel and packs it in DST_FMT. -/
def execSqlConvert (s : State) : Result := .next (s.outOfReset fun s => s.sqlRun 5)

/-- R239: A list ends with its status and its completion record goes to Lull. -/
def execSquallListEnd (s : State) : Result := .next (s.outOfReset fun s => s.sqlEnd)

/-- R238: CANCEL ends the ring's list and covered descriptors with status 0x4. -/
def execSquallCancel (q : Req) (n : Fin 4) (v : BitVec 32) (s : State) : Result :=
  .next (s.regCmd q (R.SQL_RING_CFG n) (withBit v (F.SQL_RING_CFG_CANCEL n)))

end Sys2Proof.Machine
end

