-- ==== Sys2Proof/Machine/ExecSystem.lean ====
section
/-! DEFINITION. What the commands do: the system operations of Knarn, traps and interrupts (R246, R256 to R263). -/

namespace Sys2Proof.Machine

/-- R256: NOP does nothing. -/
def execNop (t : Fin 64) (w : BitVec 32) (s : State) : Result :=
  .next (s.kInstr t w (kFn8 0x30 0x00) (fun s _ => .done s))

/-- R257: SGSET loads a segment register after its checks. -/
def execSgset (t : Fin 64) (w : BitVec 32) (s : State) : Result :=
  .next (s.kInstr t w (kFn8 0x30 0x01) (fun s n => s.kPriv t n (s.kSetSeg t (kD n % 8) ⟨s.wA t n, s.wB t n⟩ true)))

/-- R256: SGGETB reads a segment's B word. -/
def execSggetb (t : Fin 64) (w : BitVec 32) (s : State) : Result :=
  .next (s.kInstr t w (kFn8 0x30 0x02) (fun s n => s.putD t n ((s.th t).seg (kSgA n)).b))

/-- R256: SGGETL reads a segment's L word. -/
def execSggetl (t : Fin 64) (w : BitVec 32) (s : State) : Result :=
  .next (s.kInstr t w (kFn8 0x30 0x03) (fun s n => s.putD t n ((s.th t).seg (kSgA n)).l))

/-- R257: SGSUB makes a sub-segment of sg[SGX] after its checks. -/
def execSgsub (t : Fin 64) (w : BitVec 32) (s : State) : Result :=
  .next (s.kInstr t w (kFn8 0x30 0x04) (fun s n => s.sgSub t n))

/-- R241: MFS reads a system register at its permitted level. -/
def execMfs (t : Fin 64) (w : BitVec 32) (s : State) : Result :=
  .next (s.kInstr t w (kFn8 0x30 0x08) (fun s n => s.kMfs t n))

/-- R241: MTS writes a system register at its permitted level. -/
def execMts (t : Fin 64) (w : BitVec 32) (s : State) : Result :=
  .next (s.kInstr t w (kFn8 0x30 0x09) (fun s n => s.kMts t n))

/-- R256: TRAP takes the SYSCALL trap with a code. -/
def execTrap (t : Fin 64) (w : BitVec 32) (s : State) : Result :=
  .next (s.kInstr t w (kFn8 0x30 0x10) (fun s n => .trap s 9 (bits n 11 10) 0))

/-- R256: BRK takes the BREAK trap with a code. -/
def execBrk (t : Fin 64) (w : BitVec 32) (s : State) : Result :=
  .next (s.kInstr t w (kFn8 0x30 0x11) (fun s n => .trap s 0x0A (bits n 11 10) 0))

/-- R260: TRET restores the saved state and returns from a trap. -/
def execTret (t : Fin 64) (w : BitVec 32) (s : State) : Result :=
  .next (s.kInstr t w (kFn8 0x30 0x12) (fun s n => s.kPriv t n (.jump (s.modTh t Thread.tret) ((s.th t).sr Sr.EPC))))

/-- R287: FENCE orders the predecessor set before the successor set. -/
def execFence (t : Fin 64) (w : BitVec 32) (s : State) : Result :=
  .next (s.kInstr t w (kFn8 0x30 0x20) (fun s n => if s.fenceWaits t n then .stay s else .done s))

/-- R256: IFENCE makes later fetches see earlier stores. -/
def execIfence (t : Fin 64) (w : BitVec 32) (s : State) : Result :=
  .next (s.kInstr t w (kFn8 0x30 0x21) (fun s _ => .done s))

/-- R256: WFI waits until an interrupt is pending or a wake request arrives. -/
def execWfi (t : Fin 64) (w : BitVec 32) (s : State) : Result :=
  .next (s.kInstr t w (kFn8 0x30 0x22) (fun s _ => if s.wfiDone t then .done s else .stay (s.kWait t .wfi)))

/-- R290: An interrupt or wake request ends a WFI wait. -/
def execWfiWake (t : Fin 64) (s : State) : Result := .next (s.outOfReset fun s => s.wfiWake t)

/-- R246: An illegal instruction word takes the ILLEGAL trap. -/
def execIllegalInstruction (t : Fin 64) (w : BitVec 32) (s : State) : Result :=
  .next (s.kRun t w kIllegal (fun s n => .trap s 0 n 0))

/-- R262: A pending Lull interrupt is taken between instructions. -/
def execInterruptTaken (t : Fin 64) (s : State) : Result := .next (s.outOfReset fun s => s.interrupt t)

/-- R263: An error response to a store returns and takes an imprecise bus-error trap. -/
def execStoreBusError (t : Fin 64) (s : State) : Result := .next (s.outOfReset fun s => s.storeError t)

end Sys2Proof.Machine
end

