-- ==== Sys2Proof/Machine/ExecTwd.lean ====
section
/-! DEFINITION. What the commands do: Tradewind (chapter 17). -/

namespace Sys2Proof.Machine

/-- R391: A Tradewind channel reads a descriptor and starts its transfer. -/
def execTwdTransferStart (c : Fin 32) (s : State) : Result := .next (s.outOfReset fun s => s.twdStart c)

/-- R395: A channel moves one piece of up to 64 bytes at its access slot. `rst`, `rdata` and `wst` are what a read and
a write outside the device would be answered. -/
def execTwdPiece (rst : Status) (rdata : List Byte) (wst : Status) (s : State) : Result :=
  .next (s.outOfReset fun s => s.twdPiece rst rdata wst)

/-- R400: A paced element use starts on its request. -/
def execTwdPacedUse (c : Fin 32) (s : State) : Result := .next (s.outOfReset fun s => s.twdPacedUse c)

/-- R403: A transfer completes and its record goes to Lull. -/
def execTwdComplete (c : Fin 32) (s : State) : Result := .next (s.outOfReset fun s => s.twdComplete c)

/-- R404: CANCEL ends the channel's transfer at an element boundary. -/
def execTwdCancel (q : Req) (c : Fin 32) (v : BitVec 32) (s : State) : Result :=
  .next (s.regCmd q (R.TWD_CH_CFG c) (withBit v (F.TWD_CH_CFG_CANCEL c)))

/-- R406: Once every channel has stopped, one error record is written. -/
def execTwdErrorRecord (s : State) : Result := .next (s.outOfReset fun s => s.twdErrorRecord)

/-- R407: RESUME continues a halted channel from its stopped element. -/
def execTwdResume (q : Req) (c : Fin 32) (s : State) : Result := .next (s.regCmd q (R.TWD_CH_CTRL c) 1)

/-- R407: ABORT ends a halted transfer with status 0x3. -/
def execTwdAbort (q : Req) (c : Fin 32) (s : State) : Result := .next (s.regCmd q (R.TWD_CH_CTRL c) 2)

/-- R405: A write of 0 to COUNT also clears TWD_ERR_ADDR and CAUSE. -/
def execTwdErrCountClear (q : Req) (s : State) : Result := .next (s.regCmd q R.TWD_ERR_INFO 0)

end Sys2Proof.Machine
end

