-- ==== Sys2Proof/Machine/ExecVector.lean ====
section
/-! DEFINITION. What the commands do: cp0, the cluster vector unit (R266, R267). -/

namespace Sys2Proof.Machine

/-- R267: VADD adds vector lanes. -/
def execVadd (t : Fin 64) (w : BitVec 32) (s : State) : Result := .next (kV2 t w 0x01 (fun f _ a b => faddFl f a b) s)

/-- R267: VSUB subtracts vector lanes. -/
def execVsub (t : Fin 64) (w : BitVec 32) (s : State) : Result := .next (kV2 t w 0x02 (fun f _ a b => fsubFl f a b) s)

/-- R267: VMUL multiplies vector lanes. -/
def execVmul (t : Fin 64) (w : BitVec 32) (s : State) : Result := .next (kV2 t w 0x03 (fun f _ a b => fmulFl f a b) s)

/-- R267: VDIV divides vector lanes. -/
def execVdiv (t : Fin 64) (w : BitVec 32) (s : State) : Result := .next (kV2 t w 0x04 (fun f _ a b => fdivFl f a b) s)

/-- R267: VSQRT takes lane square roots. -/
def execVsqrt (t : Fin 64) (w : BitVec 32) (s : State) : Result := .next (kV1 t w 0x05 fsqrtFl s)

/-- R267: VMIN takes lane minima. -/
def execVmin (t : Fin 64) (w : BitVec 32) (s : State) : Result := .next (kV2 t w 0x06 (laneMinMax true) s)

/-- R267: VMAX takes lane maxima. -/
def execVmax (t : Fin 64) (w : BitVec 32) (s : State) : Result := .next (kV2 t w 0x07 (laneMinMax false) s)

/-- R267: VABS clears lane sign bits. -/
def execVabs (t : Fin 64) (w : BitVec 32) (s : State) : Result := .next (kV1 t w 0x08 (fun f a => (fabs f a, {})) s)

/-- R267: VNEG inverts lane sign bits. -/
def execVneg (t : Fin 64) (w : BitVec 32) (s : State) : Result := .next (kV1 t w 0x09 (fun f a => (fneg f a, {})) s)

/-- R267: VCMPEQ compares lanes for equality. -/
def execVcmpeq (t : Fin 64) (w : BitVec 32) (s : State) : Result :=
  .next (kV2 t w 0x0A (laneCmp false (fun k => decide (k = 0))) s)

/-- R267: VCMPLT compares lanes for less than. -/
def execVcmplt (t : Fin 64) (w : BitVec 32) (s : State) : Result :=
  .next (kV2 t w 0x0B (laneCmp true (fun k => decide (k < 0))) s)

/-- R267: VCMPLE compares lanes for less or equal. -/
def execVcmple (t : Fin 64) (w : BitVec 32) (s : State) : Result :=
  .next (kV2 t w 0x0C (laneCmp true (fun k => decide (k ≤ 0))) s)

/-- R267: VSEL selects lanes by a mask. -/
def execVsel (t : Fin 64) (w : BitVec 32) (s : State) : Result :=
  .next (s.kInstr t w (kCp 0x38 0x0D) (fun s n => s.vSel t n))

/-- R267: VCVTW converts binary32 to binary64. -/
def execVcvtw (t : Fin 64) (w : BitVec 32) (s : State) : Result :=
  .next (kV1 t w 0x10 (fun _ a => fconvFl b32 b64 (a % 2 ^ 32)) s)

/-- R267: VCVTN converts binary64 to binary32. -/
def execVcvtn (t : Fin 64) (w : BitVec 32) (s : State) : Result :=
  .next (s.kInstr t w (kCp 0x38 0x11) (fun s n => s.putV t n (((s.th t).vec (kA n)).map (fconvFl b64 b32))))

/-- R267: VCVTIF converts integers to floating point. -/
def execVcvtif (t : Fin 64) (w : BitVec 32) (s : State) : Result :=
  .next (s.kInstr t w (kCp 0x38 0x12)
    (fun s n => s.putV t n (((s.th t).vec (kA n)).map (fun a => ofIntFl (kFmt n) (s64 a) 0))))

/-- R267: VCVTFI converts floating point to integers with saturation. -/
def execVcvtfi (t : Fin 64) (w : BitVec 32) (s : State) : Result :=
  .next (kV2 t w 0x13 (fun f c a _ => laneToInt f c a) s)

/-- R267: VLD loads 32 bytes into a vector register. -/
def execVld (t : Fin 64) (w : BitVec 32) (s : State) : Result :=
  .next (s.kInstr t w (kCp 0x38 0x18)
    (fun s n => s.viaSeg t (kX n % 8) (s64 (s.wA t n)) 32 true false (fun s a => s.loadAt t a 32 (.vec (kD n)))))

/-- R267: VST stores 32 bytes from a vector register. -/
def execVst (t : Fin 64) (w : BitVec 32) (s : State) : Result :=
  .next (s.kInstr t w (kCp 0x38 0x19)
    (fun s n => s.viaSeg t (kX n % 8) (s64 (s.wA t n)) 32 false true (fun s a => s.storeAt t a (((s.th t).vec
      (kD n)).flatMap (toBytes 8)) .done)))

/-- R267: VINS inserts wA into one lane. -/
def execVins (t : Fin 64) (w : BitVec 32) (s : State) : Result :=
  .next (s.kInstr t w (kCp 0x38 0x1C)
    (fun s n => .done (s.modTh t (fun x => x.setLane (kD n) (kX n % 4) (x.gpr (kA n))))))

/-- R267: VEXT extracts one lane into wD. -/
def execVext (t : Fin 64) (w : BitVec 32) (s : State) : Result :=
  .next (s.kInstr t w (kCp 0x38 0x1D) (fun s n => s.putD t n ((s.th t).lane (kA n) (kX n % 4))))

/-- R267: VBCAST copies wA into every lane. -/
def execVbcast (t : Fin 64) (w : BitVec 32) (s : State) : Result :=
  .next (s.kInstr t w (kCp 0x38 0x1E)
    (fun s n => .done (s.modTh t (fun x => x.setVec (kD n) (List.replicate 4 (x.gpr (kA n)))))))

/-- R267: VHSUM sums the lanes in fixed order. -/
def execVhsum (t : Fin 64) (w : BitVec 32) (s : State) : Result :=
  .next (s.kInstr t w (kCp 0x38 0x20)
    (fun s n => s.putSum t n (laneSum (kFmt n) (((s.th t).vec (kA n)).map (laneIn (kFmt n))))))

/-- R267: VDOT forms the dot product in fixed order. -/
def execVdot (t : Fin 64) (w : BitVec 32) (s : State) : Result :=
  .next (s.kInstr t w (kCp 0x38 0x21) (fun s n => s.vDot t n))

/-- R267: VSTAT reads and optionally clears the vector status flags. -/
def execVstat (t : Fin 64) (w : BitVec 32) (s : State) : Result :=
  .next (s.kInstr t w (kCp 0x38 0x30) (fun s n => s.vStat t n))

end Sys2Proof.Machine
end

