-- ==== Sys2Proof/Machine/Dispatch.lean ====
section
/-! DEFINITION. The meaning of every command: one arm per constructor of Instr. -/

namespace Sys2Proof.Machine

def exec (i : Instr) (s : State) : Host.Outcome State Fault Refusal :=
  match i with
  | .registerWrite q o bs => Sys2Proof.Machine.execRegisterWrite q o bs s
  | .doorbellWrite q r p => Sys2Proof.Machine.execDoorbellWrite q r p s
  | .ringEnable q r v => Sys2Proof.Machine.execRingEnable q r v s
  | .ringStop r => Sys2Proof.Machine.execRingStop r s
  | .poolAccess q o rot write n bs upset meet => Sys2Proof.Machine.execPoolAccess q o rot write n bs upset meet s
  | .scrubRead upset slow => Sys2Proof.Machine.execScrubRead upset slow s
  | .remapStart => Sys2Proof.Machine.execRemapStart s
  | .spareCopy => Sys2Proof.Machine.execSpareCopy s
  | .spareTakeover => Sys2Proof.Machine.execSpareTakeover s
  | .bankOwnershipWrite q b grant v => Sys2Proof.Machine.execBankOwnershipWrite q b grant v s
  | .handover b => Sys2Proof.Machine.execHandover b s
  | .nadirAccess q o upset read bs => Sys2Proof.Machine.execNadirAccess q o upset read bs s
  | .nadirWipeEnd => Sys2Proof.Machine.execNadirWipeEnd s
  | .ctsAccess q o write n bs => Sys2Proof.Machine.execCtsAccess q o write n bs s
  | .hseModelNextWrite q v => Sys2Proof.Machine.execHseModelNextWrite q v s
  | .validate q v => Sys2Proof.Machine.execValidate q v s
  | .validationEnd => Sys2Proof.Machine.execValidationEnd s
  | .release q v => Sys2Proof.Machine.execRelease q v s
  | .arm q v => Sys2Proof.Machine.execArm q v s
  | .disarm q v => Sys2Proof.Machine.execDisarm q v s
  | .hseEnable q v => Sys2Proof.Machine.execHseEnable q v s
  | .hseRestart q v => Sys2Proof.Machine.execHseRestart q v s
  | .tickReachesHse => Sys2Proof.Machine.execTickReachesHse s
  | .liveCycle => Sys2Proof.Machine.execLiveCycle s
  | .publication lat => Sys2Proof.Machine.execPublication lat s
  | .paramCommit q => Sys2Proof.Machine.execParamCommit q s
  | .sweepJobStart => Sys2Proof.Machine.execSweepJobStart s
  | .sweepCandidate lat => Sys2Proof.Machine.execSweepCandidate lat s
  | .sweepJobEnd => Sys2Proof.Machine.execSweepJobEnd s
  | .sweepCancel q n v => Sys2Proof.Machine.execSweepCancel q n v s
  | .capture q v => Sys2Proof.Machine.execCapture q v s
  | .clear q v => Sys2Proof.Machine.execClear q v s
  | .baseAddrWrite q v => Sys2Proof.Machine.execBaseAddrWrite q v s
  | .selftestStart q => Sys2Proof.Machine.execSelftestStart q s
  | .selftestCandidate lat => Sys2Proof.Machine.execSelftestCandidate lat s
  | .adoptArm q v => Sys2Proof.Machine.execAdoptArm q v s
  | .adoptedStateArrive c => Sys2Proof.Machine.execAdoptedStateArrive c s
  | .form q => Sys2Proof.Machine.execForm q s
  | .leave q => Sys2Proof.Machine.execLeave q s
  | .hello port pos gid members info => Sys2Proof.Machine.execHello port pos gid members info s
  | .formTimeout => Sys2Proof.Machine.execFormTimeout s
  | .timeToken port off info => Sys2Proof.Machine.execTimeToken port off info s
  | .peerLost port => Sys2Proof.Machine.execPeerLost port s
  | .groupTick => Sys2Proof.Machine.execGroupTick s
  | .digestReceive port epoch digest => Sys2Proof.Machine.execDigestReceive port epoch digest s
  | .voteClose => Sys2Proof.Machine.execVoteClose s
  | .barrierArrival n port => Sys2Proof.Machine.execBarrierArrival n port s
  | .barrierTimeout n => Sys2Proof.Machine.execBarrierTimeout n s
  | .mailboxBroadcast q v => Sys2Proof.Machine.execMailboxBroadcast q v s
  | .mailboxReceive port m d => Sys2Proof.Machine.execMailboxReceive port m d s
  | .epochStore q v => Sys2Proof.Machine.execEpochStore q v s
  | .epochStoreReceive port q epoch a data => Sys2Proof.Machine.execEpochStoreReceive port q epoch a data s
  | .snapshotCopy n => Sys2Proof.Machine.execSnapshotCopy n s
  | .snapshotArm q v => Sys2Proof.Machine.execSnapshotArm q v s
  | .snapshotDataReceive port q a epoch gated data => Sys2Proof.Machine.execSnapshotDataReceive port q a epoch gated data s
  | .resetRequestSend q v => Sys2Proof.Machine.execResetRequestSend q v s
  | .resetRequestReceive port => Sys2Proof.Machine.execResetRequestReceive port s
  | .resetGrantWrite q v => Sys2Proof.Machine.execResetGrantWrite q v s
  | .headEnable q n v => Sys2Proof.Machine.execHeadEnable q n v s
  | .headDisable q n v => Sys2Proof.Machine.execHeadDisable q n v s
  | .scanStop n => Sys2Proof.Machine.execScanStop n s
  | .commit q n v => Sys2Proof.Machine.execCommit q n v s
  | .vblankStart n => Sys2Proof.Machine.execVblankStart n s
  | .frameStart n => Sys2Proof.Machine.execFrameStart n s
  | .lineFetch n => Sys2Proof.Machine.execLineFetch n s
  | .train q n => Sys2Proof.Machine.execTrain q n s
  | .trainEnd n answers => Sys2Proof.Machine.execTrainEnd n answers s
  | .auxGo q n v => Sys2Proof.Machine.execAuxGo q n v s
  | .auxReply n kind code data => Sys2Proof.Machine.execAuxReply n kind code data s
  | .hpdIrq n => Sys2Proof.Machine.execHpdIrq n s
  | .hpdUnplug n => Sys2Proof.Machine.execHpdUnplug n s
  | .hpdPlug n => Sys2Proof.Machine.execHpdPlug n s
  | .meridianFrameStart n => Sys2Proof.Machine.execMeridianFrameStart n s
  | .merWait n => Sys2Proof.Machine.execMerWait n s
  | .merWaitReached n => Sys2Proof.Machine.execMerWaitReached n s
  | .merMove n => Sys2Proof.Machine.execMerMove n s
  | .merMoveb n => Sys2Proof.Machine.execMerMoveb n s
  | .merSkip n => Sys2Proof.Machine.execMerSkip n s
  | .merJump n => Sys2Proof.Machine.execMerJump n s
  | .merEvent n => Sys2Proof.Machine.execMerEvent n s
  | .merSync n => Sys2Proof.Machine.execMerSync n s
  | .merSyncPulse n => Sys2Proof.Machine.execMerSyncPulse n s
  | .merEnd n => Sys2Proof.Machine.execMerEnd n s
  | .lineCompose n => Sys2Proof.Machine.execLineCompose n s
  | .lineCommit n drained => Sys2Proof.Machine.execLineCommit n drained s
  | .lineLate n => Sys2Proof.Machine.execLineLate n s
  | .flattenTile => Sys2Proof.Machine.execFlattenTile s
  | .fcEn q v => Sys2Proof.Machine.execFcEn q v s
  | .wbCaptureStart n => Sys2Proof.Machine.execWbCaptureStart n s
  | .wbComplete n => Sys2Proof.Machine.execWbComplete n s
  | .regionCheck n r => Sys2Proof.Machine.execRegionCheck n r s
  | .learn q n v => Sys2Proof.Machine.execLearn q n v s
  | .alarmCheck n => Sys2Proof.Machine.execAlarmCheck n s
  | .squallListStart => Sys2Proof.Machine.execSquallListStart s
  | .sqlNop => Sys2Proof.Machine.execSqlNop s
  | .sqlCopy => Sys2Proof.Machine.execSqlCopy s
  | .sqlFill => Sys2Proof.Machine.execSqlFill s
  | .sqlBlend => Sys2Proof.Machine.execSqlBlend s
  | .sqlExpand => Sys2Proof.Machine.execSqlExpand s
  | .sqlConvert => Sys2Proof.Machine.execSqlConvert s
  | .squallListEnd => Sys2Proof.Machine.execSquallListEnd s
  | .squallCancel q n v => Sys2Proof.Machine.execSquallCancel q n v s
  | .add t w => Sys2Proof.Machine.execAdd t w s
  | .sub t w => Sys2Proof.Machine.execSub t w s
  | .adc t w => Sys2Proof.Machine.execAdc t w s
  | .sbc t w => Sys2Proof.Machine.execSbc t w s
  | .neg t w => Sys2Proof.Machine.execNeg t w s
  | .adds t w => Sys2Proof.Machine.execAdds t w s
  | .subs t w => Sys2Proof.Machine.execSubs t w s
  | .addus t w => Sys2Proof.Machine.execAddus t w s
  | .subus t w => Sys2Proof.Machine.execSubus t w s
  | .and t w => Sys2Proof.Machine.execAnd t w s
  | .or t w => Sys2Proof.Machine.execOr t w s
  | .xor t w => Sys2Proof.Machine.execXor t w s
  | .andn t w => Sys2Proof.Machine.execAndn t w s
  | .sll t w => Sys2Proof.Machine.execSll t w s
  | .srl t w => Sys2Proof.Machine.execSrl t w s
  | .sra t w => Sys2Proof.Machine.execSra t w s
  | .mul t w => Sys2Proof.Machine.execMul t w s
  | .mulh t w => Sys2Proof.Machine.execMulh t w s
  | .mulhu t w => Sys2Proof.Machine.execMulhu t w s
  | .div t w => Sys2Proof.Machine.execDiv t w s
  | .divu t w => Sys2Proof.Machine.execDivu t w s
  | .rem t w => Sys2Proof.Machine.execRem t w s
  | .remu t w => Sys2Proof.Machine.execRemu t w s
  | .slt t w => Sys2Proof.Machine.execSlt t w s
  | .sltu t w => Sys2Proof.Machine.execSltu t w s
  | .min t w => Sys2Proof.Machine.execMin t w s
  | .max t w => Sys2Proof.Machine.execMax t w s
  | .minu t w => Sys2Proof.Machine.execMinu t w s
  | .maxu t w => Sys2Proof.Machine.execMaxu t w s
  | .clz t w => Sys2Proof.Machine.execClz t w s
  | .ctz t w => Sys2Proof.Machine.execCtz t w s
  | .popc t w => Sys2Proof.Machine.execPopc t w s
  | .sextb t w => Sys2Proof.Machine.execSextb t w s
  | .sexth t w => Sys2Proof.Machine.execSexth t w s
  | .sextw t w => Sys2Proof.Machine.execSextw t w s
  | .zextw t w => Sys2Proof.Machine.execZextw t w s
  | .addi t w => Sys2Proof.Machine.execAddi t w s
  | .andi t w => Sys2Proof.Machine.execAndi t w s
  | .ori t w => Sys2Proof.Machine.execOri t w s
  | .xori t w => Sys2Proof.Machine.execXori t w s
  | .slti t w => Sys2Proof.Machine.execSlti t w s
  | .sltiu t w => Sys2Proof.Machine.execSltiu t w s
  | .slli t w => Sys2Proof.Machine.execSlli t w s
  | .srli t w => Sys2Proof.Machine.execSrli t w s
  | .srai t w => Sys2Proof.Machine.execSrai t w s
  | .imms t w => Sys2Proof.Machine.execImms t w s
  | .immi t w => Sys2Proof.Machine.execImmi t w s
  | .addpc t w => Sys2Proof.Machine.execAddpc t w s
  | .ldb t w => Sys2Proof.Machine.execLdb t w s
  | .ldbu t w => Sys2Proof.Machine.execLdbu t w s
  | .ldh t w => Sys2Proof.Machine.execLdh t w s
  | .ldhu t w => Sys2Proof.Machine.execLdhu t w s
  | .ldw t w => Sys2Proof.Machine.execLdw t w s
  | .ldwu t w => Sys2Proof.Machine.execLdwu t w s
  | .ldd t w => Sys2Proof.Machine.execLdd t w s
  | .stb t w => Sys2Proof.Machine.execStb t w s
  | .sth t w => Sys2Proof.Machine.execSth t w s
  | .stw t w => Sys2Proof.Machine.execStw t w s
  | .std t w => Sys2Proof.Machine.execStd t w s
  | .swap t w => Sys2Proof.Machine.execSwap t w s
  | .aadd t w => Sys2Proof.Machine.execAadd t w s
  | .aand t w => Sys2Proof.Machine.execAand t w s
  | .aor t w => Sys2Proof.Machine.execAor t w s
  | .axor t w => Sys2Proof.Machine.execAxor t w s
  | .cas t w => Sys2Proof.Machine.execCas t w s
  | .beq t w => Sys2Proof.Machine.execBeq t w s
  | .bne t w => Sys2Proof.Machine.execBne t w s
  | .blt t w => Sys2Proof.Machine.execBlt t w s
  | .bge t w => Sys2Proof.Machine.execBge t w s
  | .bltu t w => Sys2Proof.Machine.execBltu t w s
  | .bgeu t w => Sys2Proof.Machine.execBgeu t w s
  | .j t w => Sys2Proof.Machine.execJ t w s
  | .call t w => Sys2Proof.Machine.execCall t w s
  | .jr t w => Sys2Proof.Machine.execJr t w s
  | .callr t w => Sys2Proof.Machine.execCallr t w s
  | .ret t w => Sys2Proof.Machine.execRet t w s
  | .push t w => Sys2Proof.Machine.execPush t w s
  | .pop t w => Sys2Proof.Machine.execPop t w s
  | .nop t w => Sys2Proof.Machine.execNop t w s
  | .sgset t w => Sys2Proof.Machine.execSgset t w s
  | .sggetb t w => Sys2Proof.Machine.execSggetb t w s
  | .sggetl t w => Sys2Proof.Machine.execSggetl t w s
  | .sgsub t w => Sys2Proof.Machine.execSgsub t w s
  | .mfs t w => Sys2Proof.Machine.execMfs t w s
  | .mts t w => Sys2Proof.Machine.execMts t w s
  | .trap t w => Sys2Proof.Machine.execTrap t w s
  | .brk t w => Sys2Proof.Machine.execBrk t w s
  | .tret t w => Sys2Proof.Machine.execTret t w s
  | .fence t w => Sys2Proof.Machine.execFence t w s
  | .ifence t w => Sys2Proof.Machine.execIfence t w s
  | .wfi t w => Sys2Proof.Machine.execWfi t w s
  | .wfiWake t => Sys2Proof.Machine.execWfiWake t s
  | .illegalInstruction t w => Sys2Proof.Machine.execIllegalInstruction t w s
  | .interruptTaken t => Sys2Proof.Machine.execInterruptTaken t s
  | .storeBusError t => Sys2Proof.Machine.execStoreBusError t s
  | .vadd t w => Sys2Proof.Machine.execVadd t w s
  | .vsub t w => Sys2Proof.Machine.execVsub t w s
  | .vmul t w => Sys2Proof.Machine.execVmul t w s
  | .vdiv t w => Sys2Proof.Machine.execVdiv t w s
  | .vsqrt t w => Sys2Proof.Machine.execVsqrt t w s
  | .vmin t w => Sys2Proof.Machine.execVmin t w s
  | .vmax t w => Sys2Proof.Machine.execVmax t w s
  | .vabs t w => Sys2Proof.Machine.execVabs t w s
  | .vneg t w => Sys2Proof.Machine.execVneg t w s
  | .vcmpeq t w => Sys2Proof.Machine.execVcmpeq t w s
  | .vcmplt t w => Sys2Proof.Machine.execVcmplt t w s
  | .vcmple t w => Sys2Proof.Machine.execVcmple t w s
  | .vsel t w => Sys2Proof.Machine.execVsel t w s
  | .vcvtw t w => Sys2Proof.Machine.execVcvtw t w s
  | .vcvtn t w => Sys2Proof.Machine.execVcvtn t w s
  | .vcvtif t w => Sys2Proof.Machine.execVcvtif t w s
  | .vcvtfi t w => Sys2Proof.Machine.execVcvtfi t w s
  | .vld t w => Sys2Proof.Machine.execVld t w s
  | .vst t w => Sys2Proof.Machine.execVst t w s
  | .vins t w => Sys2Proof.Machine.execVins t w s
  | .vext t w => Sys2Proof.Machine.execVext t w s
  | .vbcast t w => Sys2Proof.Machine.execVbcast t w s
  | .vhsum t w => Sys2Proof.Machine.execVhsum t w s
  | .vdot t w => Sys2Proof.Machine.execVdot t w s
  | .vstat t w => Sys2Proof.Machine.execVstat t w s
  | .hqlatch t w => Sys2Proof.Machine.execHqlatch t w s
  | .hqread t w => Sys2Proof.Machine.execHqread t w s
  | .hqstat t w => Sys2Proof.Machine.execHqstat t w s
  | .waitbeam t w => Sys2Proof.Machine.execWaitbeam t w s
  | .waitbeamEnd t => Sys2Proof.Machine.execWaitbeamEnd t s
  | .barrier t w => Sys2Proof.Machine.execBarrier t w s
  | .barrierRelease n => Sys2Proof.Machine.execBarrierRelease n s
  | .snapshot t w => Sys2Proof.Machine.execSnapshot t w s
  | .epoch t w => Sys2Proof.Machine.execEpoch t w s
  | .fld t w => Sys2Proof.Machine.execFld t w s
  | .fst t w => Sys2Proof.Machine.execFst t w s
  | .fadd t w => Sys2Proof.Machine.execFadd t w s
  | .fsub t w => Sys2Proof.Machine.execFsub t w s
  | .fmul t w => Sys2Proof.Machine.execFmul t w s
  | .fsqr t w => Sys2Proof.Machine.execFsqr t w s
  | .fsel t w => Sys2Proof.Machine.execFsel t w s
  | .fzero t w => Sys2Proof.Machine.execFzero t w s
  | .fmovw t w => Sys2Proof.Machine.execFmovw t w s
  | .sig0 t w => Sys2Proof.Machine.execSig0 t w s
  | .sig1 t w => Sys2Proof.Machine.execSig1 t w s
  | .sum0 t w => Sys2Proof.Machine.execSum0 t w s
  | .sum1 t w => Sys2Proof.Machine.execSum1 t w s
  | .ch t w => Sys2Proof.Machine.execCh t w s
  | .maj t w => Sys2Proof.Machine.execMaj t w s
  | .threadStart q t v => Sys2Proof.Machine.execThreadStart q t v s
  | .threadStop q t v => Sys2Proof.Machine.execThreadStop q t v s
  | .flush q c v => Sys2Proof.Machine.execFlush q c v s
  | .gstStep e => Sys2Proof.Machine.execGstStep e s
  | .gstShift e => Sys2Proof.Machine.execGstShift e s
  | .gstDrive e => Sys2Proof.Machine.execGstDrive e s
  | .gstAwait e => Sys2Proof.Machine.execGstAwait e s
  | .gstBranch e => Sys2Proof.Machine.execGstBranch e s
  | .gstCount e => Sys2Proof.Machine.execGstCount e s
  | .gstXfer e => Sys2Proof.Machine.execGstXfer e s
  | .gstSignal e => Sys2Proof.Machine.execGstSignal e s
  | .gstStamp e => Sys2Proof.Machine.execGstStamp e s
  | .gstCheck e => Sys2Proof.Machine.execGstCheck e s
  | .gstIllegal e => Sys2Proof.Machine.execGstIllegal e s
  | .gstStallComplete e => Sys2Proof.Machine.execGstStallComplete e s
  | .gstEnable q e v => Sys2Proof.Machine.execGstEnable q e v s
  | .gstRestart q e v => Sys2Proof.Machine.execGstRestart q e v s
  | .fifoClr q e v => Sys2Proof.Machine.execFifoClr q e v s
  | .divRestart q e v => Sys2Proof.Machine.execDivRestart q e v s
  | .gstStart q m => Sys2Proof.Machine.execGstStart q m s
  | .gstStop q m => Sys2Proof.Machine.execGstStop q m s
  | .gstTxfWrite q e ws => Sys2Proof.Machine.execGstTxfWrite q e ws s
  | .gstRxfRead q e n => Sys2Proof.Machine.execGstRxfRead q e n s
  | .gstProgWrite q g j v => Sys2Proof.Machine.execGstProgWrite q g j v s
  | .gpioOutWrite q j v => Sys2Proof.Machine.execGpioOutWrite q j v s
  | .pinCfgWrite q p v => Sys2Proof.Machine.execPinCfgWrite q p v s
  | .pinLock q p key => Sys2Proof.Machine.execPinLock q p key s
  | .pinDetect p level => Sys2Proof.Machine.execPinDetect p level s
  | .vddioChange k good => Sys2Proof.Machine.execVddioChange k good s
  | .sourceEvent c src => Sys2Proof.Machine.execSourceEvent c src s
  | .channelPulse c => Sys2Proof.Machine.execChannelPulse c s
  | .heldEmit c => Sys2Proof.Machine.execHeldEmit c s
  | .brzFire q c rest => Sys2Proof.Machine.execBrzFire q c rest s
  | .taskInputEvent g k => Sys2Proof.Machine.execTaskInputEvent g k s
  | .timArm q c v => Sys2Proof.Machine.execTimArm q c v s
  | .timStop q c v => Sys2Proof.Machine.execTimStop q c v s
  | .timCapture q c v => Sys2Proof.Machine.execTimCapture q c v s
  | .timTick c => Sys2Proof.Machine.execTimTick c s
  | .set q => Sys2Proof.Machine.execSet q s
  | .lullCompletion unit index => Sys2Proof.Machine.execLullCompletion unit index s
  | .lullRecordWrite n => Sys2Proof.Machine.execLullRecordWrite n s
  | .lulResume q n v => Sys2Proof.Machine.execLulResume q n v s
  | .consIdxWrite q n v => Sys2Proof.Machine.execConsIdxWrite q n v s
  | .coalesceRelease n => Sys2Proof.Machine.execCoalesceRelease n s
  | .evtMapWrite q j v => Sys2Proof.Machine.execEvtMapWrite q j v s
  | .twdTransferStart c => Sys2Proof.Machine.execTwdTransferStart c s
  | .twdPiece rst rdata wst => Sys2Proof.Machine.execTwdPiece rst rdata wst s
  | .twdPacedUse c => Sys2Proof.Machine.execTwdPacedUse c s
  | .twdComplete c => Sys2Proof.Machine.execTwdComplete c s
  | .twdCancel q c v => Sys2Proof.Machine.execTwdCancel q c v s
  | .twdErrorRecord => Sys2Proof.Machine.execTwdErrorRecord s
  | .twdResume q c => Sys2Proof.Machine.execTwdResume q c s
  | .twdAbort q c => Sys2Proof.Machine.execTwdAbort q c s
  | .twdErrCountClear q => Sys2Proof.Machine.execTwdErrCountClear q s
  | .galEnable q v => Sys2Proof.Machine.execGalEnable q v s
  | .sampleFrame words late => Sys2Proof.Machine.execSampleFrame words late s
  | .keyOn q c => Sys2Proof.Machine.execKeyOn q c s
  | .keyOff q c => Sys2Proof.Machine.execKeyOff q c s
  | .xpTargetWrite q o j v => Sys2Proof.Machine.execXpTargetWrite q o j v s
  | .xpHoldRelease q v => Sys2Proof.Machine.execXpHoldRelease q v s
  | .bqCoefWrite q k j v => Sys2Proof.Machine.execBqCoefWrite q k j v s
  | .bqClear q k v => Sys2Proof.Machine.execBqClear q k v s
  | .galBufferComplete n => Sys2Proof.Machine.execGalBufferComplete n s
  | .galCancel q n v => Sys2Proof.Machine.execGalCancel q n v s
  | .cxlLinkEn q p v => Sys2Proof.Machine.execCxlLinkEn q p v s
  | .cxlLinkUp p width => Sys2Proof.Machine.execCxlLinkUp p width s
  | .memEn q p v => Sys2Proof.Machine.execMemEn q p v s
  | .cxlConfigAccess q kind o n data => Sys2Proof.Machine.execCxlConfigAccess q kind o n data s
  | .cxlMemoryAccess q kind o n data => Sys2Proof.Machine.execCxlMemoryAccess q kind o n data s
  | .cxlLinkLost p => Sys2Proof.Machine.execCxlLinkLost p s
  | .atsEn q n v => Sys2Proof.Machine.execAtsEn q n v s
  | .retrain q n v => Sys2Proof.Machine.execRetrain q n v s
  | .atsTrainDone n pass => Sys2Proof.Machine.execAtsTrainDone n pass s
  | .laneFail n l symbols => Sys2Proof.Machine.execLaneFail n l symbols s
  | .codewordReplay n corrected failed => Sys2Proof.Machine.execCodewordReplay n corrected failed s
  | .atsLinkLost n => Sys2Proof.Machine.execAtsLinkLost n s
  | .peerWindowRequest q kind port o n data => Sys2Proof.Machine.execPeerWindowRequest q kind port o n data s
  | .peerRequestReceive port q kind o n data => Sys2Proof.Machine.execPeerRequestReceive port q kind o n data s
  | .ethEn q e v => Sys2Proof.Machine.execEthEn q e v s
  | .frameTransmit e => Sys2Proof.Machine.execFrameTransmit e s
  | .frameReceive e frame => Sys2Proof.Machine.execFrameReceive e frame s
  | .ppsPulse e => Sys2Proof.Machine.execPpsPulse e s
  | .ppsPulseEnd e => Sys2Proof.Machine.execPpsPulseEnd e s
  | .mdioGo q e v => Sys2Proof.Machine.execMdioGo q e v s
  | .mdioDone data => Sys2Proof.Machine.execMdioDone data s
  | .xspiGo q v => Sys2Proof.Machine.execXspiGo q v s
  | .xspiDone data timeout => Sys2Proof.Machine.execXspiDone data timeout s
  | .bmiGo q n v sdaLow => Sys2Proof.Machine.execBmiGo q n v sdaLow s
  | .bmiDone n how => Sys2Proof.Machine.execBmiDone n how s
  | .dbguTxWrite q b => Sys2Proof.Machine.execDbguTxWrite q b s
  | .dbguRxRead q => Sys2Proof.Machine.execDbguRxRead q s
  | .uartByteReceived b noStop => Sys2Proof.Machine.execUartByteReceived b noStop s
  | .uartByteSent => Sys2Proof.Machine.execUartByteSent s
  | .verify => Sys2Proof.Machine.execVerify s
  | .attest => Sys2Proof.Machine.execAttest s
  | .revoke fail => Sys2Proof.Machine.execRevoke fail s
  | .provision fail => Sys2Proof.Machine.execProvision fail s
  | .toField fail => Sys2Proof.Machine.execToField fail s
  | .toReturn fail => Sys2Proof.Machine.execToReturn fail s
  | .challenge => Sys2Proof.Machine.execChallenge s
  | .debugUnlock => Sys2Proof.Machine.execDebugUnlock s
  | .svnCommit fail => Sys2Proof.Machine.execSvnCommit fail s
  | .secCommandEnd => Sys2Proof.Machine.execSecCommandEnd s
  | .scrap q key fails => Sys2Proof.Machine.execScrap q key fails s
  | .bootProcedure a b => Sys2Proof.Machine.execBootProcedure a b s
  | .tamperEvent mask => Sys2Proof.Machine.execTamperEvent mask s
  | .tamperLogClear q => Sys2Proof.Machine.execTamperLogClear q s
  | .tapIrUpdate c => Sys2Proof.Machine.execTapIrUpdate c s
  | .dbgReg write off data => Sys2Proof.Machine.execDbgReg write off data s
  | .dbgCmdGo => Sys2Proof.Machine.execDbgCmdGo s
  | .domainSwitchWrite q d v => Sys2Proof.Machine.execDomainSwitchWrite q d v s
  | .domainWakeComplete d => Sys2Proof.Machine.execDomainWakeComplete d s
  | .domainSleepComplete d => Sys2Proof.Machine.execDomainSleepComplete d s
  | .autoWake c => Sys2Proof.Machine.execAutoWake c s
  | .coreFreqWrite q c v => Sys2Proof.Machine.execCoreFreqWrite q c v s
  | .coreClockMove c => Sys2Proof.Machine.execCoreClockMove c s
  | .pixClockWrite q n v => Sys2Proof.Machine.execPixClockWrite q n v s
  | .pixRelock n => Sys2Proof.Machine.execPixRelock n s
  | .pllLock k => Sys2Proof.Machine.execPllLock k s
  | .refLoss => Sys2Proof.Machine.execRefLoss s
  | .refReturn => Sys2Proof.Machine.execRefReturn s
  | .coldReset => Sys2Proof.Machine.execColdReset s
  | .porstRise straps => Sys2Proof.Machine.execPorstRise straps s
  | .warmReset q key => Sys2Proof.Machine.execWarmReset q key s
  | .leaveTwilight q => Sys2Proof.Machine.execLeaveTwilight q s
  | .tjUpdate v => Sys2Proof.Machine.execTjUpdate v s
  | .lullQueueEnable q n v => Sys2Proof.Machine.execLullQueueEnable q n v s
  | .ethLinkUp e => Sys2Proof.Machine.execEthLinkUp e s
  | .ethLinkDown e => Sys2Proof.Machine.execEthLinkDown e s
  | .peerWindowResponse port k st data => Sys2Proof.Machine.execPeerWindowResponse port k st data s
  | .cxlCompletion p k data poison => Sys2Proof.Machine.execCxlCompletion p k data poison s
  | .cxlCompletionTimeout p k => Sys2Proof.Machine.execCxlCompletionTimeout p k s
  | .bcastAnswer port nack => Sys2Proof.Machine.execBcastAnswer port nack s
  | .tamperConditionLeft k => Sys2Proof.Machine.execTamperConditionLeft k s

end Sys2Proof.Machine
end

