-- ==== Sys2Proof/Safety.lean ====
section
/-! DEFINITION. What the claims call a canonical state, a safe step, an open bank, a running sequencer. -/

namespace Sys2Proof.Machine

/-- The canonical form of memory: addresses strictly rising, no entry that reads as an unlisted byte does. -/
def Memory.wf (m : AMap Byte) : Bool := AMap.wf m (fun _ => 0)

/-- The canonical form of the registers: keys strictly rising, no entry equal to its register's reset value. -/
def Registers.wf (m : AMap Word) : Bool := AMap.wf m (fun k => BitVec.ofNat 64 (regReset k))

/-- Memory and registers are in their canonical forms, so that equal contents are equal data. -/
def State.canonical (s : State) : Bool := Memory.wf s.mem && Registers.wf s.regs

/-- Between `s` and `t` only registers and the answer to the last access differ, and of the registers only those of
`ks`. -/
def onlyRegs (s t : State) (ks : List Nat) : Prop :=
  t = { s with regs := t.regs, resp := t.resp } ∧ ∀ k, k ∉ ks → t.reg k = s.reg k

/-- The outcome is a next state. -/
def completes (o : Host.Outcome State Fault Refusal) : Prop := ∃ t, o = .next t

/-- A step from `s` neither faults nor is refused. -/
def State.safe (s : State) : Prop := completes (step s)

/-- The pulses that one event of Breeze source `src` sends out (R352). -/
def State.pulses (s : State) (src : Nat) : List (Nat × Nat) := (s.listeners src).map (fun c => (src, c))

/-- No pulse on its way to its consumers is due before time passes (R353). -/
def State.calm (s : State) : Prop := ∀ h ∈ s.hops, s.now < h.1

/-! ### Answers of ports (R287, R533) -/

/-- The tag is none of a thread's. -/
def State.foreign (s : State) (q : Req) : Prop := ∀ t < 64, q.tag ≠ (s.kReq t).tag

/-- `u` is `s` after request `o` has been answered to its sender with `r`, `rest` staying outstanding. Where its tag is a
thread's, a STOP or a barrier release that waited for it may follow (R289, R291); otherwise nothing else has changed. -/
def Answered (s u : State) (o : Outst) (rest : List Outst) (r : Resp) : Prop :=
  u.outst = rest ∧ u.resp = r ∧ u.mem = s.mem ∧ u.out = s.out ∧
  (s.foreign o.req → u = { s with outst := rest, resp := r })

/-! ### Knarn -/

/-- Thread `t` runs and waits for no load, and its fetch gives `w`, a legal instruction word of pattern `p`; `s'` is the
machine after that fetch. -/
structure Fetches (s : State) (t : Fin 64) (w : BitVec 32) (p : KPat) (s' : State) : Prop where
  ready : s.kReady t = true
  is    : p.is w.toNat = true
  legal : kIllegal w.toNat = false
  word  : s.kFetch t = .word s' w.toNat

/-- The outcome is a next state in which thread `t` of `s` has gone on to the next instruction with `v` in w`rd` and
C, V and DZ of its ST reading `c`, `ov` and `dz`; everything else is as in `s`. -/
def Computes (o : Result) (s : State) (t rd v : Nat) (c ov dz : Bool) : Prop :=
  ∃ u, o = .next u ∧ u = s.setTh t (u.th t) ∧
    u.th t = { s.th t with w := (u.th t).w, sys := (u.th t).sys, pc := (s.th t).pc + 4 } ∧
    (∀ r, (u.th t).gpr r = if r = rd then v else (s.th t).gpr r) ∧
    (∀ i, (u.th t).st i = if i = St.C then c else if i = St.V then ov else if i = St.DZ then dz else (s.th t).st i) ∧
    ∀ n, n ≠ Sr.ST → (u.th t).sr n = (s.th t).sr n

/-- A signed number that does not fit in 64 bits. -/
def overflows (x : Int) : Bool := decide (x < -2 ^ 63 ∨ 2 ^ 63 ≤ x)

/-- An access of `n` bytes at pool offset `o` lies in banks that admit it, are powered and in use; no word is upset and no
bank is being copied. -/
structure PoolOpen (s : State) (q : Req) (write : Bool) (o n : Nat) : Prop where
  inPool : o + n ≤ poolSize
  banks  : ∀ b ∈ banksAt o n,
    s.bankAdmits q write b = true ∧ s.bankTakes b = true ∧ s.fld (F.POOL_BANK_STATE_STATE b) ≠ 3
  clean  : s.ecc = []
  still  : s.pool.copy = none

/-- The HSE may read every part of the model in bank `b` that one unit reads (R75). -/
structure ModelOpen (s : State) (b : Nat) : Prop where
  bank : PoolOpen s s.hseReq false (b * bankSize) bankSize
  own  : bits (s.ownInForce b) 0 4 = 8
  fits : ∀ e ∈ (s.ship (modelAddr b)).parts, e.1 + e.2 ≤ bankSize
  tabs : (s.ship (modelAddr b)).hydro < 1024 ∧ (s.ship (modelAddr b)).kn < 1024 ∧ (s.ship (modelAddr b)).section_ < 1024 ∧
    ∀ i < (s.ship (modelAddr b)).tanks, s.num ((s.ship (modelAddr b)).tank i + 4) 2 < 1024

/-- Requester `q` may reach the registers of ring `r`: the engine is powered and it and the ring admit `q`. -/
structure RingOpen (s : State) (q : Req) (r : Ring) : Prop where
  on   : s.blockOn (blockOf r.dbKey) = true
  ring : s.ringAdmits q r = true
  gale : ∀ n, r = .gal n → s.admits q (s.fld F.GAL_OWN_OWNER) (s.flag F.GAL_OWN_S) = true

/-- The outcome is a next state in which the `bs.length` bytes of memory at `a` hold `bs` and thread `t` of `s` has
become `x`; every other byte, thread and register is as in `s`, and of the rest only what watches memory has changed: ring
slots, heads' tiles and programs, and the words that caches hold. -/
def Stores (o : Result) (s : State) (t a : Nat) (bs : List Byte) (x : Thread) : Prop :=
  ∃ u, o = .next u ∧
    u = { s with mem := u.mem, threads := u.threads, rings := u.rings, heads := u.heads, dirty := u.dirty } ∧
    u.bytes a bs.length = bs ∧ (∀ j, ¬ (a ≤ j ∧ j < a + bs.length) → u.byte j = s.byte j) ∧
    u.th t = x ∧ ∀ v, v ≠ t → u.th v = s.th v

/-- The outcome is trap entry (R260) of thread `t` of `s` with this CAUSE, TVAL and EPC: the segments, w31 and ST are saved,
those of the handler loaded, PRIV and IN_TRAP set, IE cleared, and PC at TVEC; `dz` says that the entry sets DZ (R250).
Everything else is as in `s`. -/
def Enters (o : Result) (s : State) (t cause tval epc : Nat) (dz : Bool := false) : Prop :=
  ∃ u, o = .next u ∧ u = s.setTh t (u.th t) ∧
    (u.th t) = { s.th t with w := (u.th t).w, sgB := (u.th t).sgB, sgL := (u.th t).sgL, sys := (u.th t).sys,
                             pc := BitVec.ofNat 64 ((s.th t).sr Sr.TVEC / 4 * 4) } ∧
    (∀ r, (u.th t).gpr r = if r = 31 then (s.th t).sr Sr.TSP else (s.th t).gpr r) ∧
    (u.th t).seg 0 = ⟨(s.th t).sr 0x0C, (s.th t).sr 0x0D⟩ ∧ (u.th t).seg 7 = ⟨(s.th t).sr 0x0E, (s.th t).sr 0x0F⟩ ∧
    (∀ g, g ≠ 0 → g ≠ 7 → (u.th t).seg g = (s.th t).seg g) ∧
    (u.th t).sr Sr.EST = (s.th t).sr Sr.ST ∧ (u.th t).sr Sr.EPC = epc ∧ (u.th t).sr Sr.CAUSE = cause ∧
    (u.th t).sr Sr.TVAL = tval ∧ (u.th t).sr Sr.ESP = (s.th t).gpr 31 ∧
    (u.th t).sr 0x08 = ((s.th t).seg 0).b ∧ (u.th t).sr 0x09 = ((s.th t).seg 0).l ∧
    (u.th t).sr 0x0A = ((s.th t).seg 7).b ∧ (u.th t).sr 0x0B = ((s.th t).seg 7).l ∧
    (∀ i, (u.th t).st i = if i = St.PRIV ∨ i = St.IN_TRAP then true else if i = St.IE then false
      else if i = St.DZ then (s.th t).st i || dz else (s.th t).st i) ∧
    ∀ k, k = 0x06 ∨ k = 0x07 ∨ (0x0C ≤ k) → (u.th t).sr k = (s.th t).sr k

/-- The outcome is a next state in which thread `t` of `s` has gone on to the next instruction with lane `i` of v`rd`
holding `val i` and the vector status added to by the flags `fl i`; everything else is as in `s`. -/
def Lanes (o : Result) (s : State) (t rd : Nat) (val : Nat → Nat) (fl : Nat → FFlags) : Prop :=
  ∃ u, o = .next u ∧
    u = s.setTh t { s.th t with v := (u.th t).v, vstat := (u.th t).vstat, pc := (s.th t).pc + 4 } ∧
    (∀ r i, i < 4 → (u.th t).lane r i = if r = rd then val i else (s.th t).lane r i) ∧
    ∀ j, (u.th t).vstat.testBit j =
      ((s.th t).vstat.testBit j || (List.range 4).any (fun i => (fl i).toNat.testBit j))

/-! ### Heads and Meridian (R185 to R195) -/

/-- The word at index `i` of head `n`'s program `p` as the sequencer reads it: from the prefetch buffer where that holds the
present word and this one, none where its read failed, and otherwise from memory (R196). -/
def State.merAhead (s : State) (n p i : Nat) : Option Nat :=
  match (s.head n).preAt (s.head n).pc, (s.head n).preAt i with
  | some _, some w => w
  | _, _ => some (s.num (poolBase + (p + 4 * i)) 4)

/-- Head `n` runs its Meridian program `p`, all of it in open banks, with a group open; its next word is `w`, of type code
`ty`, and fewer than 255 words have run in the group. -/
structure MerRuns (s : State) (n ty w p : Nat) : Prop where
  free  : s.held = false
  sure  : (s.head n).u06 = false
  scans : s.scanning n = true
  open_ : s.merState n = 1
  prog  : (s.head n).prog = some p
  pc    : (s.head n).pc ≤ 4095
  few   : (s.head n).words + 1 < 256
  reads : PoolOpen s (s.engine 9 true) false p 16384
  word  : s.merAhead n p (s.head n).pc = some w
  code  : w % 16 = ty

/-- The outcome is a next state in which head `n`'s sequencer has gone on to word `pc` and stands in STATE `st`; memory
and every register but those of `ks` are as in `s`. -/
def MerGoes (o : Result) (s : State) (n pc st : Nat) (ks : List Nat) (f : State → Prop) : Prop :=
  ∃ u, o = .next u ∧ (u.head n).pc = pc ∧ u.merState n = st ∧ u.fld (F.HEAD_MER_STATUS_PC n) = pc % 4096 ∧ u.mem = s.mem ∧
    u.threads = s.threads ∧ (∀ k, k ≠ R.HEAD_MER_STATUS n → k ∉ ks → u.reg k = s.reg k) ∧ f u

/-! ### Squall (R228 to R235) -/

/-- The source value of pixel (`i`, `j`) of a command: a G1 bit, or the pixel's bytes. FILL has none. -/
def State.sqlSource (s : State) (c : SqlCmd) (i j : Nat) : Nat :=
  if c.op = 2 then 0
  else if c.sf = 4 then bits (s.num (c.src i j) 1) (7 - (c.sx + i) % 8) 1
  else s.num (c.src i j) (sqlBytes c.sf)

/-- The bytes of a source pixel. -/
def SqlCmd.srcBytes (c : SqlCmd) : Nat := if c.sf = 4 then 1 else sqlBytes c.sf

/-- It is the turn of ring `n`, whose list `l` runs; its next command is `c`, a good one that stays in its regions. -/
structure SqlDue (s : State) (n : Nat) (l : SqlList) (c : SqlCmd) : Prop where
  free  : s.held = false
  turn  : s.sqlTurn = some n
  list  : s.sqlList n = some l
  reads : ∃ o, l.addr + 64 * l.next = poolBase + o ∧ PoolOpen s (s.ringReq (.sql n)) false o 64
  cmd   : sqlCmd (s.bytes (l.addr + 64 * l.next) 64) = c
  good  : c.bad = false

/-- Every pixel of the rectangle of `c` lies in open pool banks; no two destination pixels share a byte, and no source pixel
shares one with another pixel's destination; no slot or list of the ring lies there. -/
structure SqlClear (s : State) (n : Nat) (c : SqlCmd) : Prop where
  inside : c.crosses = false
  clean  : (s.ringSt (.sql n)).tainted = []
  dst    : ∀ i < c.w, ∀ j < c.h, ∃ o, c.dst i j = poolBase + o ∧
    PoolOpen s (s.ringReq (.sql n)) true o (sqlBytes c.df) ∧ PoolOpen s (s.ringReq (.sql n)) false o (sqlBytes c.df)
  src    : c.op ≠ 2 → ∀ i < c.w, ∀ j < c.h, ∃ o, c.src i j = poolBase + o ∧
    PoolOpen s (s.ringReq (.sql n)) false o c.srcBytes
  still  : ∀ e ∈ (s.ringSt (.sql n)).watch, ∀ i < c.w, ∀ j < c.h, meets (c.dst i j) (sqlBytes c.df) e.2.1 e.2.2 = false
  apart  : ∀ i < c.w, ∀ j < c.h, ∀ k < c.w, ∀ m < c.h, (i, j) ≠ (k, m) →
    (c.dst i j + sqlBytes c.df ≤ c.dst k m ∨ c.dst k m + sqlBytes c.df ≤ c.dst i j) ∧
    (c.op ≠ 2 → c.src i j + c.srcBytes ≤ c.dst k m ∨ c.dst k m + sqlBytes c.df ≤ c.src i j)

/-- The outcome is a next state in which the command is done: every destination pixel holds its value by R233 to R235, every
other byte of memory and every register but SQL_STATUS is as in `s`, and the list has gone on, ended with status 0 after its
last command. -/
def Draws (o : Result) (s : State) (n : Nat) (l : SqlList) (c : SqlCmd) : Prop :=
  ∃ u, o = .next u ∧
    (∀ i < c.w, ∀ j < c.h, u.num (c.dst i j) (sqlBytes c.df) =
      c.pixel (s.sqlSource c i j) (if c.readsDst then s.num (c.dst i j) (sqlBytes c.df) else 0) % 2 ^ (8 * sqlBytes c.df)) ∧
    (∀ a, (∀ i < c.w, ∀ j < c.h, ¬ (c.dst i j ≤ a ∧ a < c.dst i j + sqlBytes c.df)) → u.byte a = s.byte a) ∧
    u.sqlList n = some { l with next := l.next + 1, code := if l.next + 1 = l.count then some 0 else none } ∧
    u.threads = s.threads ∧ ∀ k, k ≠ R.SQL_STATUS → u.reg k = s.reg k

/-! ### Gust (R308 to R313) -/

/-- Engine `e` takes a step now, neither stalled nor in a delay, with no RESTART waiting and its window inside the pins; PC
advances past a completed instruction and `w` is the word there. -/
structure GstIssues (s : State) (e w : Nat) : Prop where
  free   : s.held = false
  calm   : s.calm
  runs   : s.gstRuns e = true
  due    : (s.eng e).next ≤ s.now
  plain  : s.flag (F.GST_ENG_CTRL_RESTART e) = false ∧ s.flag (F.GST_ENG_CTRL_DIV_RESTART e) = false
  fresh  : (s.eng e).word = none ∧ (s.eng e).delay = 0 ∧ ((s.eng e).done = false → (s.eng e).taken = none)
  inside : s.gstBeyond e = false
  word   : (s.gstAdvance e).gstWord e = w

/-- What the side-drive of `w` writes to position `p` of OUT_VAL (R313). -/
def State.sideAt (s : State) (e w p : Nat) : Option Bool :=
  let m := bits w 19 4
  let entry := bits (s.reg (R.GST_ENG_SIDE e (m / 4))) (8 * (m % 4)) 8
  let i := p - s.fld (F.GST_ENG_CFG_SIDE_POS e)
  if s.fld (F.GST_ENG_CFG_SIDE_POS e) ≤ p ∧ i < 4 ∧ bit entry (4 + i) = true then some (bit entry i) else none

/-- `u` is `s` after engine `e` has issued `w`, which leaves it at `x` and completed when `done` (R309): OUT_VAL holds
`val` under the side-drive and OUT_EN holds `en`; STATUS is `st` with the new STATE; the step's edge and the words it pushed
are noted (R329); beside them only the registers of `ks`, the channels and the events under way may have changed. -/
def GstDid (s u : State) (e w : Nat) (x : GstEng) (done : Bool) (taken : Option Nat) (val en : Nat → Bool) (st : Nat)
    (ks : List Nat) : Prop :=
  let y := s.eng e
  u = { s with regs := u.regs, gst := u.gst, brz := u.brz, fired := u.fired } ∧
  u.eng e = { x with k := (y.k + 1) % 256, next := y.next + s.gstInterval e y.k, word := if done then none else some w,
                     done := done, taken := taken, delay := if done then bits w 23 5 else 0, stepAt := some s.now,
                     put := x.rxf.length - y.rxf.length } ∧
  (∀ j, j ≠ e → u.eng j = s.eng j) ∧
  (∀ p < 32, bit (u.reg (R.GST_ENG_OUTV e)) p = (s.sideAt e w p).getD (val p)) ∧
  (∀ p < 32, bit (u.reg (R.GST_ENG_OUTE e)) p = en p) ∧
  u.reg (R.GST_ENG_STATUS e) = putBits st 20 3 (if done = false then 2 else if bits w 23 5 = 0 then 1 else 3) ∧
  ∀ k, k ≠ R.GST_ENG_OUTV e → k ≠ R.GST_ENG_OUTE e → k ≠ R.GST_ENG_STATUS e → k ∉ ks → u.reg k = (s.gstAdvance e).reg k

/-! ### Gale (R411) -/

/-- The outcome is a next state in which key action `a` of channel `c` waits for its frame, before the events that arrived
in the present AUD cycle; nothing else but the answer has changed. -/
def Keyed (out : Result) (s : State) (c a : Nat) : Prop :=
  let same (e : Key) : Prop := e.act = 2 ∧ audCycle e.at_ = audCycle s.now
  ∃ l r, s.gal.keys = l ++ r ∧ (∀ e ∈ r, same e) ∧ (∀ e, l.getLast? = some e → ¬ same e) ∧
    out = .next { s with gal := { s.gal with keys := l ++ (⟨c, a, s.now⟩ :: r) }, resp := ⟨.ok, []⟩ }

/-! ### Security (R460, R307) -/

/-- A security command of operation `op` runs with its argument structure at pool offset `o`, and its work is not done
(R460). -/
structure SecRuns (s : State) (op o : Nat) : Prop where
  free : s.held = false
  cmd  : s.sec.cmd = some (op, poolBase + o)
  due  : s.sec.done = none

/-- The outcome is a next state in which the command that runs has done its work with status `k`; only what `keep` leaves
out of `s` has changed. -/
def SecDone (out : Result) (k : Nat) (keep : State → Prop) : Prop :=
  ∃ u, out = .next u ∧ u.sec.done = some k ∧ keep u

/-- The wipe has started (R307): WIPING is set and every byte of Nadir is 0. -/
def State.wiped (s : State) : Prop :=
  s.flag F.SEC_STATUS_WIPING = true ∧ ∀ a, vaultBase ≤ a → a < vaultBase + vaultSize → s.byte a = 0

/-! ### The reset state (R496) -/

/-- A register that holds its value while PORST_N is low: OTP, the tamper log (R496) and the supply bits of the pin banks,
which stand for levels outside the device. -/
def keptLow (k : Nat) : Prop :=
  blockOf k = 0x04 ∨ (R.PWR_TAMPER_LOG_CTL ≤ k ∧ k < 0x30000) ∨ (∃ j < 8, k = R.GPIO_BANK_CFG j)

/-- PORST_N is low and the device is in its reset state (R496, R498): registers at their reset values, memory of its own
0, no thread, no ring, nothing under way, every engine and every pin at reset. -/
structure State.inReset (s : State) : Prop where
  low     : s.held = true
  regs    : ∀ k, ¬ keptLow k → s.reg k = State.reset.reg k
  mem     : ∀ a, a < cxlBase → s.byte a = 0
  threads : s.threads = []
  empty   : s.rings = [] ∧ s.outst = [] ∧ s.fired = [] ∧ s.tasks = [] ∧ s.dirty = []
  engines : s.hse = {} ∧ s.lull = {} ∧ s.gst = [] ∧ s.twd = {} ∧ s.gal = {} ∧ s.sql = {} ∧ s.heads = [] ∧ s.cst = {}
  pins    : s.pins = {} ∧ s.tim = [] ∧ s.brz = []
  quiet   : s.pwr = {} ∧ s.hops = [] ∧ s.here = [] ∧ s.posted = []

end Sys2Proof.Machine
end

