-- ==== Sys2Proof/Certificates/Slice0/Obligations.lean ====
section
/-! DEFINITION. The statements for the provers. -/

open Sys2Proof Sys2Proof.Machine

/-! ### The machine -/

/-- The model's step (log entry 1): the command at the front of the queue takes effect on the machine with the rest of the
queue, and every command has a next state in every state in which no head is unpredictable (R4, U-06). On an empty queue one
GUST cycle passes: in cold reset only the time outside, else, with no register write of an engine under way, the GUST clock,
and the system time counter every fifth cycle; no memory, thread or register outside Breeze changes. -/
def Obligations.StepRunsFrontCommand : Prop :=
  (∀ (s : State) (c : Instr) (rest : List Instr), step { s with pending := c :: rest } = exec c { s with pending := rest }) ∧
  (∀ (s : State) (c : Instr), (∀ n, (s.head n).u06 = false) → ∃ t, exec c s = .next t) ∧
  (∀ s : State, s.pending = [] → s.held = true → step s = .next { s with now := s.now + 1 }) ∧
  ∀ s : State, s.pending = [] → s.held = false → s.posted = [] → ∃ u, step s = .next u ∧ u.now = s.now + 1 ∧
    u.mem = s.mem ∧ u.threads = s.threads ∧ u.pending = [] ∧
    (s.cst.skew = 0 → u.stc = if (s.now + 1) % 5 = 0 then (s.stc + 1) % 2 ^ 64 else s.stc) ∧
    ∀ k, blockOf k ≠ 0x06 → u.reg k = s.reg k

/-- What reset leaves: PORST_N low (R496), nothing waiting, memory empty and every register at the reset value of its table,
among them these; the reset state meets `State.inReset`, which `LowKeepsReset` says every step keeps. -/
def Obligations.ResetState : Prop :=
  let s := State.reset
  s.inReset ∧ s.pending = [] ∧ s.mem = [] ∧ s.canonical = true ∧
  s.reg (R.CLK_CORE 0) = 0x200020 ∧ s.reg (R.CLK_PIX 0) = 0x11558 ∧ s.reg R.PWR_TAMPER_CFG = 7 ∧ s.reg R.GAL_OWN = 0x1F ∧
  s.reg (R.HSE_SWP_CFG 0) = 0xF840 ∧ s.reg (R.TWD_CH_CFG 31) = 0xF840 ∧ s.reg (R.GAL_BQ_B0 255) = 0x40000000 ∧
  s.reg (R.GAL_BQ_CTL 0) = 1 ∧ s.reg (R.ETH_PPS_CFG 0) = 100000000 ∧ s.reg R.XSPI_CFG = 0x1E ∧ s.reg (R.BMI_CFG 1) = 0x1900 ∧
  s.reg R.DBGU_CFG = 0x36 ∧ s.reg (R.CORE_TH_CTRL 63) = 4 ∧ (∀ d < 150, s.domState d = 0) ∧ (∀ t < 64, s.thState t = 0)

/-- R496: while PORST_N is low the device stays in its reset state: whatever command arrives, short of the rise of
PORST_N, every register beside OTP, the tamper log and the supply bits keeps its reset value, and memory, threads and
engines stay at reset. -/
def Obligations.LowKeepsReset : Prop :=
  ∀ s t : State, s.inReset → (∀ p, Instr.porstRise p ∉ s.pending) → step s = .next t →
    t.inReset ∧ ∀ p, Instr.porstRise p ∉ t.pending

/-- R247: the encodings of the KNARN instructions do not overlap: no word is of two patterns, and a word of none is
illegal. -/
def Obligations.KnarnEncodingsDisjoint : Prop :=
  (∀ p ∈ kAll, ∀ p' ∈ kAll, ∀ w, p.is w = true → p'.is w = true → p = p') ∧ kAll.Nodup ∧
  ∀ w, (∀ p ∈ kAll, p.is w = false) → kIllegal w = true

/-! ### Registers and rings -/

/-- R18, R21, R531: every register write is answered, with what `State.busWrite` does at its address; a write of 1, 2, 4
or 8 bytes to a register with no behaviour of its own changes the bytes that the access covers and no others; a write to
an unassigned offset of an assigned block (XSPI) is ignored; one to an unassigned block (0x0D) gets an error response and
changes nothing. The register shown is CST_BCAST_EPOCH. -/
def Obligations.RegisterWrites : Prop :=
  ∀ (s : State) (q : Req) (bs : List Byte), s.held = false →
    (∀ o, exec (.registerWrite q o bs) s = .next ((s.busWrite q (regBase + o) bs .sender).answer s)) ∧
    (∀ j, bs.length = 1 ∨ bs.length = 2 ∨ bs.length = 4 ∨ bs.length = 8 → j % bs.length = 0 → j + bs.length ≤ 8 →
      let old := toBytes 8 (s.reg R.CST_BCAST_EPOCH)
      ∃ t, exec (.registerWrite q (R.CST_BCAST_EPOCH + j) bs) s = .next t ∧
        toBytes 8 (t.reg R.CST_BCAST_EPOCH) = old.take j ++ bs ++ old.drop (j + bs.length) ∧ t.resp = ⟨.ok, []⟩ ∧
        onlyRegs s t [R.CST_BCAST_EPOCH]) ∧
    (∀ j, j % 4 = 0 → j < 0x8000 → bs.length = 4 →
      ∃ t, exec (.registerWrite q (0x2C8000 + j) bs) s = .next t ∧ t.resp = ⟨.ok, []⟩ ∧ onlyRegs s t []) ∧
    (∀ j, j % 4 = 0 → j < 0x10000 → bs.length = 4 →
      ∃ t, exec (.registerWrite q (0xD0000 + j) bs) s = .next t ∧ t.resp = ⟨.error, []⟩ ∧ onlyRegs s t [])

/-- R28, R29, R30, R532: the 66 rings. A doorbell that keeps the ring and the new descriptors within its size sets
PROD_IDX; one that does not sets DB_ERR, fires RING_DB_ERR and leaves PROD_IDX; one of a requester that the ring does not
admit is refused, and SYS_VIOL_LAST names it unless a refusal at a higher block came in the same SYS cycle (R15). ENABLE 0
to 1 zeroes both indices; 1 to 0 requests a stop; the stop at the engine's boundary abandons held records and the job in
progress and clears BUSY and CANCEL. -/
def Obligations.Rings : Prop :=
  ∀ (s : State) (q : Req) (i : Fin 66) (v : BitVec 32),
    let r := ringAt i
    let b := blockOf r.dbKey
    let fits : Prop := (v.toNat % 65536 + 65536 - s.fld r.cons) % 65536 ≤ 2 ^ s.fld r.log2 ∧
      (v.toNat % 65536 + 65536 - s.fld r.prod) % 65536 ≤ 2 ^ s.fld r.log2
    (RingOpen s q r → fits → ∃ t, exec (.doorbellWrite q i v) s = .next t ∧ t.fld r.prod = v.toNat % 65536 ∧
      t = { s with regs := t.regs, resp := ⟨.ok, []⟩, rings := t.rings, gal := t.gal } ∧
      ∀ k, k ≠ r.dbKey → t.reg k = s.reg k) ∧
    (RingOpen s q r → ¬ fits → ∃ t, exec (.doorbellWrite q i v) s = .next t ∧ t.flag r.dbErr = true ∧
      t.fld r.prod = s.fld r.prod ∧ t.fired = s.fired ++ s.pulses Src.RING_DB_ERR ∧
      t = { s with regs := t.regs, resp := ⟨.ok, []⟩, fired := t.fired } ∧ ∀ k, k ≠ r.cfgKey → t.reg k = s.reg k) ∧
    (s.blockOn b = true → s.ringAdmits q r = false →
      (∀ n, r = .gal n → s.admits q (s.fld F.GAL_OWN_OWNER) (s.flag F.GAL_OWN_S) = true) →
      ∃ t, exec (.doorbellWrite q i v) s = .next t ∧ t.resp.status = .refused ∧
        t.fld (cnt32 R.SYS_VIOL_COUNT) = satU 32 (s.fld (cnt32 R.SYS_VIOL_COUNT) + 1) ∧
        t = { s with regs := t.regs, resp := t.resp, fired := s.fired ++ s.pulses Src.SYS_VIOLATION,
                     violAt := some (s.now / 5) } ∧
        t.reg R.SYS_VIOL_LAST = (if s.violAt = some (s.now / 5) ∧ b < bits (s.reg R.SYS_VIOL_LAST) 16 7
          then s.reg R.SYS_VIOL_LAST else 2 ^ 31 + b2n q.s * 2 ^ 30 + b * 2 ^ 16 + q.tag.toNat) ∧
        ∀ k, k ≠ R.SYS_VIOL_COUNT → k ≠ R.SYS_VIOL_LAST → t.reg k = s.reg k) ∧
    (RingOpen s q r → s.flag r.enable = false → v.toNat.testBit 0 = true → v.toNat.testBit 2 = false →
      4 ≤ bits v.toNat 4 4 → bits v.toNat 4 4 ≤ 12 →
      (∀ n, r = .wb n → bits v.toNat (F.CMP_WB_CFG_DIVIDER n).lo (F.CMP_WB_CFG_DIVIDER n).w ≠ 0) →
      ∃ t, exec (.ringEnable q i v) s = .next t ∧ t.flag r.enable = true ∧ t.fld r.log2 = bits v.toNat 4 4 ∧
        t.fld r.prod = 0 ∧ t.fld r.cons = 0 ∧ t.mem = s.mem ∧ t.threads = s.threads ∧
        ∀ k, blockOf k ≠ b → t.reg k = s.reg k) ∧
    (RingOpen s q r → s.flag r.enable = true → v.toNat.testBit 0 = false → v.toNat.testBit 2 = false →
      4 ≤ bits v.toNat 4 4 → bits v.toNat 4 4 ≤ 12 → (∀ n, r ≠ .wb n) → (∀ c, r = .twd c → s.twdHalted c = false) →
      ∃ t, exec (.ringEnable q i v) s = .next t ∧ t.flag r.enable = false ∧ (t.ringSt r).stopping = true ∧
        t.mem = s.mem ∧ t.threads = s.threads ∧ ∀ k, blockOf k ≠ b → t.reg k = s.reg k) ∧
    (s.held = false → (s.ringSt r).stopping = true → (∀ n, r ≠ .wb n) → (∀ c, r = .twd c → (s.tw c).desc = none) →
      (∀ n j, r = .hse n → s.hse.job = some j → j.ring ≠ n) →
      ∃ t, exec (.ringStop i) s = .next t ∧ t.flag r.busy = false ∧ t.flag r.cancel = false ∧ t.ringSt r = {} ∧
        t.lull.offers = s.lull.offers.filter (fun o => o.ring != some r) ∧ t.mem = s.mem ∧ t.threads = s.threads ∧
        ∀ k, k ≠ r.cfgKey → (∀ c, r = .twd c → k ≠ R.TWD_CH_STATUS c) → t.reg k = s.reg k) ∧
    (∀ n j, s.held = false → (s.ringSt r).stopping = true → r = .hse n → s.hse.job = some j → j.ring = n →
      ∃ t, exec (.ringStop i) s = .next t ∧ t.hse.job = none ∧ t.flag r.busy = false ∧ t.flag r.cancel = false ∧
        t.ringSt r = {}) ∧
    ((s.ringSt r).stopping = false → exec (.ringStop i) s = .next s)

/-! ### Knarn -/

/-- R248, R249, R251: the sums of Knarn. Each writes its sum modulo 2^64 and goes on; ADD, SUB, ADC, SBC and ADDI write C,
the carry out of bit 63, and set V on signed overflow, NEG sets V for −2^63. The saturating sums write the sum or
difference limited to the signed or the unsigned range of 64 bits and set V when it was limited. Everything else of the
machine is as the fetch left it. -/
def Obligations.KnarnSums : Prop :=
  ∀ (s s' : State) (t : Fin 64) (w : BitVec 32),
    let n := w.toNat
    let x := s'.th t
    let a := x.gpr (kA n)
    let b := x.gpr (kB n)
    let c := b2n (x.st St.C)
    let i := sext 16 (bits n 0 16)
    let sum (o : Result) (v : Nat) (carry ov : Bool) : Prop :=
      Computes o s' t (kD n) v carry (x.st St.V || ov) (x.st St.DZ)
    let limit (z : Int) : Int := max (-2 ^ 63) (min (2 ^ 63 - 1) z)
    let limits (o : Result) (v : Nat) (ov : Bool) : Prop := sum o v (x.st St.C) ov
    (Fetches s t w (kFn 0x00 0x01) s' →
      sum (exec (.add t w) s) ((a + b) % 2 ^ 64) (decide (2 ^ 64 ≤ a + b)) (overflows (s64 a + s64 b))) ∧
    (Fetches s t w (kFn 0x00 0x02) s' →
      sum (exec (.sub t w) s) ((a + 2 ^ 64 - b) % 2 ^ 64) (decide (b ≤ a)) (overflows (s64 a - s64 b))) ∧
    (Fetches s t w (kFn 0x00 0x03) s' →
      sum (exec (.adc t w) s) ((a + b + c) % 2 ^ 64) (decide (2 ^ 64 ≤ a + b + c)) (overflows (s64 a + s64 b + c))) ∧
    (Fetches s t w (kFn 0x00 0x04) s' →
      sum (exec (.sbc t w) s) ((a + 2 ^ 64 - 1 - b + c) % 2 ^ 64) (decide (b + 1 ≤ a + c))
        (overflows (s64 a - s64 b - 1 + c))) ∧
    (Fetches s t w (kFn 0x00 0x05) s' →
      sum (exec (.neg t w) s) ((2 ^ 64 - a) % 2 ^ 64) (x.st St.C) (decide (a = 2 ^ 63))) ∧
    (Fetches s t w (kOp 0x01) s' →
      sum (exec (.addi t w) s) (wrap 64 (a + i)) (decide (2 ^ 64 ≤ a + wrap 64 i)) (overflows (s64 a + i))) ∧
    (Fetches s t w (kFn 0x00 0x06) s' →
      limits (exec (.adds t w) s) (wrap 64 (limit (s64 a + s64 b))) (overflows (s64 a + s64 b))) ∧
    (Fetches s t w (kFn 0x00 0x07) s' →
      limits (exec (.subs t w) s) (wrap 64 (limit (s64 a - s64 b))) (overflows (s64 a - s64 b))) ∧
    (Fetches s t w (kFn 0x00 0x08) s' →
      limits (exec (.addus t w) s) (min (a + b) (2 ^ 64 - 1)) (decide (2 ^ 64 ≤ a + b))) ∧
    (Fetches s t w (kFn 0x00 0x09) s' → limits (exec (.subus t w) s) (a - b) (decide (a < b)))

/-- R248, R250, R251: the bitwise operations and the shifts, whose amount is never reduced. The result goes to wD, ST keeps
every bit, and everything else of the machine is as the fetch left it. -/
def Obligations.KnarnLogicAndShifts : Prop :=
  ∀ (s s' : State) (t : Fin 64) (w : BitVec 32),
    let n := w.toNat
    let x := s'.th t
    let a := x.gpr (kA n)
    let b := x.gpr (kB n)
    let i := bits n 0 16
    let gives (o : Result) (v : Nat) : Prop := Computes o s' t (kD n) v (x.st St.C) (x.st St.V) (x.st St.DZ)
    (Fetches s t w (kFn 0x00 0x0A) s' → gives (exec (.and t w) s) (a &&& b)) ∧
    (Fetches s t w (kFn 0x00 0x0B) s' → gives (exec (.or t w) s) (a ||| b)) ∧
    (Fetches s t w (kFn 0x00 0x0C) s' → gives (exec (.xor t w) s) (a ^^^ b)) ∧
    (Fetches s t w (kFn 0x00 0x0D) s' → gives (exec (.andn t w) s) (a - (a &&& b))) ∧
    (Fetches s t w (kFn 0x00 0x10) s' → gives (exec (.sll t w) s) (a * 2 ^ b % 2 ^ 64)) ∧
    (Fetches s t w (kFn 0x00 0x11) s' → gives (exec (.srl t w) s) (a / 2 ^ b)) ∧
    (Fetches s t w (kFn 0x00 0x12) s' → gives (exec (.sra t w) s) (wrap 64 (s64 a / 2 ^ b))) ∧
    (Fetches s t w (kOp 0x02) s' → gives (exec (.andi t w) s) (a &&& i)) ∧
    (Fetches s t w (kOp 0x03) s' → gives (exec (.ori t w) s) (a ||| i)) ∧
    (Fetches s t w (kOp 0x04) s' → gives (exec (.xori t w) s) (a ^^^ i)) ∧
    (Fetches s t w (kOp 0x07) s' → gives (exec (.slli t w) s) (a * 2 ^ i % 2 ^ 64)) ∧
    (Fetches s t w (kOp 0x08) s' → gives (exec (.srli t w) s) (a / 2 ^ i)) ∧
    (Fetches s t w (kOp 0x09) s' → gives (exec (.srai t w) s) (wrap 64 (s64 a / 2 ^ i)))

/-- R248, R250: products, quotients and remainders. A divisor 0 sets DZ and gives 0, all ones or A; −2^63 by −1 sets V.
With DZE set and a divisor 0, trap 0x08 is taken instead (a statement of its own). -/
def Obligations.KnarnProductsAndQuotients : Prop :=
  ∀ (s s' : State) (t : Fin 64) (w : BitVec 32),
    let n := w.toNat
    let x := s'.th t
    let a := x.gpr (kA n)
    let b := x.gpr (kB n)
    let gives (o : Result) (v : Nat) (ov zero : Bool) : Prop :=
      Computes o s' t (kD n) v (x.st St.C) (x.st St.V || ov) (x.st St.DZ || zero)
    let most := decide (a = 2 ^ 63 ∧ b = 2 ^ 64 - 1)
    (Fetches s t w (kFn 0x00 0x18) s' → gives (exec (.mul t w) s) (a * b % 2 ^ 64) false false) ∧
    (Fetches s t w (kFn 0x00 0x19) s' → gives (exec (.mulh t w) s) (wrap 64 (s64 a * s64 b / 2 ^ 64)) false false) ∧
    (Fetches s t w (kFn 0x00 0x1A) s' → gives (exec (.mulhu t w) s) (a * b / 2 ^ 64) false false) ∧
    (b ≠ 0 ∨ x.st St.DZE = false →
      (Fetches s t w (kFn 0x00 0x1C) s' →
        gives (exec (.div t w) s) (if b = 0 then 0 else wrap 64 ((s64 a).tdiv (s64 b))) most (decide (b = 0))) ∧
      (Fetches s t w (kFn 0x00 0x1D) s' →
        gives (exec (.divu t w) s) (if b = 0 then 2 ^ 64 - 1 else a / b) false (decide (b = 0))) ∧
      (Fetches s t w (kFn 0x00 0x1E) s' →
        gives (exec (.rem t w) s) (if b = 0 then a else wrap 64 ((s64 a).tmod (s64 b))) false (decide (b = 0))) ∧
      (Fetches s t w (kFn 0x00 0x1F) s' →
        gives (exec (.remu t w) s) (if b = 0 then a else a % b) false (decide (b = 0))))

/-- R248, R251: the comparisons, the forms that build a constant or an offset of sg0, the counts of bits and the extensions.
The result goes to wD, ST keeps every bit, and everything else of the machine is as the fetch left it. -/
def Obligations.KnarnComparesAndCounts : Prop :=
  ∀ (s s' : State) (t : Fin 64) (w : BitVec 32),
    let n := w.toNat
    let x := s'.th t
    let a := x.gpr (kA n)
    let b := x.gpr (kB n)
    let i := sext 16 (bits n 0 16)
    let k := kA n % 4
    let gives (o : Result) (v : Nat) : Prop := Computes o s' t (kD n) v (x.st St.C) (x.st St.V) (x.st St.DZ)
    (Fetches s t w (kFn 0x00 0x20) s' → gives (exec (.slt t w) s) (if s64 a < s64 b then 1 else 0)) ∧
    (Fetches s t w (kFn 0x00 0x21) s' → gives (exec (.sltu t w) s) (if a < b then 1 else 0)) ∧
    (Fetches s t w (kOp 0x05) s' → gives (exec (.slti t w) s) (if s64 a < i then 1 else 0)) ∧
    (Fetches s t w (kOp 0x06) s' → gives (exec (.sltiu t w) s) (if a < wrap 64 i then 1 else 0)) ∧
    (Fetches s t w (kFn 0x00 0x22) s' → gives (exec (.min t w) s) (wrap 64 (min (s64 a) (s64 b)))) ∧
    (Fetches s t w (kFn 0x00 0x23) s' → gives (exec (.max t w) s) (wrap 64 (max (s64 a) (s64 b)))) ∧
    (Fetches s t w (kFn 0x00 0x24) s' → gives (exec (.minu t w) s) (min a b)) ∧
    (Fetches s t w (kFn 0x00 0x25) s' → gives (exec (.maxu t w) s) (max a b)) ∧
    (Fetches s t w (kOpK 0x0A) s' → gives (exec (.imms t w) s) (wrap 64 (i * 2 ^ (16 * k)))) ∧
    (Fetches s t w (kOpK 0x0B) s' → ∃ v, gives (exec (.immi t w) s) v ∧ bits v (16 * k) 16 = bits n 0 16 ∧
      ∀ j < 4, j ≠ k → bits v (16 * j) 16 = bits (x.gpr (kD n)) (16 * j) 16) ∧
    (Fetches s t w (kOp 0x0C) s' → gives (exec (.addpc t w) s) (wrap 64 (x.pc.toNat + i * 4))) ∧
    (Fetches s t w (kFn 0x00 0x28) s' → gives (exec (.clz t w) s) (if a = 0 then 64 else 63 - Nat.log2 a)) ∧
    (Fetches s t w (kFn 0x00 0x29) s' → ∃ v, gives (exec (.ctz t w) s) v ∧
      (if a = 0 then v = 64 else 2 ^ v ∣ a ∧ ¬ 2 ^ (v + 1) ∣ a)) ∧
    (Fetches s t w (kFn 0x00 0x2A) s' → gives (exec (.popc t w) s) ((List.range 64).filter a.testBit).length) ∧
    (Fetches s t w (kFn 0x00 0x2B) s' →
      gives (exec (.sextb t w) s) (if a % 2 ^ 8 < 2 ^ 7 then a % 2 ^ 8 else 2 ^ 64 - 2 ^ 8 + a % 2 ^ 8)) ∧
    (Fetches s t w (kFn 0x00 0x2C) s' →
      gives (exec (.sexth t w) s) (if a % 2 ^ 16 < 2 ^ 15 then a % 2 ^ 16 else 2 ^ 64 - 2 ^ 16 + a % 2 ^ 16)) ∧
    (Fetches s t w (kFn 0x00 0x2D) s' →
      gives (exec (.sextw t w) s) (if a % 2 ^ 32 < 2 ^ 31 then a % 2 ^ 32 else 2 ^ 64 - 2 ^ 32 + a % 2 ^ 32)) ∧
    (Fetches s t w (kFn 0x00 0x2E) s' → gives (exec (.zextw t w) s) (a % 2 ^ 32))

/-- R252, R265, R267, R272, R282: the loads and stores of Knarn, of vector registers and of field registers, from and to
pool memory that is open to the thread, at the address that R243 gives. A load puts the bytes there into wD, sign-extended
or zero-extended, into four lanes or into a field register; a store puts the low bytes of wD, the four lanes or the field
register there. Every other byte, register and thread is as the address left it, and the thread goes on. -/
def Obligations.KnarnLoadsAndStores : Prop :=
  ∀ (s s' s1 : State) (t : Fin 64) (w : BitVec 32) (o : Nat),
    let n := w.toNat
    let a := poolBase + o
    let x := s'.th t
    let offset (size : Nat) : Int := s64 (wrap 64 (s64 (x.gpr (kA n)) + sext 13 (bits n 0 13) * size))
    let at_ (g : Nat) (off : Int) (size : Nat) (wr : Bool) : Prop :=
      s'.segAddr (x.seg g) off size (!wr) wr = (.ok a, s1) ∧ PoolOpen s1 (s1.kReq t) wr o size
    let loads (op size : Nat) : Prop := Fetches s t w (kOp op) s' ∧ at_ (kSgM n) (offset size) size false
    let stores (op size : Nat) : Prop := Fetches s t w (kOp op) s' ∧ at_ (kSgM n) (offset size) size true
    let via (op fn size : Nat) (wr : Bool) : Prop := Fetches s t w (kCp op fn) s' ∧ at_ (n % 8) (s64 (x.gpr (kA n))) size wr
    let takes (r : Result) (v : Nat) : Prop := Computes r s1 t (kD n) v (x.st St.C) (x.st St.V) (x.st St.DZ)
    let signed (k : Nat) : Nat := if s1.num a k < 2 ^ (8 * k - 1) then s1.num a k else 2 ^ 64 - 2 ^ (8 * k) + s1.num a k
    let puts (r : Result) (size : Nat) : Prop :=
      Stores r s1 t a (toBytes size (x.gpr (kD n))) { x with pc := x.pc + 4 }
    (loads 0x10 1 → takes (exec (.ldb t w) s) (signed 1)) ∧
    (loads 0x11 1 → takes (exec (.ldbu t w) s) (s1.num a 1)) ∧
    (loads 0x12 2 → takes (exec (.ldh t w) s) (signed 2)) ∧
    (loads 0x13 2 → takes (exec (.ldhu t w) s) (s1.num a 2)) ∧
    (loads 0x14 4 → takes (exec (.ldw t w) s) (signed 4)) ∧
    (loads 0x15 4 → takes (exec (.ldwu t w) s) (s1.num a 4)) ∧
    (loads 0x16 8 → takes (exec (.ldd t w) s) (s1.num a 8)) ∧
    (stores 0x18 1 → puts (exec (.stb t w) s) 1) ∧
    (stores 0x19 2 → puts (exec (.sth t w) s) 2) ∧
    (stores 0x1A 4 → puts (exec (.stw t w) s) 4) ∧
    (stores 0x1B 8 → puts (exec (.std t w) s) 8) ∧
    (via 0x38 0x18 32 false → Lanes (exec (.vld t w) s) s1 t (kD n) (fun i => s1.num (a + 8 * i) 8) (fun _ => {})) ∧
    (via 0x38 0x19 32 true → Stores (exec (.vst t w) s) s1 t a ((List.range 4).flatMap (fun i => toBytes 8 (x.lane (kD n) i)))
      { x with pc := x.pc + 4 }) ∧
    (via 0x3B 0x01 72 false → exec (.fld t w) s =
      .next (s1.setTh t { x.setFr (kD n % 8) (s1.num a 72 % 2 ^ 521) with pc := x.pc + 4 })) ∧
    (via 0x3B 0x02 72 true → Stores (exec (.fst t w) s) s1 t a (toBytes 72 (x.fr (kD n % 8))) { x with pc := x.pc + 4 })

/-- R253: the atomic operations, on pool memory that is open to the thread both ways. wD takes the old value, the memory
the new one, and every other byte, register and thread is unchanged. -/
def Obligations.KnarnAtomics : Prop :=
  ∀ (s s' s1 : State) (t : Fin 64) (w : BitVec 32) (o : Nat),
    let n := w.toNat
    let a := poolBase + o
    let x := s'.th t
    let old := s1.num a 8
    let b := x.gpr (kB n)
    let via (fn : Nat) : Prop := Fetches s t w (kFn8 0x1C fn) s' ∧
      s'.segAddr (x.seg (kSgA n)) (s64 (x.gpr (kA n))) 8 true true = (.ok a, s1) ∧
      PoolOpen s1 (s1.kReq t) false o 8 ∧ PoolOpen s1 (s1.kReq t) true o 8
    let makes (r : Result) (new : Nat) : Prop :=
      Stores r s1 t a (toBytes 8 new) { x.setGpr (kD n) old with pc := x.pc + 4 }
    (via 0x00 → makes (exec (.swap t w) s) b) ∧
    (via 0x01 → makes (exec (.aadd t w) s) (old + b)) ∧
    (via 0x02 → makes (exec (.aand t w) s) (old &&& b)) ∧
    (via 0x03 → makes (exec (.aor t w) s) (old ||| b)) ∧
    (via 0x04 → makes (exec (.axor t w) s) (old ^^^ b)) ∧
    (via 0x05 → makes (exec (.cas t w) s) (if old = x.gpr (kD n) then b else old))

/-- R243: the address of a data access. The permission is checked first, then the segment itself; a linear offset counts
as it is, a circular one modulo LIMIT, a bit-reversed one (of a LIMIT and a size that are powers of two) with its element
number modulo LIMIT reversed; an offset below 0 or above LIMIT − size traps, and so does an address that is not a multiple
of min(size, 8); else the address is BASE + offset. The trap's value is the offset, or the address (R259). -/
def Obligations.SegmentAddresses : Prop :=
  ∀ (s : State) (g : Seg) (off : Int) (size : Nat) (r w : Bool),
    let denied := (r && !g.r) || (w && !g.w)
    let broken := decide (g.mode = 3 ∨ 2 ^ 44 < g.b + g.limit ∨ g.limit < size)
    size ∈ [1, 2, 4, 8, 32, 72] →
    let o : Int := if g.mode = 0 then off else off % (g.limit : Int)
    (denied = true → s.segAddr g off size r w = (.error (3, wrap 64 off), s)) ∧
    (denied = false → broken = true → s.segAddr g off size r w = (.error (2, wrap 64 off), s)) ∧
    (denied = false → broken = false → g.mode ≠ 2 → (o < 0 ∨ (g.limit : Int) - size < o) →
      s.segAddr g off size r w = (.error (2, wrap 64 o), s)) ∧
    (denied = false → broken = false → g.mode ≠ 2 → 0 ≤ o → o ≤ (g.limit : Int) - size →
      s.segAddr g off size r w =
        (if (g.b + o.toNat) % min size 8 ≠ 0 then (.error (4, g.b + o.toNat), s) else (.ok (g.b + o.toNat), s))) ∧
    (∀ p j k, denied = false → broken = false → g.mode = 2 → g.limit = 2 ^ p → size = 2 ^ j → k < 2 ^ (p - j) →
      (∀ i < p - j, k.testBit i = ((off % (g.limit : Int)).toNat / 2 ^ j).testBit (p - j - 1 - i)) →
      s.segAddr g off size r w =
        (if (g.b + k * 2 ^ j) % min size 8 ≠ 0 then (.error (4, g.b + k * 2 ^ j), s) else (.ok (g.b + k * 2 ^ j), s)))

/-- R254: the branches and jumps. A branch whose condition fails goes on to the next instruction; a branch that is taken
and a jump go to their target, which must pass the checks of a fetch; nothing else of the machine changes. -/
def Obligations.KnarnBranches : Prop :=
  ∀ (s s' : State) (t : Fin 64) (w : BitVec 32),
    let n := w.toNat
    let x := s'.th t
    let a := x.gpr (kD n)
    let b := x.gpr (kA n)
    let goes (r : Result) (pc : Nat) : Prop := r = .next (s'.setTh t { x with pc := BitVec.ofNat 64 pc })
    let near := wrap 64 (x.pc.toNat + 4 * sext 16 (bits n 0 16))
    let far := wrap 64 (x.pc.toNat + 4 * sext 26 (bits n 0 26))
    let branch (r : Result) (taken : Prop) : Prop :=
      (taken → x.fetchOk near = true → goes r near) ∧ (¬ taken → goes r (x.pc.toNat + 4))
    (Fetches s t w (kOp 0x20) s' → branch (exec (.beq t w) s) (a = b)) ∧
    (Fetches s t w (kOp 0x21) s' → branch (exec (.bne t w) s) (a ≠ b)) ∧
    (Fetches s t w (kOp 0x22) s' → branch (exec (.blt t w) s) (s64 a < s64 b)) ∧
    (Fetches s t w (kOp 0x23) s' → branch (exec (.bge t w) s) (s64 b ≤ s64 a)) ∧
    (Fetches s t w (kOp 0x24) s' → branch (exec (.bltu t w) s) (a < b)) ∧
    (Fetches s t w (kOp 0x25) s' → branch (exec (.bgeu t w) s) (b ≤ a)) ∧
    (Fetches s t w (kOp 0x26) s' → x.fetchOk far = true → goes (exec (.j t w) s) far) ∧
    (Fetches s t w (kFn 0x28 0x00) s' → x.fetchOk (x.gpr (kA n)) = true →
      goes (exec (.jr t w) s) (x.gpr (kA n)))

/-- R255: calls, returns and the stack, with sg7 linear and the slot in pool memory that is open to the thread. A push
stores 8 bytes at w31 − 8 and takes 8 from w31, a pop reads the 8 bytes at w31 and adds 8; nothing else changes. -/
def Obligations.KnarnStack : Prop :=
  ∀ (s s' : State) (t : Fin 64) (w : BitVec 32) (o : Nat),
    let n := w.toNat
    let x := s'.th t
    let g := x.seg 7
    let sp := wrap 64 (x.gpr 31 - 8)
    let slot (p : Nat) (wr : Bool) : Prop := (if wr then g.w else g.r) = true ∧ g.b + g.limit ≤ 2 ^ 44 ∧
      0 ≤ s64 p ∧ s64 p + 8 ≤ g.limit ∧ g.b + p = poolBase + o ∧ (poolBase + o) % 8 = 0 ∧
      PoolOpen s' (s'.kReq t) wr o 8
    let top := s'.num (poolBase + o) 8
    let far := wrap 64 (x.pc.toNat + 4 * sext 26 (bits n 0 26))
    let pushes (r : Result) (v pc : Nat) : Prop :=
      Stores r s' t (poolBase + o) (toBytes 8 v) { x.setGpr 31 sp with pc := BitVec.ofNat 64 pc }
    (Fetches s t w (kFn 0x28 0x03) s' → slot sp true → pushes (exec (.push t w) s) (x.gpr (kA n)) (x.pc.toNat + 4)) ∧
    (Fetches s t w (kOp 0x27) s' → slot sp true → x.fetchOk far = true →
      pushes (exec (.call t w) s) (x.pc.toNat + 4) far) ∧
    (Fetches s t w (kFn 0x28 0x01) s' → slot sp true → x.fetchOk (x.gpr (kA n)) = true →
      pushes (exec (.callr t w) s) (x.pc.toNat + 4) (x.gpr (kA n))) ∧
    (Fetches s t w (kFn 0x28 0x04) s' → slot (x.gpr 31) false →
      exec (.pop t w) s = .next (s'.setTh t { (x.setGpr 31 (x.gpr 31 + 8)).setGpr (kD n) top with pc := x.pc + 4 })) ∧
    (Fetches s t w (kFn 0x28 0x02) s' → slot (x.gpr 31) false → x.fetchOk top = true →
      exec (.ret t w) s = .next (s'.setTh t { x.setGpr 31 (x.gpr 31 + 8) with pc := BitVec.ofNat 64 top }))

/-- R241, R256, R257: segments and system registers, where the level admits the operation and the segment is one that
SGSET and SGSUB make; NOP, IFENCE, and a FENCE that has nothing to wait for (R287). CYCLE counts the CORE cycles since the
core last woke (R241). -/
def Obligations.KnarnSystem : Prop :=
  ∀ (s s' : State) (t : Fin 64) (w : BitVec 32),
    let n := w.toNat
    let x := s'.th t
    let a := x.gpr (kA n)
    let b := x.gpr (kB n)
    let k := kB n
    let priv := x.st St.PRIV
    let goes (r : Result) (y : Thread) : Prop := r = .next (s'.setTh t { y with pc := x.pc + 4 })
    let takes (r : Result) (v : Nat) : Prop := Computes r s' t (kD n) v (x.st St.C) (x.st St.V) (x.st St.DZ)
    let legal (base l : Nat) : Prop := base < 2 ^ 44 ∧ bits l 45 3 = 0 ∧ bits l 51 1 = 0 ∧ bits l 54 10 = 0 ∧
      bits l 52 2 ≠ 3 ∧ base + bits l 0 45 ≤ 2 ^ 44
    let g := x.seg (kSgA n)
    (Fetches s t w (kFn8 0x30 0x00) s' → goes (exec (.nop t w) s) x) ∧
    (Fetches s t w (kFn8 0x30 0x01) s' → priv = true → legal a b →
      goes (exec (.sgset t w) s) (x.setSeg (kD n % 8) ⟨a, b⟩)) ∧
    (Fetches s t w (kFn8 0x30 0x02) s' → takes (exec (.sggetb t w) s) g.b) ∧
    (Fetches s t w (kFn8 0x30 0x03) s' → takes (exec (.sggetl t w) s) g.l) ∧
    (Fetches s t w (kFn8 0x30 0x04) s' → legal (g.b + a) b → a + bits b 0 45 ≤ g.limit →
      (∀ i ∈ [48, 49, 50], b.testBit i = true → g.l.testBit i = true) →
      goes (exec (.sgsub t w) s) (x.setSeg (kD n % 8) ⟨g.b + a, b⟩)) ∧
    (Fetches s t w (kFn8 0x30 0x08) s' → (1 ≤ k ∧ k ≤ 0x11 → priv = true) →
      takes (exec (.mfs t w) s) (if k = 0x18 then 64 * s'.pos + t else if k = 0x19 then s'.cycle t else x.sr k)) ∧
    (Fetches s t w (kFn8 0x30 0x09) s' → (1 ≤ k ∧ k ≤ 0x11 → priv = true) → ∃ u, exec (.mts t w) s = .next u ∧
      u = s'.setTh t { x with sys := (u.th t).sys, pc := x.pc + 4 } ∧ (∀ j, j ≠ k → (u.th t).sr j = x.sr j) ∧
      (k = Sr.ST → ∀ i, (u.th t).st i =
        if i ≤ 2 then a.testBit i
        else if priv = true ∧ (i = St.DZE ∨ i = St.IE ∨ i = St.IN_TRAP) then a.testBit i
        else if priv = true ∧ i = St.SATTR then x.st i && a.testBit i else x.st i) ∧
      (k = Sr.EPC ∨ k = Sr.TVAL ∨ (5 ≤ k ∧ k ≤ 0x11) → (u.th t).sr k = a)) ∧
    (Fetches s t w (kFn8 0x30 0x20) s' →
      s'.unperformed t ((kD n).testBit 4) ((kD n).testBit 3) ((kD n).testBit 2) = false ∨ kA n / 2 = 0 →
      goes (exec (.fence t w) s) x) ∧
    (Fetches s t w (kFn8 0x30 0x21) s' → goes (exec (.ifence t w) s) x)

/-- R259 to R261: TRAP, BRK and an illegal instruction enter the trap handler, with EPC at the next instruction for TRAP
and at the instruction itself for the others; TRET undoes an entry and clears IN_TRAP. While IN_TRAP is 1 the trap is not
taken: the thread halts with its registers unchanged, and the CORE block reports the double fault. -/
def Obligations.KnarnTraps : Prop :=
  ∀ (s s' : State) (t : Fin 64) (w : BitVec 32),
    let n := w.toNat
    let x := s'.th t
    let pc := x.pc.toNat
    let illegal := s.kReady t = true ∧ kIllegal n = true ∧ s.kFetch t = .word s' n
    let halts (r : Result) (code : Nat) : Prop := ∃ u, r = .next u ∧ u.thState t = 4 ∧
      u.fld (F.CORE_TH_CTRL_DF_CODE t) = code ∧ u.th t = { x with wait := none } ∧
      u.fired = s'.fired ++ (s'.listeners Src.CORE_DFAULT).map (fun c => (Src.CORE_DFAULT, c)) ∧
      (∀ k, k ≠ R.CORE_TH_CTRL t → u.reg k = s'.reg k) ∧ u.mem = s'.mem
    (Fetches s t w (kFn8 0x30 0x10) s' →
      (x.st St.IN_TRAP = false → Enters (exec (.trap t w) s) s' t 0x09 (bits n 11 10) ((pc + 4) % 2 ^ 64)) ∧
      (x.st St.IN_TRAP = true → halts (exec (.trap t w) s) 0x09)) ∧
    (Fetches s t w (kFn8 0x30 0x11) s' →
      (x.st St.IN_TRAP = false → Enters (exec (.brk t w) s) s' t 0x0A (bits n 11 10) pc) ∧
      (x.st St.IN_TRAP = true → halts (exec (.brk t w) s) 0x0A)) ∧
    (illegal →
      (x.st St.IN_TRAP = false → Enters (exec (.illegalInstruction t w) s) s' t 0x00 n pc) ∧
      (x.st St.IN_TRAP = true → halts (exec (.illegalInstruction t w) s) 0x00)) ∧
    (Fetches s t w (kFn8 0x30 0x12) s' → x.st St.PRIV = true → ∃ u, exec (.tret t w) s = .next u ∧
      u = s'.setTh t (u.th t) ∧ (u.th t).pc = BitVec.ofNat 64 (x.sr Sr.EPC) ∧
      (u.th t).seg 0 = ⟨x.sr 0x08, x.sr 0x09⟩ ∧ (u.th t).seg 7 = ⟨x.sr 0x0A, x.sr 0x0B⟩ ∧
      (∀ g, g ≠ 0 → g ≠ 7 → (u.th t).seg g = x.seg g) ∧
      (∀ r, (u.th t).gpr r = if r = 31 then x.sr Sr.ESP else x.gpr r) ∧
      (∀ i, (u.th t).st i = if i = St.PRIV ∨ i = St.IE then (x.sr Sr.EST).testBit i
        else if i = St.IN_TRAP then false else x.st i) ∧
      ∀ k, k ≠ Sr.ST → (u.th t).sr k = x.sr k)

/-- R250, R254, R256, R257, R259: traps that instructions take instead of their effect, while IN_TRAP is 0: a division by
zero with DZE set, a target that no fetch may use, a privileged operation at user level, a segment that SGSET refuses. -/
def Obligations.KnarnTrapsInstead : Prop :=
  ∀ (s s' : State) (t : Fin 64) (w : BitVec 32),
    let n := w.toNat
    let x := s'.th t
    let pc := x.pc.toNat
    let b := x.gpr (kB n)
    let far := wrap 64 (x.pc.toNat + 4 * sext 26 (bits n 0 26))
    x.st St.IN_TRAP = false →
    (b = 0 → x.st St.DZE = true →
      (Fetches s t w (kFn 0x00 0x1C) s' → Enters (exec (.div t w) s) s' t 0x08 0 pc true) ∧
      (Fetches s t w (kFn 0x00 0x1D) s' → Enters (exec (.divu t w) s) s' t 0x08 0 pc true) ∧
      (Fetches s t w (kFn 0x00 0x1E) s' → Enters (exec (.rem t w) s) s' t 0x08 0 pc true) ∧
      (Fetches s t w (kFn 0x00 0x1F) s' → Enters (exec (.remu t w) s) s' t 0x08 0 pc true)) ∧
    (x.fetchOk far = false →
      (Fetches s t w (kOp 0x26) s' → Enters (exec (.j t w) s) s' t 0x05 far pc) ∧
      (Fetches s t w (kOp 0x27) s' → Enters (exec (.call t w) s) s' t 0x05 far pc)) ∧
    (x.st St.PRIV = false →
      (Fetches s t w (kFn8 0x30 0x01) s' → Enters (exec (.sgset t w) s) s' t 0x01 n pc) ∧
      (Fetches s t w (kFn8 0x30 0x12) s' → Enters (exec (.tret t w) s) s' t 0x01 n pc) ∧
      (1 ≤ kB n ∧ kB n ≤ 0x11 →
        (Fetches s t w (kFn8 0x30 0x08) s' → Enters (exec (.mfs t w) s) s' t 0x01 n pc) ∧
        (Fetches s t w (kFn8 0x30 0x09) s' → Enters (exec (.mts t w) s) s' t 0x01 n pc))) ∧
    (x.st St.PRIV = true → (2 ^ 44 ≤ x.gpr (kA n) ∨ bits b 52 2 = 3) → Fetches s t w (kFn8 0x30 0x01) s' →
      Enters (exec (.sgset t w) s) s' t (kD n % 8 * 256 + 0x0B) b pc)

/-- R266, R267: vector arithmetic lane by lane, in the format that X[4] selects: the sum, difference, product, quotient and
root rounded to nearest with their flags, the sign operations, and the conversions. Where the spec leaves a flag open (a
converted value with a fraction) any flags will do. -/
def Obligations.VectorArithmetic : Prop :=
  ∀ (s s' : State) (t : Fin 64) (w : BitVec 32),
    let n := w.toNat
    let x := s'.th t
    let f := if n.testBit 4 then b32 else b64
    let a (i : Nat) := x.lane (kA n) i % 2 ^ f.width
    let b (i : Nat) := x.lane (kB n) i % 2 ^ f.width
    let gives (r : Result) (u : State) (z : Nat → Nat × FFlags) : Prop :=
      Lanes r u t (kD n) (fun i => (z i).1 % 2 ^ 64) (fun i => (z i).2)
    (Fetches s t w (kCp 0x38 0x01) s' → gives (exec (.vadd t w) s) (s'.skipFree 4) (fun i => faddFl f (a i) (b i))) ∧
    (Fetches s t w (kCp 0x38 0x02) s' → gives (exec (.vsub t w) s) (s'.skipFree 4) (fun i => fsubFl f (a i) (b i))) ∧
    (Fetches s t w (kCp 0x38 0x03) s' → gives (exec (.vmul t w) s) (s'.skipFree 4) (fun i => fmulFl f (a i) (b i))) ∧
    (Fetches s t w (kCp 0x38 0x04) s' → gives (exec (.vdiv t w) s) (s'.skipFree 4) (fun i => fdivFl f (a i) (b i))) ∧
    (Fetches s t w (kCp 0x38 0x05) s' → gives (exec (.vsqrt t w) s) s' (fun i => fsqrtFl f (a i))) ∧
    (Fetches s t w (kCp 0x38 0x08) s' → gives (exec (.vabs t w) s) s' (fun i => (a i % 2 ^ (f.width - 1), {}))) ∧
    (Fetches s t w (kCp 0x38 0x09) s' → gives (exec (.vneg t w) s) s'
      (fun i => ((a i + 2 ^ (f.width - 1)) % 2 ^ f.width, {}))) ∧
    (Fetches s t w (kCp 0x38 0x10) s' → gives (exec (.vcvtw t w) s) s'
      (fun i => fconvFl b32 b64 (x.lane (kA n) i % 2 ^ 32))) ∧
    (Fetches s t w (kCp 0x38 0x11) s' → gives (exec (.vcvtn t w) s) s' (fun i => fconvFl b64 b32 (x.lane (kA n) i))) ∧
    (Fetches s t w (kCp 0x38 0x12) s' → gives (exec (.vcvtif t w) s) s'
      (fun i => ofIntFl f (s64 (x.lane (kA n) i)) 0)) ∧
    (Fetches s t w (kCp 0x38 0x13) s' → ∃ val fl, Lanes (exec (.vcvtfi t w) s) (s'.skipFree 4) t (kD n) val fl ∧
      ∀ i < 4,
        (funpack f (a i) = .nan → val i = 0 ∧ (fl i).nv = true) ∧
        (∀ neg, funpack f (a i) = .inf neg → val i = (if neg then 2 ^ 63 else 2 ^ 63 - 1) ∧ (fl i).nv = true) ∧
        (∀ neg m e, funpack f (a i) = .fin neg m e →
          let z := (ftrunc neg m e).1
          (-2 ^ 63 ≤ z ∧ z < 2 ^ 63 → val i = wrap 64 z ∧ (fl i).nv = false) ∧
          (z < -2 ^ 63 → val i = 2 ^ 63 ∧ (fl i).nv = true) ∧
          (2 ^ 63 ≤ z → val i = 2 ^ 63 - 1 ∧ (fl i).nv = true)))

/-- R266, R267: the comparisons give a lane of all ones or zero; VMIN and VMAX the smaller or larger operand, or the other
one where one is a NaN; VSEL picks by the lane of vD; VINS, VEXT and VBCAST move words; VHSUM and VDOT sum in order into
lane 0; VSTAT reads the status and clears it when X[0] is 1. Flags that the spec leaves open are not constrained. -/
def Obligations.VectorSelection : Prop :=
  ∀ (s s' : State) (t : Fin 64) (w : BitVec 32),
    let n := w.toNat
    let x := s'.th t
    let f := if n.testBit 4 then b32 else b64
    let a (i : Nat) := x.lane (kA n) i % 2 ^ f.width
    let b (i : Nat) := x.lane (kB n) i % 2 ^ f.width
    let compares (r : Result) (holds : Int → Prop) : Prop := ∃ val fl, Lanes r (s'.skipFree 4) t (kD n) val fl ∧
      ∀ i < 4, ((∃ k, fcompare f (a i) (b i) = some k ∧ holds k) → val i = 2 ^ f.width - 1) ∧
        ((∀ k, fcompare f (a i) (b i) = some k → ¬ holds k) → val i = 0)
    let picks (r : Result) (first : Int → Prop) : Prop := ∃ val fl, Lanes r (s'.skipFree 4) t (kD n) val fl ∧
      ∀ i < 4, (fisNan f (a i) = true → fisNan f (b i) = true → val i = f.nan) ∧
        (fisNan f (a i) = true → fisNan f (b i) = false → val i = b i) ∧
        (fisNan f (a i) = false → fisNan f (b i) = true → val i = a i) ∧
        (fisNan f (a i) = false → fisNan f (b i) = false → val i = a i ∨ val i = b i) ∧
        (∀ k, fcompare f (a i) (b i) = some k → k ≠ 0 → (first k → val i = a i) ∧ (¬ first k → val i = b i))
    let moves (r : Result) (val : Nat → Nat) : Prop := Lanes r s' t (kD n) val (fun _ => {})
    let j := n % 4
    (Fetches s t w (kCp 0x38 0x0A) s' → compares (exec (.vcmpeq t w) s) (fun k => k = 0)) ∧
    (Fetches s t w (kCp 0x38 0x0B) s' → compares (exec (.vcmplt t w) s) (fun k => k < 0)) ∧
    (Fetches s t w (kCp 0x38 0x0C) s' → compares (exec (.vcmple t w) s) (fun k => k ≤ 0)) ∧
    (Fetches s t w (kCp 0x38 0x06) s' → picks (exec (.vmin t w) s) (fun k => k < 0)) ∧
    (Fetches s t w (kCp 0x38 0x07) s' → picks (exec (.vmax t w) s) (fun k => 0 < k)) ∧
    (Fetches s t w (kCp 0x38 0x0D) s' → moves (exec (.vsel t w) s)
      (fun i => if x.lane (kD n) i % 2 ^ f.width = 0 then b i else a i)) ∧
    (Fetches s t w (kCp 0x38 0x1C) s' → moves (exec (.vins t w) s)
      (fun i => if i = j then x.gpr (kA n) else x.lane (kD n) i)) ∧
    (Fetches s t w (kCp 0x38 0x1D) s' →
      Computes (exec (.vext t w) s) s' t (kD n) (x.lane (kA n) j) (x.st St.C) (x.st St.V) (x.st St.DZ)) ∧
    (Fetches s t w (kCp 0x38 0x1E) s' → moves (exec (.vbcast t w) s) (fun _ => x.gpr (kA n))) ∧
    (Fetches s t w (kCp 0x38 0x20) s' → ∃ fl, Lanes (exec (.vhsum t w) s) s' t (kD n)
      (fun i => if i = 0 then (faddFl f (faddFl f (faddFl f (a 0) (a 1)).1 (a 2)).1 (a 3)).1 % 2 ^ 64 else 0) fl) ∧
    (Fetches s t w (kCp 0x38 0x21) s' → let p (i : Nat) := (fmulFl f (a i) (b i)).1
      ∃ fl, Lanes (exec (.vdot t w) s) s' t (kD n)
        (fun i => if i = 0 then (faddFl f (faddFl f (faddFl f (p 0) (p 1)).1 (p 2)).1 (p 3)).1 % 2 ^ 64 else 0) fl) ∧
    (Fetches s t w (kCp 0x38 0x30) s' → exec (.vstat t w) s =
      .next (s'.setTh t { x.setGpr (kD n) x.vstat with vstat := if n % 2 = 1 then 0 else x.vstat, pc := x.pc + 4 }))

/-- R272: the field operations modulo 2^521 − 1 and the SHA-512 functions of FIPS 180-4; nothing else of the machine
changes. -/
def Obligations.CryptoAssist : Prop :=
  ∀ (s s' : State) (t : Fin 64) (w : BitVec 32),
    let n := w.toNat
    let x := s'.th t
    let p : Nat := 2 ^ 521 - 1
    let fa := x.fr (kA n % 8)
    let fb := x.fr (kB n % 8)
    let A := BitVec.ofNat 64 (x.gpr (kA n))
    let B := BitVec.ofNat 64 (x.gpr (kB n))
    let D := BitVec.ofNat 64 (x.gpr (kD n))
    let field (r : Result) (v : Nat) : Prop :=
      r = .next (s'.setTh t { x.setFr (kD n % 8) v with pc := x.pc + 4 })
    let takes (r : Result) (v : Nat) : Prop := Computes r s' t (kD n) v (x.st St.C) (x.st St.V) (x.st St.DZ)
    (Fetches s t w (kCp 0x3B 0x03) s' → field (exec (.fadd t w) s) ((fa + fb) % p)) ∧
    (Fetches s t w (kCp 0x3B 0x04) s' → field (exec (.fsub t w) s) (((fa : Int) - fb) % p).toNat) ∧
    (Fetches s t w (kCp 0x3B 0x05) s' → field (exec (.fmul t w) s) (fa * fb % p)) ∧
    (Fetches s t w (kCp 0x3B 0x06) s' → field (exec (.fsqr t w) s) (fa * fa % p)) ∧
    (Fetches s t w (kCp 0x3B 0x07) s' → exec (.fsel t w) s = .next (s'.setTh t
      { (if x.gpr (kB n) = 0 then x else x.setFr (kD n % 8) fa) with pc := x.pc + 4 })) ∧
    (Fetches s t w (kCp 0x3B 0x08) s' → takes (exec (.fzero t w) s) (if fa % p = 0 then 1 else 0)) ∧
    (Fetches s t w (kCp 0x3B 0x09) s' → field (exec (.fmovw t w) s) (x.gpr (kA n))) ∧
    (Fetches s t w (kCp 0x3B 0x10) s' →
      takes (exec (.sig0 t w) s) (A.rotateRight 1 ^^^ A.rotateRight 8 ^^^ (A >>> 7)).toNat) ∧
    (Fetches s t w (kCp 0x3B 0x11) s' →
      takes (exec (.sig1 t w) s) (A.rotateRight 19 ^^^ A.rotateRight 61 ^^^ (A >>> 6)).toNat) ∧
    (Fetches s t w (kCp 0x3B 0x12) s' →
      takes (exec (.sum0 t w) s) (A.rotateRight 28 ^^^ A.rotateRight 34 ^^^ A.rotateRight 39).toNat) ∧
    (Fetches s t w (kCp 0x3B 0x13) s' →
      takes (exec (.sum1 t w) s) (A.rotateRight 14 ^^^ A.rotateRight 18 ^^^ A.rotateRight 41).toNat) ∧
    (Fetches s t w (kCp 0x3B 0x14) s' → takes (exec (.ch t w) s) ((A &&& B) ^^^ (~~~A &&& D)).toNat) ∧
    (Fetches s t w (kCp 0x3B 0x15) s' → takes (exec (.maj t w) s) ((A &&& B) ^^^ (A &&& D) ^^^ (B &&& D)).toNat)

/-- R139, R268, R271: the query port of cp1, EPOCH and SNAPSHOT. HQLATCH latches the epoch of the published record, all
ones when there is none; HQREAD gives a word of the latched half while that half still holds the latched epoch, else 0 with
STALE, and 0 with RANGE above word 2,559; HQSTAT reads both bits and clears them; SNAPSHOT adds regions to those armed. -/
def Obligations.QueryPort : Prop :=
  ∀ (s s' : State) (t : Fin 64) (w : BitVec 32) (o o' : Nat),
    let n := w.toNat
    let x := s'.th t
    let i := x.gpr (kA n)
    let l := x.hqL.toNat
    let epoch := if s'.flag F.HSE_STATUS_PUBLISHED then s'.reg R.HSE_EPOCH_HI * 2 ^ 32 + s'.reg R.HSE_EPOCH_LO
      else 2 ^ 64 - 1
    let goes (r : Result) (y : Thread) : Prop := r = .next (s'.setTh t { y with pc := x.pc + 4 })
    (Fetches s t w (kCp 0x39 0x01) s' →
      goes (exec (.hqlatch t w) s) ({ x with hqL := BitVec.ofNat 64 epoch }.setGpr (kD n) epoch)) ∧
    (Fetches s t w (kCp 0x39 0x02) s' → 2559 < i →
      goes (exec (.hqread t w) s) ({ x with range := true }.setGpr (kD n) 0)) ∧
    (Fetches s t w (kCp 0x39 0x02) s' → i ≤ 2559 → s'.hseOn = true →
      poolBase + o = s'.hse.result + l % 2 * 0x5000 + 8 * i → poolBase + o' = s'.hse.result + l % 2 * 0x5000 + 8 →
      PoolOpen s' s'.hseReq false o 8 → PoolOpen s' s'.hseReq false o' 8 →
      goes (exec (.hqread t w) s)
        (if s'.num (poolBase + o') 8 = l ∧ l ≠ 2 ^ 64 - 1 then x.setGpr (kD n) (s'.num (poolBase + o) 8)
         else { x with stale := true }.setGpr (kD n) 0)) ∧
    (Fetches s t w (kCp 0x39 0x03) s' → goes (exec (.hqstat t w) s)
      ({ x with stale := false, range := false }.setGpr (kD n) (b2n x.stale + 2 * b2n x.range))) ∧
    (Fetches s t w (kCp 0x3A 0x04) s' → goes (exec (.epoch t w) s) (x.setGpr (kD n) (s'.reg R.CST_EPOCH))) ∧
    (Fetches s t w (kCp 0x3A 0x03) s' → s'.held = false → ∃ u, exec (.snapshot t w) s = .next u ∧
      u = { s' with regs := u.regs, threads := (s'.setTh t { x with pc := x.pc + 4 }).threads } ∧
      (∀ k, k ≠ R.CST_SNAP_ARM → u.reg k = s'.reg k) ∧
      ∀ j < 8, (u.fld F.CST_SNAP_ARM_ARM).testBit j =
        ((s'.fld F.CST_SNAP_ARM_ARM).testBit j || (x.gpr (kA n)).testBit j))

/-- R256, R262, R263, R269, R270, R290: the instructions and events that make a thread wait or end its wait. WFI waits
unless an interrupt or a wake request stands; WAITBEAM gives 3, 1, 0 or 2 at once, or waits; BARRIER gives 3 where the
barrier expects nobody, else the thread, its own accesses done (R289), arrives and waits; the waits end with the results
that the spec names, unless the bus error of an earlier store comes first. -/
def Obligations.KnarnWaits : Prop :=
  ∀ (s s' : State) (t : Fin 64) (w : BitVec 32),
    let n := w.toNat
    let x := s'.th t
    let a := x.gpr (kA n)
    let h := bits a 32 3
    let target := (bits a 16 16, bits a 0 16)
    let scan := n.testBit 1
    let gives (r : Result) (v : Nat) : Prop := r = .next (s'.setTh t { x.setGpr (kD n) v with pc := x.pc + 4 })
    let waits (r : Result) (v : Wait) : Prop := ∃ u, r = .next u ∧ u.thState t = 2 ∧ (u.th t).wait = some v ∧
      (u.th t).pc = x.pc ∧ ∀ q, (u.th t).gpr q = x.gpr q
    let y := s.th t
    let ends (r : Result) (z : Thread) : Prop := ∃ u, r = .next u ∧ u.thState t = 1 ∧ u.th t = { z with wait := none, pc := y.pc + 4 } ∧
      ∀ k, k ≠ R.CORE_TH_CTRL t → u.reg k = s.reg k
    (Fetches s t w (kFn8 0x30 0x22) s' → s'.wfiDone t = true →
      exec (.wfi t w) s = .next (s'.setTh t { x with pc := x.pc + 4 })) ∧
    (Fetches s t w (kFn8 0x30 0x22) s' → s'.wfiDone t = false → waits (exec (.wfi t w) s) .wfi) ∧
    (s.held = false → y.badSt = [] → y.wait = some .wfi → s.wfiDone t = true → ends (exec (.wfiWake t) s) y) ∧
    (Fetches s t w (kCp 0x3A 0x01) s' → 5 < h → gives (exec (.waitbeam t w) s) 3) ∧
    (Fetches s t w (kCp 0x3A 0x01) s' → h ≤ 5 → s'.scanning h = false → gives (exec (.waitbeam t w) s) 1) ∧
    (Fetches s t w (kCp 0x3A 0x01) s' → h ≤ 5 → s'.scanning h = true →
      (s'.badTarget h target.1 target.2 scan = true → gives (exec (.waitbeam t w) s) 3) ∧
      (s'.badTarget h target.1 target.2 scan = false → n.testBit 0 = false →
        (s'.beamOf h scan = target → gives (exec (.waitbeam t w) s) 0) ∧
        (before target (s'.beamOf h scan) = true → gives (exec (.waitbeam t w) s) 2) ∧
        (before (s'.beamOf h scan) target = true →
          waits (exec (.waitbeam t w) s) (.beam h target.1 target.2 scan false true (s'.frameOf h scan) (kD n))))) ∧
    (∀ g line pixel sc nx was frame rd, s.held = false → y.badSt = [] → y.wait = some (.beam g line pixel sc nx was frame rd) →
      (s.scanning g = false → ends (exec (.waitbeamEnd t) s) (y.setGpr rd 1)) ∧
      (s.scanning g = true → was = true → before (s.beamOf g sc) (line, pixel) = false →
        ends (exec (.waitbeamEnd t) s) (y.setGpr rd 0))) ∧
    (Fetches s t w (kCp 0x3A 0x02) s' → x.arrived = none → s'.fld (F.CST_BAR_CFG_EXPECT (kX n)) = 0 →
      gives (exec (.barrier t w) s) 3) ∧
    (Fetches s t w (kCp 0x3A 0x02) s' → x.arrived = none → s'.fld (F.CST_BAR_CFG_EXPECT (kX n)) ≠ 0 →
      s'.fld (F.CST_BAR_CFG_SCOPE (kX n)) ≠ 0 ∨ t.val / 8 = s'.fld (F.CST_BAR_CFG_CLUSTER (kX n)) →
      s'.accessOver t = false →
      waits (exec (.barrier t w) s) (.barrier (kD n)) ∧
      ∃ u r, exec (.barrier t w) s = .next u ∧ (u.th t).arrived = some ⟨kX n, s'.barGen (kX n), r⟩) ∧
    (∀ (b : Fin 32) rd g r, s.held = false → y.badSt = [] → s.accessOver t = false → y.wait = some (.barrier rd) →
      y.arrived = some ⟨b, g, some r⟩ →
      ∃ u, exec (.barrierRelease b) s = .next u ∧ u.thState t = 1 ∧
        u.th t = { y.setGpr rd r with wait := none, arrived := none, pc := y.pc + 4 })

/-- R260, R262, R263: an interrupt of Lull is taken between two instructions while IE is 1 and IN_TRAP is 0, after a WFI
has completed; the bus error of a store is taken before it when its response has returned, in a wait too, with EPC at the
next instruction and IMPRECISE set. R284, R291: START gives a thread that is off, halted or in double fault its registers
from the CORE block and lets it run, when its core, its cluster's L2 and its clock are on and its segments pass; STOP
halts a thread at its instruction boundary; FLUSH leaves the cluster no dirty line. -/
def Obligations.InterruptsAndThreadControl : Prop :=
  (∀ (s : State) (t : Fin 64) (q : Nat),
    let x := s.th t
    s.held = false → x.load = none → x.st St.IN_TRAP = false →
    (x.badSt = [] → s.irqAt t = some q → x.st St.IE = true → s.thState t = 1 → x.wait = none →
      Enters (exec (.interruptTaken t) s) s t 0x10 q x.pc.toNat) ∧
    (x.badSt = [] → s.irqAt t = some q → x.st St.IE = true → s.thState t = 2 → x.wait = some .wfi →
      ∃ u, exec (.interruptTaken t) s = .next u ∧ u.thState t = 1 ∧ (u.th t).wait = none ∧
        (u.th t).sr Sr.EPC = (x.pc.toNat + 4) % 2 ^ 64 ∧ (u.th t).sr Sr.CAUSE = 0x10) ∧
    (∀ a r, x.badSt = a :: r → s.thState t = 1 ∨ s.thState t = 2 →
      let z := if s.thState t = 2 then s.setFld (F.CORE_TH_CTRL_STATE t) 1 else s
      Enters (exec (.storeBusError t) s) (z.setTh t { x with badSt := r, wait := none }) t (2 ^ 63 + 7) (a % 2 ^ 64)
        x.pc.toNat)) ∧
  ∀ (s : State) (q : Req) (t : Fin 64) (c : Fin 8) (v : BitVec 32),
    s.held = false → q.s = true →
    (s.startOk t = true → v.toNat.testBit 1 = false → ∃ u, exec (.threadStart q t v) s = .next u ∧ u.thState t = 1 ∧
      (u.th t).pc = BitVec.ofNat 64 (s.reg (R.CORE_TH_PC t)) ∧
      (∀ r, (u.th t).gpr r = if r = 31 then s.reg (R.CORE_TH_SP t) else 0) ∧
      (u.th t).seg 0 = ⟨s.reg (R.CORE_TH_SG0_B t), s.reg (R.CORE_TH_SG0_L t)⟩ ∧
      (u.th t).seg 7 = ⟨s.reg (R.CORE_TH_SG7_B t), s.reg (R.CORE_TH_SG7_L t)⟩ ∧
      (∀ i, (u.th t).st i = if i = St.PRIV then true else if i = St.SATTR then v.toNat.testBit 2 else false) ∧
      (∀ g, g ≠ t.val → u.th g = s.th g) ∧ ∀ k, k ≠ R.CORE_TH_CTRL t → u.reg k = s.reg k) ∧
    (s.thState t = 1 ∨ s.thState t = 2 → (s.th t).load = none → s.storesOut t = false → v.toNat.testBit 0 = false →
      ∃ u, exec (.threadStop q t v) s = .next u ∧ u.thState t = 3 ∧ u.flag (F.CORE_TH_CTRL_STOP t) = false ∧
        u.th t = { s.th t with wait := none } ∧ (∀ g, g ≠ t.val → u.th g = s.th g) ∧
        ∀ k, k ≠ R.CORE_TH_CTRL t → u.reg k = s.reg k) ∧
    ((∀ d ∈ s.dirty, d.cluster = c → s.backed d = true) → ∃ u, exec (.flush q c v) s = .next u ∧
      u = { s with dirty := s.dirty.filter (fun d => d.cluster != c.val), regs := u.regs, resp := ⟨.ok, []⟩ } ∧
      ∀ k, u.reg k = s.reg k)

/-! ### Memories -/

/-- R293, R297 to R300: an access at a bank port. Every one is answered. Where the banks are open it is performed, and
through the rotated window on the bytes of one word; a requester that the bank does not admit reads zeros or has no
effect, and is counted; one wrong bit is corrected and counted, two give an error response. Of two ports that meet on a
word the later is marked BUSY, and a read's data is then undefined (U-01, a free value); of two writes the bytes of port B
remain. -/
def Obligations.PoolAccesses : Prop :=
  ∀ (s : State) (q : Req) (o : BitVec 28) (n : Nat) (bs : List Byte) (m : Meeting), s.held = false →
    let a := poolBase + o.toNat
    let b := o.toNat / bankSize
    let marked (u : State) : Prop :=
      (u.reg R.POOL_BUSY).testBit (if m.later then ownerOf q else m.other.val) = true ∧
      u.reg R.POOL_BUSY_LAST = b * 2 ^ 16 + o.toNat % bankSize / 8 ∧ u.busy = m.later
    (∀ rot write k meet, exec (.poolAccess q o rot write n bs k meet) s =
      .next (s.poolAccess q o.toNat rot write n bs k meet)) ∧
    (PoolOpen s q false o.toNat n →
      exec (.poolAccess q o false false n bs 0 none) s = .next { s.answer .ok (s.bytes a n) with busy := false }) ∧
    (PoolOpen s q true o.toNat bs.length →
      ∃ u, exec (.poolAccess q o false true n bs 0 none) s = .next u ∧ u.resp = ⟨.ok, []⟩ ∧ u.bytes a bs.length = bs ∧
        (∀ j, ¬ (a ≤ j ∧ j < a + bs.length) → u.byte j = s.byte j) ∧
        u = { s with mem := u.mem, rings := u.rings, heads := u.heads, dirty := u.dirty, resp := u.resp, busy := false }) ∧
    (PoolOpen s q false (o.toNat / 8 * 8) 8 → o.toNat < poolSize →
      exec (.poolAccess q o true false n bs 0 none) s = .next { s.answer .ok ((List.range n).map (fun i =>
        s.byte (poolBase + o.toNat / 8 * 8 + (o.toNat % 8 + i) % 8))) with busy := false }) ∧
    (n ≠ 0 → o.toNat % 8 + n ≤ 8 → o.toNat + n ≤ poolSize → s.bankAdmits q false b = false →
      ∃ u, exec (.poolAccess q o false false n bs 0 none) s = .next u ∧ u.resp = ⟨.refused, List.replicate n 0⟩ ∧
        u.reg R.POOL_VIOL_COUNT % 2 ^ 32 = min (s.reg R.POOL_VIOL_COUNT % 2 ^ 32 + 1) (2 ^ 32 - 1) ∧
        u.reg R.POOL_VIOL_LAST = (if q.s then 2 ^ 30 else 0) + b * 2 ^ 16 + q.tag.toNat ∧
        u.fired = s.fired ++ s.pulses Src.POOL_VIOLATION ∧ u.mem = s.mem) ∧
    (PoolOpen s q false o.toNat 8 → o.toNat % 8 = 0 →
      (∃ u, exec (.poolAccess q o false false 8 bs 1 none) s = .next u ∧ u.resp = ⟨.ok, s.bytes a 8⟩ ∧ u.ecc = [] ∧
        u.fld (F.POOL_BANK_STATE_CE_COUNT b) = min (s.fld (F.POOL_BANK_STATE_CE_COUNT b) + 1) (2 ^ 16 - 1) ∧ u.mem = s.mem) ∧
      (∃ u, exec (.poolAccess q o false false 8 bs 2 none) s = .next u ∧ u.resp = ⟨.error, []⟩ ∧ u.eccAt a = .double ∧
        u.reg R.POOL_UE_COUNT % 2 ^ 32 = min (s.reg R.POOL_UE_COUNT % 2 ^ 32 + 1) (2 ^ 32 - 1) ∧
        u.fired = s.fired ++ s.pulses Src.POOL_UE ∧ u.mem = s.mem) ∧
      (m.word = 0 → m.lanes.isSome = true → s.atPortB q false = true ∨ m.other.val = 8 →
        ∃ u d, exec (.poolAccess q o false false 8 bs 0 (some m)) s = .next u ∧ u.resp = ⟨.ok, d⟩ ∧ d.length = 8 ∧
          marked u ∧ u.ecc = [] ∧ u.mem = s.mem)) ∧
    (∀ l, PoolOpen s q true o.toNat 8 → o.toNat % 8 = 0 → bs.length = 8 → m.word = 0 → m.lanes = some l → m.other.val = 8 →
      s.atPortB q true = false → ∃ u, exec (.poolAccess q o false true n bs 0 (some m)) s = .next u ∧ u.resp = ⟨.ok, []⟩ ∧
        marked u ∧ ∀ i < 8, u.byte (a + i) = if l.toNat.testBit i then s.byte (a + i) else bs.getD i 0)

/-- R301 to R303: the pool's own machinery. The scrubber corrects a single error and poisons what it cannot correct, and
goes on; a remap takes the lowest free spare and the bank is COPYING, or with none left it is FAILED; the copier moves
word by word; at the end the spare has taken over. -/
def Obligations.PoolMachinery : Prop :=
  ∀ (s : State) (k : Nat) (slow : Bool), s.held = false →
    (∀ a, s.pool.scrub < 288 * 65536 → a = poolBase + 8 * s.pool.scrub → s.flag F.POOL_SCRUB_ENABLE = true →
      s.scrubbed (s.pool.scrub / 65536) = true →
      ∃ u, exec (.scrubRead 0 slow) s = .next u ∧ u.pool.scrub = (s.pool.scrub + 1) % (288 * 65536) ∧ u.mem = s.mem ∧
        (s.eccAt a = .single → u.eccAt a = .clean) ∧ (s.eccAt a = .double → u.eccAt a = .poisoned) ∧
        (s.eccAt a = .clean → u.ecc = s.ecc) ∧
        (slow = true → u.flag F.POOL_SCRUB_SCRUB_SLOW = true)) ∧
    (∀ b r, s.pool.copy = none → s.pool.queue = b :: r → b < 288 →
      (s.freeSpare b = some k → ∃ u, exec .remapStart s = .next u ∧ u.pool.queue = r ∧
        u.pool.copy = some { bank := b, spare := k, next := 0 } ∧ u.fld (F.POOL_BANK_STATE_STATE b) = 1 ∧
        u.fld (F.POOL_BANK_STATE_SPARE b) = k ∧ (u.fld F.POOL_SPARE_USED).testBit k = true ∧ u.mem = s.mem) ∧
      (s.freeSpare b = none → ∃ u, exec .remapStart s = .next u ∧ u.pool.queue = r ∧ u.pool.copy = none ∧
        u.fld (F.POOL_BANK_STATE_STATE b) = 3 ∧
        u.reg R.POOL_FAIL_LAST = 2 ^ 31 + b * 2 ^ 16 + bits (s.ownInForce b) 0 5 ∧
        u.fired = s.fired ++ (s.listeners Src.POOL_FAILED).map (fun c => (Src.POOL_FAILED, c)) ∧ u.mem = s.mem)) ∧
    (∀ c, s.pool.copy = some c → c.next < 65536 → s.bankOn c.bank = true → ∃ u d, exec .spareCopy s = .next u ∧
      u.pool.copy = some d ∧ d.bank = c.bank ∧ d.spare = c.spare ∧ d.next = c.next + 1 ∧ u.mem = s.mem ∧
      (s.eccAt (poolBase + c.bank * bankSize + 8 * c.next) = .double ∨
        s.eccAt (poolBase + c.bank * bankSize + 8 * c.next) = .poisoned → d.poisoned = c.poisoned ++ [c.next])) ∧
    (∀ c, s.pool.copy = some c → c.next = 65536 → c.bank < 288 → ∃ u, exec .spareTakeover s = .next u ∧ u.pool.copy = none ∧
      u.fld (F.POOL_BANK_STATE_STATE c.bank) = 2 ∧ u.fld (F.POOL_BANK_STATE_CE_COUNT c.bank) = 0 ∧
      (∀ i, i < 65536 → u.eccAt (poolBase + c.bank * bankSize + 8 * i) =
        if c.poisoned.contains i then .poisoned else .clean) ∧
      u.fired = s.fired ++ (s.listeners Src.POOL_REMAP).map (fun c => (Src.POOL_REMAP, c)) ∧ u.mem = s.mem)

/-- R294, R295: an owner's write of OWN gives the bank to an engine or a core owner and starts a handover, until which the
bank checks against the old words; a requester that may not write is refused and changes no owner; at the handover the new
words count, and no cache holds a line of the bank. R39, R306, R307, R531: the vault is open to S requesters only and
reads zero while it is wiped, whose end clears WIPING; the constants table store is read by everybody and written by the
owner that HSE_CTS_ACCESS names. A wrong bit of a vault word is corrected, and two wrong bits give an error response
(R299, R300). -/
def Obligations.BankOwnershipAndVault : Prop :=
  (∀ (s : State) (q : Req) (b : Fin 288) (v : BitVec 32), s.held = false →
    (ownerOf q = bits (s.reg (R.POOL_BANK_OWN b)) 0 4 → q.s = true → s.secure q = false →
      bit (s.reg (R.POOL_BANK_OWN b)) 31 = false →
      (∃ u, exec (.bankOwnershipWrite q b false v) s = .next u ∧
        (bits v.toNat 0 4 ≠ 14 → u.fld (F.POOL_BANK_OWN_OWNER b) = bits v.toNat 0 4 ∧
          u.fld (F.POOL_BANK_OWN_S b) = bits v.toNat 4 1) ∧
        (bits v.toNat 0 4 < 8 → u.fld (F.POOL_BANK_OWN_RET_OWNER b) = 15 ∧ u.fld (F.POOL_BANK_OWN_RET_S b) = 1) ∧
        (8 ≤ bits v.toNat 0 4 → bits v.toNat 0 4 ≠ 14 →
          u.fld (F.POOL_BANK_OWN_RET_OWNER b) = ownerOf q ∧ u.fld (F.POOL_BANK_OWN_RET_S b) = 1) ∧
        u.fld (F.POOL_BANK_OWN_HANDOVER b) = 1 ∧
        (s.pool.old.find? (fun e => e.1 == b.val) = none →
          u.ownInForce b = s.reg (R.POOL_BANK_OWN b) ∧ u.grantInForce b = s.reg (R.POOL_BANK_GRANT b)) ∧
        (∀ k, k ≠ R.POOL_BANK_OWN b → u.reg k = s.reg k) ∧ u.mem = s.mem) ∧
      (∃ u, exec (.bankOwnershipWrite q b true v) s = .next u ∧
        u.fld (F.POOL_BANK_GRANT_READ_GRANT b) = bits v.toNat 16 16 ∧ u.fld (F.POOL_BANK_OWN_HANDOVER b) = 1 ∧
        (∀ k, k ≠ R.POOL_BANK_OWN b → k ≠ R.POOL_BANK_GRANT b → u.reg k = s.reg k) ∧ u.mem = s.mem)) ∧
    (s.bankWriter q b = false → ∀ grant, ∃ u, exec (.bankOwnershipWrite q b grant v) s = .next u ∧
      u.resp.status = .refused ∧ (∀ c : Fin 288, u.reg (R.POOL_BANK_OWN c) = s.reg (R.POOL_BANK_OWN c) ∧
        u.reg (R.POOL_BANK_GRANT c) = s.reg (R.POOL_BANK_GRANT c)) ∧ u.mem = s.mem) ∧
    (bit (s.reg (R.POOL_BANK_OWN b)) 31 = true → ∃ u, exec (.handover b) s = .next u ∧
      u.ownInForce b = s.reg (R.POOL_BANK_OWN b) - 2 ^ 31 ∧ u.grantInForce b = s.reg (R.POOL_BANK_GRANT b) ∧
      (∀ d ∈ u.dirty, d.addr < poolBase ∨ (d.addr - poolBase) / bankSize ≠ b) ∧ u.mem = s.mem)) ∧
  ∀ (s : State) (q : Req) (o n : Nat) (bs : List Byte), s.held = false → s.ecc = [] →
    (q.s = true → s.domTakes 149 = true → n ≠ 0 → bs ≠ [] → o + n ≤ vaultSize → o + bs.length ≤ vaultSize →
      (s.flag F.SEC_STATUS_WIPING = false →
        exec (.nadirAccess q o 0 (some n) bs) s = .next (s.answer .ok (s.bytes (vaultBase + o) n)) ∧
        (∃ u, exec (.nadirAccess q o 0 none bs) s = .next u ∧ u = { s with mem := u.mem, resp := ⟨.ok, []⟩ } ∧
          u.bytes (vaultBase + o) bs.length = bs ∧
          ∀ j, ¬ (vaultBase + o ≤ j ∧ j < vaultBase + o + bs.length) → u.byte j = s.byte j) ∧
        (o % 8 + n ≤ 8 →
          (∃ u, exec (.nadirAccess q o 1 (some n) bs) s = .next u ∧ u.resp = ⟨.ok, s.bytes (vaultBase + o) n⟩ ∧ u.ecc = [] ∧
            u.mem = s.mem) ∧
          ∃ u, exec (.nadirAccess q o 2 (some n) bs) s = .next u ∧ u.resp = ⟨.error, []⟩ ∧
            u.fired = s.fired ++ s.pulses Src.POOL_UE ∧ u.mem = s.mem)) ∧
      (s.flag F.SEC_STATUS_WIPING = true →
        exec (.nadirAccess q o 0 (some n) bs) s = .next (s.answer .ok (List.replicate n 0)))) ∧
    (q.s = false → n ≠ 0 → o + n ≤ vaultSize → ∃ u, exec (.nadirAccess q o 0 (some n) bs) s = .next u ∧
      u.resp = ⟨.refused, List.replicate n 0⟩ ∧ u.mem = s.mem) ∧
    (s.hseOn = true → n ≠ 0 → bs ≠ [] → o + n ≤ ctsSize → o + bs.length ≤ ctsSize →
      exec (.ctsAccess q o false n bs) s = .next (s.answer .ok (s.bytes (ctsBase + o) n)) ∧
      (s.ctsAdmits q = true → ∃ u, exec (.ctsAccess q o true n bs) s = .next u ∧
        u = { s with mem := u.mem, resp := ⟨.ok, []⟩, ctsHits := u.ctsHits, valHits := u.valHits } ∧
        u.bytes (ctsBase + o) bs.length = bs ∧
        ∀ j, ¬ (ctsBase + o ≤ j ∧ j < ctsBase + o + bs.length) → u.byte j = s.byte j)) ∧
    (s.flag F.SEC_STATUS_WIPING = true → s.sec.reset = false → ∃ u, exec .nadirWipeEnd s = .next u ∧
      u.flag F.SEC_STATUS_WIPING = false ∧ (∀ k, k ≠ R.SEC_STATUS → u.reg k = s.reg k) ∧
      u = { s with regs := u.regs })

/-! ### The hydrostatic engine -/

/-- R69 to R74: the model commands of the HSE. A write of HSE_MODEL_NEXT counts unless a validation runs or a switch is
armed; VALIDATE latches the bank and runs; it waits for a live cycle (R108), and ends passed, or failed with the code of the
first check that fails; ARM takes a passed model; DISARM cancels; RELEASE hands over a bank that no armed or active model
uses, and otherwise does nothing. -/
def Obligations.HseModelCommands : Prop :=
  ∀ (s : State) (q : Req) (v : BitVec 32), s.blockOn 0x19 = true →
    (s.flag F.HSE_MODEL_CMD_VALIDATE = false → s.flag F.HSE_MODEL_ARM_ARM = false →
      ∃ t, exec (.hseModelNextWrite q v) s = .next t ∧ t.fld F.HSE_MODEL_NEXT_BANK = bits v.toNat 0 9 ∧
        t.fld F.HSE_MODEL_STATUS_VAL_STATE = 0 ∧ onlyRegs s t [R.HSE_MODEL_NEXT, R.HSE_MODEL_STATUS]) ∧
    (s.flag F.HSE_MODEL_CMD_VALIDATE = true ∨ s.flag F.HSE_MODEL_ARM_ARM = true →
      ∃ t, exec (.hseModelNextWrite q v) s = .next t ∧ onlyRegs s t []) ∧
    (s.flag F.HSE_MODEL_CMD_VALIDATE = false → v.toNat.testBit 1 = false →
      ∃ t, exec (.validate q v) s = .next t ∧ t.flag F.HSE_MODEL_CMD_VALIDATE = true ∧
        t.fld F.HSE_MODEL_STATUS_VAL_STATE = 1 ∧ t.hse.valBank = s.fld F.HSE_MODEL_NEXT_BANK ∧
        (∀ k, k ≠ R.HSE_MODEL_CMD → k ≠ R.HSE_MODEL_STATUS → t.reg k = s.reg k) ∧ t.mem = s.mem) ∧
    (s.flag F.HSE_MODEL_CMD_VALIDATE = true → s.hse.tick ≠ none ∨ s.flag F.HSE_STATUS_RUNNING = true →
      exec .validationEnd s = .next s) ∧
    (s.flag F.HSE_MODEL_CMD_VALIDATE = true → s.hse.tick = none → s.flag F.HSE_STATUS_RUNNING = false → s.valHits = [] →
      (s.hse.valLost = true → ∃ t, exec .validationEnd s = .next t ∧ t.flag F.HSE_MODEL_CMD_VALIDATE = false ∧
        t.fld F.HSE_MODEL_STATUS_VAL_STATE = 3 ∧ t.fld F.HSE_MODEL_STATUS_VAL_CODE = 0x0F ∧ t.mem = s.mem) ∧
      (s.hse.valLost = false → s.hse.valBank < 288 → PoolOpen s s.hseReq false (s.hse.valBank * bankSize) 0x21000 →
        ∃ t, exec .validationEnd s = .next t ∧ t.flag F.HSE_MODEL_CMD_VALIDATE = false ∧
          t.fld F.HSE_MODEL_STATUS_VAL_STATE = (if (validateModel s s.hse.valBank).1 = none then 2 else 3) ∧
          t.fld F.HSE_MODEL_STATUS_VAL_CODE = ((validateModel s s.hse.valBank).1.getD (0, 0, 0)).1 % 256 ∧
          t.mem = s.mem)) ∧
    (s.fld F.HSE_MODEL_STATUS_VAL_STATE = 2 → v.toNat.testBit 1 = false →
      ∃ t, exec (.arm q v) s = .next t ∧ t.flag F.HSE_MODEL_ARM_ARM = true ∧ onlyRegs s t [R.HSE_MODEL_ARM]) ∧
    (s.fld F.HSE_MODEL_STATUS_VAL_STATE ≠ 2 → v.toNat.testBit 1 = false →
      ∃ t, exec (.arm q v) s = .next t ∧ onlyRegs s t []) ∧
    (∃ t, exec (.disarm q v) s = .next t ∧ t.flag F.HSE_MODEL_ARM_ARM = false ∧ onlyRegs s t [R.HSE_MODEL_ARM]) ∧
    (let b := s.fld F.HSE_MODEL_NEXT_BANK
     let o := bits v.toNat 2 4
     s.flag F.HSE_MODEL_ARM_ARM = false → s.flag F.HSE_MODEL_STATUS_ACTIVE_VALID = false → v.toNat.testBit 0 = false →
      o < 8 → b < 288 → bits (s.reg (R.POOL_BANK_OWN b)) 0 5 = 8 → bit (s.reg (R.POOL_BANK_OWN b)) 31 = false →
      ∃ t, exec (.release q v) s = .next t ∧ t.fld F.HSE_MODEL_STATUS_VAL_STATE = 0 ∧
        t.fld (F.POOL_BANK_OWN_OWNER b) = o ∧ t.fld (F.POOL_BANK_OWN_HANDOVER b) = 1 ∧
        (∀ k, k ≠ R.HSE_MODEL_CMD → k ≠ R.HSE_MODEL_STATUS → k ≠ R.POOL_BANK_OWN b → t.reg k = s.reg k) ∧
        t.mem = s.mem) ∧
    (s.flag F.HSE_MODEL_ARM_ARM = true → v.toNat.testBit 0 = false → ∃ t, exec (.release q v) s = .next t ∧
      onlyRegs s t [R.HSE_MODEL_CMD])

/-- R80, R106, R107, R110, R111, R123, R131: the commands that arm something of the HSE: ENABLE takes the result base into
use, RESTART, COMMIT, CAPTURE, CLEAR, a write of HSE_BASE_ADDR, the self-test's START and ARM of an adoption. Each changes
its own registers only. -/
def Obligations.HseArming : Prop :=
  ∀ (s : State) (q : Req) (v : BitVec 32) (v8 : BitVec 64), s.blockOn 0x19 = true →
    (s.flag F.HSE_CTRL_ENABLE = false → v.toNat.testBit 0 = true → ∃ t, exec (.hseEnable q v) s = .next t ∧
      t.flag F.HSE_CTRL_ENABLE = true ∧ t.flag F.HSE_STATUS_PUBLISHED = false ∧
      t.hse = { s.hse with result := s.fld F.HSE_RESULT_BASE_ADDR * 4096 } ∧
      (t.flag F.HSE_STATUS_BASE_ERR = false ↔ poolBase ≤ s.fld F.HSE_RESULT_BASE_ADDR * 4096 ∧
        s.fld F.HSE_RESULT_BASE_ADDR * 4096 + 0xA000 ≤ poolBase + poolSize) ∧
      (t.flag F.HSE_STATUS_NO_MODEL = !s.flag F.HSE_MODEL_STATUS_ACTIVE_VALID) ∧
      (∀ k, k ≠ R.HSE_CTRL → k ≠ R.HSE_STATUS → t.reg k = s.reg k) ∧ t.mem = s.mem) ∧
    (v.toNat.testBit 0 = false → ∃ t, exec (.hseEnable q v) s = .next t ∧ t.flag F.HSE_CTRL_ENABLE = false ∧
      t.hse = s.hse ∧ t.flag F.HSE_STATUS_NO_MODEL = false ∧ onlyRegs s t [R.HSE_CTRL, R.HSE_STATUS]) ∧
    (v.toNat.testBit 0 = s.flag F.HSE_CTRL_ENABLE → ∃ t, exec (.hseRestart q v) s = .next t ∧
      t.flag F.HSE_CTRL_RESTART = true ∧ onlyRegs s t [R.HSE_CTRL, R.HSE_STATUS]) ∧
    (∃ t, exec (.paramCommit q) s = .next t ∧ t.flag F.HSE_PARAM_CMD_COMMIT = true ∧
      t.flag F.HSE_STATUS_PARAM_PENDING = true ∧ onlyRegs s t [R.HSE_PARAM_CMD, R.HSE_STATUS]) ∧
    (s.flag F.HSE_BASE_CMD_CAPTURE = false → v.toNat.testBit 1 = false → ∃ t, exec (.capture q v) s = .next t ∧
      t.flag F.HSE_BASE_CMD_CAPTURE = true ∧ t.hse = { s.hse with capSlot := bits v.toNat 2 2 } ∧
      t.fld F.HSE_BASE_CMD_VALID = s.fld F.HSE_BASE_CMD_VALID ∧
      (∀ k, k ≠ R.HSE_BASE_CMD → t.reg k = s.reg k) ∧ t.mem = s.mem) ∧
    (s.flag F.HSE_BASE_CMD_CLEAR = false → v.toNat.testBit 0 = false → s.flag F.HSE_STATUS_RUNNING = false →
      ∃ t, exec (.clear q v) s = .next t ∧ t.flag F.HSE_BASE_CMD_CLEAR = false ∧
        (∀ n < 4, (t.fld F.HSE_BASE_CMD_VALID).testBit n =
          (decide (n ≠ bits v.toNat 2 2) && (s.fld F.HSE_BASE_CMD_VALID).testBit n)) ∧
        (∀ k, k ≠ R.HSE_BASE_CMD → t.reg k = s.reg k) ∧ t.mem = s.mem) ∧
    (s.flag F.HSE_BASE_CMD_CAPTURE = false → ∃ t, exec (.baseAddrWrite q v8) s = .next t ∧
      t.fld F.HSE_BASE_ADDR_ADDR = bits v8.toNat 15 29 ∧ t.fld F.HSE_BASE_CMD_VALID = 0 ∧
      onlyRegs s t [R.HSE_BASE_ADDR, R.HSE_BASE_CMD]) ∧
    (s.flag F.HSE_ST_CMD_START = false → ∃ t, exec (.selftestStart q) s = .next t ∧
      t.flag F.HSE_ST_CMD_START = true ∧ t.fld F.HSE_ST_STATUS_STATE = 1 ∧
      onlyRegs s t [R.HSE_ST_CMD, R.HSE_ST_STATUS]) ∧
    (s.flag F.HSE_ADOPT_ARM = false → ∃ t, exec (.adoptArm q v) s = .next t ∧ t.flag F.HSE_ADOPT_ARM = true ∧
      t.fld F.HSE_ADOPT_STATE = 1 ∧ t.fld F.HSE_ADOPT_SOURCE = bits v.toNat 2 2 ∧ t.hse = { s.hse with arrived := none } ∧
      (∀ k, k ≠ R.HSE_ADOPT → t.reg k = s.reg k) ∧ t.mem = s.mem)

/-- R72, R77, R79, R101, R110, R131: the live cycle. The tick that the CST has due reaches the HSE, or counts as an overrun
when the last one is still at work; at the candidate boundary the cycle runs on the active model and holds its epoch; its
publication writes the half that the epoch selects, epoch word last, and shows the epoch. An adopted state waits for its
tick. Nothing outside that half of the result area is written. -/
def Obligations.HseLiveCycle : Prop :=
  ∀ (s : State) (c : Carried) (lat : Nat), s.blockOn 0x19 = true →
    (s.flag F.HSE_ADOPT_ARM = true → exec (.adoptedStateArrive c) s =
      .next { s with hse := { s.hse with arrived := some c } }) ∧
    (∀ e t p, s.cst.due = some (e, t, p) → s.cst.jobs = [] → s.flag F.HSE_MODEL_ARM_ARM = false →
      s.flag F.HSE_PARAM_CMD_COMMIT = false → s.flag F.HSE_ADOPT_ARM = false →
      (s.hse.tick.isSome = true ∨ s.flag F.HSE_STATUS_RUNNING = true → ∃ u, exec .tickReachesHse s = .next u ∧
        u.cst.due = none ∧ u.cst.reached = e ∧ u.flag F.HSE_STATUS_OVERRUN = true ∧ u.hse = s.hse ∧
        u.fired = s.fired ++ s.pulses Src.HSE_OVERRUN ∧ u.mem = s.mem) ∧
      (s.hse.tick = none → s.flag F.HSE_STATUS_RUNNING = false → s.flag F.HSE_CTRL_ENABLE = true →
        s.flag F.HSE_MODEL_STATUS_ACTIVE_VALID = true → s.flag F.HSE_STATUS_BASE_ERR = false →
        ∃ u, exec .tickReachesHse s = .next u ∧ u.cst.due = none ∧ u.cst.reached = e ∧
          u = { s with cst := u.cst, hse := { s.hse with tick := some (e, t, p) } })) ∧
    (∀ e t p, s.hse.tick = some (e, t, p) → s.flag F.HSE_STATUS_RUNNING = false → s.flag F.HSE_CTRL_ENABLE = true →
      s.flag F.HSE_MODEL_STATUS_ACTIVE_VALID = true → s.flag F.HSE_STATUS_BASE_ERR = false →
      s.flag F.HSE_CTRL_RESTART = false →
      ModelOpen s (s.fld F.HSE_MODEL_STATUS_ACTIVE_BANK) →
      ∃ u y, exec .liveCycle s = .next u ∧ u.flag F.HSE_STATUS_RUNNING = true ∧ u.hse.tick = none ∧
        u.hse.cycle = some y ∧ y.epoch = e ∧ y.sched = t ∧ y.bank = s.fld F.HSE_MODEL_STATUS_ACTIVE_BANK ∧
        u.mem = s.mem ∧ u.threads = s.threads) ∧
    (∀ y o, s.hse.cycle = some y → s.hse.result = poolBase + o → PoolOpen s s.hseReq true o 0xA000 →
      y.epoch < 2 ^ 64 - 1 → y.body.length = 4032 → y.block.length = 16384 → s.flag F.HSE_BASE_CMD_CAPTURE = false →
      (openOf s (s.ship (modelAddr y.bank)) s.ctsHits
        ((List.range (s.ship (modelAddr y.bank)).tanks).map (fun i => leAt y.block (32 * i + 24) 4))).any = false →
      let a := s.hse.result + y.epoch % 2 * 0x5000
      ∃ u, exec (.publication lat) s = .next u ∧ u.flag F.HSE_STATUS_RUNNING = false ∧ u.hse.cycle = none ∧
        u.flag F.HSE_STATUS_PUBLISHED = true ∧ u.reg R.HSE_EPOCH_LO = y.epoch % 2 ^ 32 ∧
        u.reg R.HSE_EPOCH_HI = y.epoch / 2 ^ 32 ∧ u.num (a + 8) 8 = y.epoch ∧ u.bytes (a + 64) 4032 = y.body ∧
        u.bytes (a + 0x1000) 16384 = y.block ∧ ∀ j, ¬ (a ≤ j ∧ j < a + 0x5000) → u.byte j = s.byte j)

/-- R108, R112 to R124: sweeps and the self-test. A job starts when the HSE is free and a ring has work; a bad descriptor
ends it with code 0x5; a candidate is taken in order, and what it writes goes to the job's result slots; the job that has
ended offers its completion record and is over; CANCEL ends a running job with code 0x4; a self-test candidate is counted,
and the last one ends the test and fires HSE_SELFTEST. -/
def Obligations.HseSweepsAndSelfTest : Prop :=
  ∀ (s : State) (q : Req) (n : Fin 4) (v : BitVec 32) (lat : Nat), s.blockOn 0x19 = true →
    (s.hseIdle = true → s.hse.job = none → s.flag F.HSE_ST_CMD_START = false → s.sweepTurn = some n.val →
      ∀ o, s.slotAddr (.hse n) (s.fld (F.HSE_SWP_CONS_CONS_IDX n)) = poolBase + o →
      PoolOpen s (s.ringReq (.hse n)) false o 64 →
      ∃ u j, exec .sweepJobStart s = .next u ∧ u.hse.job = some j ∧ j.ring = n ∧ j.count = s.num (poolBase + o + 4) 4 ∧
        j.list = s.num (poolBase + o + 8) 8 ∧ j.tag = s.num (poolBase + o + 20) 4 ∧ j.result = s.num (poolBase + o + 24) 8 ∧
        j.limit = s.num (poolBase + o + 32) 4 ∧ (j.code = some 5 ↔ j.bad = true) ∧ (j.bad = false → j.code = none) ∧
        u.hse.lastRing = some n.val ∧ u.flag (F.HSE_SWP_CFG_BUSY n) = true ∧
        (∀ k, k ≠ R.HSE_SWP_CFG n → u.reg k = s.reg k) ∧ u.mem = s.mem) ∧
    (∀ j, s.hse.job = some j → j.code = none → s.hseIdle = true → s.flag F.HSE_ST_CMD_START = false →
      ModelOpen s (s.fld F.HSE_MODEL_STATUS_ACTIVE_BANK) →
      ∃ u j', exec (.sweepCandidate lat) s = .next u ∧ u.hse.job = some j' ∧ j'.next = j.next + 1 ∧ j'.ring = j.ring ∧
        (j'.written = j.written ∨ j'.written = j.written + 1) ∧ u.threads = s.threads ∧
        (let n := if j.control.testBit 0 then 0x5000 else 0x1000
         let a := j.result + j.written * n
         poolBase ≤ a → a + n ≤ poolBase + poolSize → ∀ i, ¬ (a ≤ i ∧ i < a + n) → u.byte i = s.byte i)) ∧
    (∀ j k, s.hse.job = some j → j.code = some k → j.ring < 4 → (s.ringSt (.hse j.ring)).tainted = [] →
      ∃ u, exec .sweepJobEnd s = .next u ∧ u.hse.job = none ∧ u.flag (F.HSE_SWP_CFG_BUSY j.ring) = false ∧
        (∃ r, u.lull.offers = s.lull.offers ++ [r] ∧ r.kind = 1 ∧ r.status = k ∧ r.unit = 2 ∧ r.index = j.ring ∧
          r.w1 = j.tag ∧ r.w2 = j.next % 2 ^ 17 ∧ r.w3 = j.written % 2 ^ 17 ∧
          r.queue = s.fld (F.HSE_SWP_CFG_QUEUE j.ring)) ∧ u.mem = s.mem) ∧
    (∀ j, s.hse.job = some j → j.ring = n.val → j.code = none → j.last = none → s.flag (F.HSE_SWP_CFG_CANCEL n) = false →
      s.ringHeld (.hse n) = 1 → s.heldCount (.hse n) = 0 → (s.ringSt (.hse n)).tainted = [] → s.flag (F.HSE_SWP_CFG_ENABLE n) = true →
      4 ≤ s.fld (F.HSE_SWP_CFG_SIZE_LOG2 n) → s.fld (F.HSE_SWP_CFG_SIZE_LOG2 n) ≤ 12 →
      4 ≤ bits v.toNat 4 4 → bits v.toNat 4 4 ≤ 12 → v.toNat.testBit 0 = true →
      ∃ u, exec (.sweepCancel q n v) s = .next u ∧ u.hse.job = none ∧ u.flag (F.HSE_SWP_CFG_CANCEL n) = true ∧
        (∃ r, u.lull.offers = s.lull.offers ++ [r] ∧ r.status = 4 ∧ r.w1 = j.tag) ∧ u.mem = s.mem) ∧
    (s.fld F.HSE_ST_STATUS_STATE = 2 → s.hse.tick = none → s.flag F.HSE_STATUS_RUNNING = false →
      s.flag F.HSE_MODEL_CMD_VALIDATE = false → s.hse.switches = s.hse.st.switches →
      leAt s.hse.st.set 24 8 = 0 →
      ModelOpen s (s.fld F.HSE_MODEL_STATUS_ACTIVE_BANK) →
      ∃ u, exec (.selftestCandidate lat) s = .next u ∧ u.fld F.HSE_ST_STATUS_RUN = (s.hse.st.next + 1) % 256 ∧
        (s.hse.st.next + 1 < leAt s.hse.st.set 4 2 → u.hse.st.next = s.hse.st.next + 1 ∧ u.fld F.HSE_ST_STATUS_STATE = 2) ∧
        (leAt s.hse.st.set 4 2 ≤ s.hse.st.next + 1 → u.hse.st = {} ∧ u.flag F.HSE_ST_CMD_START = false ∧
          (u.fld F.HSE_ST_STATUS_STATE = 3 ∨ u.fld F.HSE_ST_STATUS_STATE = 4)) ∧ u.mem = s.mem)

/-! ### Constellation -/

/-- R126 to R128: the group. FORM makes a device that is ALONE a FORMING one, LIVE with itself alone, and sends a hello to
every other member; LEAVE makes it ALONE; a hello that agrees makes its peer LIVE, and the group is FORMED once every
member is; one that does not agree changes nothing; four seconds after FORM a device still FORMING is DEGRADED, or FAILED
with no LIVE peer; a lost peer leaves LIVE, degrades a formed group and fires CST_MEMBER; a time token from the leader
changes what the next advance of the counter adds by at most one, and sets TIME_ALIGNED to whether the offset is at most
50 ns. Memory keeps its bytes. -/
def Obligations.GroupMembership : Prop :=
  ∀ (s : State) (q : Req) (port pos : Fin 4) (gid : BitVec 16) (mem : BitVec 4) (info : LeadInfo) (off : Int),
    s.held = false →
    (s.alone = true → s.members.testBit s.pos = true → s.live = 0 → ∃ t, exec (.form q) s = .next t ∧
      t.fld F.CST_GROUP_STATUS_STATE = (if s.members = 2 ^ s.pos then 2 else 1) ∧ t.live = 2 ^ s.pos ∧
      t.fld F.CST_GROUP_STATUS_LEADER = s.pos ∧ t.mem = s.mem ∧
      t.out = s.out ++ s.others.map (fun p => ⟨.helloToken, [p, s.reg R.CST_GROUP, s.pos], []⟩)) ∧
    (s.alone = false → ∃ t, exec (.leave q) s = .next t ∧ t.alone = true ∧ t.live = 0 ∧ t.cst.votes = [] ∧ t.mem = s.mem) ∧
    (s.alone = false → pos = port → port.val ≠ s.pos → s.members.testBit port = true →
      gid.toNat = s.fld F.CST_GROUP_GROUP_ID → mem.toNat = s.members → s.isLive port = false →
      ∃ t, exec (.hello port pos gid mem info) s = .next t ∧ t.live = Nat.lor s.live (2 ^ port.val) ∧
        (Nat.land t.live s.members = s.members → t.fld F.CST_GROUP_STATUS_STATE = 2) ∧ t.mem = s.mem) ∧
    (pos ≠ port ∨ gid.toNat ≠ s.fld F.CST_GROUP_GROUP_ID ∨ mem.toNat ≠ s.members →
      exec (.hello port pos gid mem info) s = .next s) ∧
    (s.fld F.CST_GROUP_STATUS_STATE = 1 → ∃ t, exec .formTimeout s = .next t ∧
      t.fld F.CST_GROUP_STATUS_STATE = (if s.livePeers = [] then 4 else 3) ∧ t.live = s.live ∧ t.mem = s.mem) ∧
    (s.isLive port = true → port.val ≠ s.pos → s.members.testBit port = true → ∃ t, exec (.peerLost port) s = .next t ∧
      t.live = s.live - 2 ^ port.val ∧ (s.fld F.CST_GROUP_STATUS_STATE = 2 → t.fld F.CST_GROUP_STATUS_STATE = 3) ∧
      (∀ e ∈ s.pulses Src.CST_MEMBER, e ∈ t.fired) ∧ t.mem = s.mem) ∧
    (s.leads = false → port.val = s.leaderPos → s.isLive port = true → ∃ t, exec (.timeToken port off info) s = .next t ∧
      (t.flag F.CST_GROUP_STATUS_TIME_ALIGNED = decide (off.natAbs ≤ 50)) ∧
      (t.cst.skew = s.cst.skew ∨ (10 ≤ off ∧ t.cst.skew = 1) ∨ (off ≤ -10 ∧ t.cst.skew = -1)) ∧
      t = { s with regs := t.regs, cst := t.cst, fired := t.fired } ∧
      ∀ k, k ≠ R.CST_GROUP_STATUS → t.reg k = s.reg k)

/-- R129, R130, R138, R139: the tick and what waits for it. The epoch advances by one at the scheduled time and is due at
the HSE; an epoch store that is due is made then. An epoch store is held here and sent to every LIVE peer; one that arrives
is held and answered, or refused when 16 are held. ARM arms regions; a copy that is due moves its bytes and then writes its
epoch after them, or is discarded and counted when it is late; the copy of a peer lands in the same way. -/
def Obligations.TicksAndSnapshots : Prop :=
  ∀ (s : State) (q : Req) (v : BitVec 32), s.held = false →
    (s.ticks = true → s.cst.due = none → s.cst.skew = 0 → s.stc ≤ s.cst.next → s.cst.next < s.stc + 2 ^ 63 →
      s.cst.next < 2 ^ 64 →
      let e := (s.reg R.CST_EPOCH + 1) % 2 ^ 64
      (s.cst.stores = [] → ∃ t, exec .groupTick s = .next t ∧ t.reg R.CST_EPOCH = e ∧ t.stc = s.cst.next ∧
        (∃ p, t.cst.due = some (e, s.cst.next, p)) ∧ (∀ x ∈ s.pulses Src.CST_TICK, x ∈ t.fired) ∧ t.mem = s.mem ∧
        t.threads = s.threads) ∧
      (∀ x o, s.cst.stores = [x] → x.issuer < 4 → x.epoch ≤ e → x.addr = poolBase + o → 1 ≤ x.data.length →
        PoolOpen s x.req true o x.data.length → ∃ t, exec .groupTick s = .next t ∧ t.reg R.CST_EPOCH = e ∧
          t.cst.stores = [] ∧ t.bytes x.addr x.data.length = x.data ∧
          ∀ j, ¬ (x.addr ≤ j ∧ j < x.addr + x.data.length) → t.byte j = s.byte j)) ∧
    (s.flag F.CST_BCAST_CMD_GO = false → s.cst.stores.length < 16 → ∃ t, exec (.epochStore q v) s = .next t ∧
      (let n := if v.toNat.testBit 3 then 8 else 4
       let x : EStore := ⟨s.pos, s.reg R.CST_BCAST_EPOCH, s.fld F.CST_BCAST_ADDR_ADDR / n * n,
         toBytes n (s.reg R.CST_BCAST_DATA), q⟩
       t.cst.stores = s.cst.stores ++ [x] ∧ t.fld F.CST_BCAST_PENDING_COUNT = s.cst.stores.length + 1 ∧
       t.out = s.out ++ s.livePeers.map (fun p => ⟨.epochStore, [p, x.epoch, x.addr, q.tag.toNat, b2n q.s], x.data⟩)) ∧
      t.flag F.CST_BCAST_CMD_GO = decide (s.livePeers ≠ []) ∧ t.mem = s.mem ∧
      ∀ k, k ≠ R.CST_BCAST_CMD → k ≠ R.CST_BCAST_PENDING → t.reg k = s.reg k) ∧
    (∀ (port : Fin 4) (e : BitVec 64) (a : BitVec 44) (d : List Byte), ∃ t,
      exec (.epochStoreReceive port q e a d) s = .next t ∧
      (let ok := s.isLive port = true ∧ s.cst.stores.length < 16
       (ok → t.cst.stores = s.cst.stores ++ [⟨port, e.toNat, a.toNat, d, q⟩] ∧ t.out = s.out ++ [⟨.answer, [port, 0], []⟩]) ∧
       (¬ ok → t.cst = s.cst ∧ t.regs = s.regs ∧ t.out = s.out ++ [⟨.answer, [port, 1], []⟩])) ∧ t.mem = s.mem ∧
      ∀ k, k ≠ R.CST_BCAST_PENDING → t.reg k = s.reg k) ∧
    (∃ t, exec (.snapshotArm q v) s = .next t ∧
      (∀ n < 8, (t.fld F.CST_SNAP_ARM_ARM).testBit n = ((s.fld F.CST_SNAP_ARM_ARM).testBit n || v.toNat.testBit n)) ∧
      onlyRegs s t [R.CST_SNAP_ARM]) ∧
    (∀ (n : Fin 8) j r a b, takeFirst (fun (j : SnapJob) => j.region == n.val) s.cst.jobs = some (j, r) → j.group = false →
      j.src = poolBase + a → j.dst = poolBase + b → 1 ≤ j.units → j.units < 2048 → j.epoch < 2 ^ 64 →
      PoolOpen s (s.engine j.owner j.s) false a (64 * j.units) →
      PoolOpen s (s.engine j.owner j.s) true b (64 * j.units + 8) →
      (j.onPublish = true ∨ s.cst.reached < j.epoch → ∃ t, exec (.snapshotCopy n) s = .next t ∧ t.cst = { s.cst with jobs := r } ∧
        t.bytes j.dst (64 * j.units) = s.bytes j.src (64 * j.units) ∧ t.num (j.dst + 64 * j.units) 8 = j.epoch ∧
        (∀ i, ¬ (j.dst ≤ i ∧ i < j.dst + 64 * j.units + 8) → t.byte i = s.byte i) ∧ t.regs = s.regs ∧ t.threads = s.threads) ∧
      (j.onPublish = false → j.epoch ≤ s.cst.reached → ∃ t, exec (.snapshotCopy n) s = .next t ∧
        t.cst = { s.cst with jobs := r } ∧ t.fld (cnt32 R.CST_SNAP_LATE) = satU 32 (s.fld (cnt32 R.CST_SNAP_LATE) + 1) ∧
        t.mem = s.mem ∧ ∀ k, k ≠ R.CST_SNAP_LATE → t.reg k = s.reg k)) ∧
    (∀ (port : Fin 4) (a : BitVec 44) (e : BitVec 64) (gated : Bool) (d : List Byte) (o n : Nat),
      s.isLive port = true → posOf q = port → port.val ≠ s.pos → a.toNat = poolBase + o → d.length = 64 * n → 1 ≤ n → n < 2048 →
      PoolOpen s q true o (64 * n + 8) →
      (gated = false ∨ s.cst.reached < e.toNat → ∃ t, exec (.snapshotDataReceive port q a e gated d) s = .next t ∧
        t.bytes a.toNat (64 * n) = d ∧ t.num (a.toNat + 64 * n) 8 = e.toNat ∧
        (∀ i, ¬ (a.toNat ≤ i ∧ i < a.toNat + 64 * n + 8) → t.byte i = s.byte i) ∧ t.regs = s.regs ∧
        t.threads = s.threads) ∧
      (gated = true → e.toNat ≤ s.cst.reached → ∃ t, exec (.snapshotDataReceive port q a e gated d) s = .next t ∧
        t.fld (cnt32 R.CST_SNAP_LATE) = satU 32 (s.fld (cnt32 R.CST_SNAP_LATE) + 1) ∧ t.mem = s.mem))

/-- R133 to R137, R140: votes, barriers, mailboxes and reset requests. A digest joins its open vote, or is discarded and
counted when that vote is over; a closed vote is recorded. An arrival is counted, or completes the generation and releases
those who arrived in it with 0; TIMEOUT_US after its first arrival they are released with 1. A mailbox takes the data and
its source. A reset request goes to a LIVE peer; one that arrives without a grant is refused and counted, and one of a
granted peer under QUORUM 1 resets the device as PEER; the grant is frozen by LOCK. -/
def Obligations.VotesBarriersMail : Prop :=
  ∀ (s : State) (q : Req) (v : BitVec 32) (port : Fin 4) (n : Fin 32), s.held = false →
    (∀ e d : BitVec 64, s.isLive port = true → s.votes = true → s.members.testBit port = true →
      (e.toNat < s.cst.reached ∨ e.toNat ∈ s.cst.done → ∃ t, exec (.digestReceive port e d) s = .next t ∧
        t.fld (cnt32 R.CST_VOTE_DISCARD) = satU 32 (s.fld (cnt32 R.CST_VOTE_DISCARD) + 1) ∧ onlyRegs s t [R.CST_VOTE_DISCARD]) ∧
      (s.cst.reached ≤ e.toNat → e.toNat ∉ s.cst.done → (∀ x ∈ s.cst.votes, x.epoch = e.toNat → x.closed = false) →
        ∃ t, exec (.digestReceive port e d) s = .next t ∧
          (∃ x ∈ t.cst.votes, x.epoch = e.toNat ∧ (port.val, d.toNat) ∈ x.digests) ∧
          t = { s with cst := { s.cst with votes := t.cst.votes } })) ∧
    (∀ x r, takeFirst (fun (x : Vote) => x.closed) s.cst.votes = some (x, r) → ∃ t, exec .voteClose s = .next t ∧
      t.cst = { s.cst with votes := r, done := x.epoch :: s.cst.done } ∧
      t.reg R.CST_VOTE_LAST = (x.epoch % 2 ^ 32 * 2 ^ 32 + s.voteWord x) % 2 ^ 64 ∧
      (∀ y ∈ s.pulses Src.CST_VOTE, y ∈ t.fired) ∧ t.mem = s.mem ∧
      ∀ k, k ≠ R.CST_VOTE_LAST → k ≠ R.CST_VOTE_FAIL_COUNT → t.reg k = s.reg k) ∧
    (s.isLive port = true → port.val ≠ s.pos → s.fld (F.CST_BAR_CFG_SCOPE n) = 2 →
      let x := s.fld (F.CST_BAR_CFG_EXPECT n)
      let c (p : Nat) : Nat := AMap.get (s.bar n).counts p 0 + (if p = port then 1 else 0)
      let full : Prop := x ≠ 0 ∧ ∀ p ∈ s.barPlaces n, x ≤ c p
      ∃ t, exec (.barrierArrival n port) s = .next t ∧ t = { s with cst := t.cst, threads := t.threads } ∧
        (¬ full → (t.bar n).gen = (s.bar n).gen ∧ t.threads = s.threads ∧ ∀ p, AMap.get (t.bar n).counts p 0 = c p) ∧
        (full → (t.bar n).gen = (s.bar n).gen + 1 ∧
          (∀ p, AMap.get (t.bar n).counts p 0 = (if p ∈ s.barPlaces n then c p - x else c p)) ∧
          ∀ u a, (s.th u).arrived = some a → (t.th u).arrived = some (a.ended n (s.bar n).gen 0))) ∧
    (s.fld (F.CST_BAR_CFG_TIMEOUT_US n) ≠ 0 → (s.bar n).counts ≠ [] → ∃ t, exec (.barrierTimeout n) s = .next t ∧
      t.bar n = { gen := s.barGen n + 1, counts := [] } ∧
      t = { s.until ((s.bar n).since + 500 * s.fld (F.CST_BAR_CFG_TIMEOUT_US n)) with cst := t.cst, threads := t.threads } ∧
      ∀ u a, (s.th u).arrived = some a → (t.th u).arrived = some (a.ended n (s.barGen n) 1)) ∧
    (s.flag F.CST_BCAST_CMD_GO = false → v.toNat.testBit 8 = false → ∃ t, exec (.mailboxBroadcast q v) s = .next t ∧
      t.reg (R.CST_MAILBOX (bits v.toNat 4 4)) = s.reg R.CST_BCAST_DATA ∧ t.flag F.CST_BCAST_CMD_GO = false ∧
      bits (t.reg R.CST_MAILBOX_SRC) (2 * bits v.toNat 4 4) 2 = s.pos ∧
      t.fired = s.fired ++ s.pulses Src.CST_MAILBOX ∧ t.mem = s.mem ∧
      ∀ k, k ≠ R.CST_BCAST_CMD → k ≠ R.CST_MAILBOX (bits v.toNat 4 4) → k ≠ R.CST_MAILBOX_SRC → t.reg k = s.reg k) ∧
    (∀ (m : Fin 16) (d : BitVec 64), ∃ t, exec (.mailboxReceive port m d) s = .next t ∧ t.reg (R.CST_MAILBOX m) = d.toNat ∧
      bits (t.reg R.CST_MAILBOX_SRC) (2 * m.val) 2 = port ∧ t.out = s.out ++ [⟨.answer, [port, 0], []⟩] ∧
      t = { s with regs := t.regs, out := t.out, fired := s.fired ++ s.pulses Src.CST_MAILBOX } ∧
      ∀ k, k ≠ R.CST_MAILBOX m → k ≠ R.CST_MAILBOX_SRC → t.reg k = s.reg k) ∧
    (s.isLive (bits v.toNat 4 2) = true → bits v.toNat 4 2 ≠ s.pos → ∃ t, exec (.resetRequestSend q v) s = .next t ∧
      t.out = s.out ++ [⟨.resetRequest, [bits v.toNat 4 2], []⟩] ∧
      t = { s with regs := t.regs, out := t.out, resp := t.resp } ∧ ∀ k, k ≠ R.CST_RESET_CMD → t.reg k = s.reg k) ∧
    (port.val ≠ s.pos → (s.fld F.CST_RESET_GRANT_GRANT).testBit port = false →
      ∃ t, exec (.resetRequestReceive port) s = .next t ∧
        t.fld (cnt32 R.CST_RESET_REFUSED) = satU 32 (s.fld (cnt32 R.CST_RESET_REFUSED) + 1) ∧
        t = { s with regs := t.regs, fired := s.fired ++ s.pulses Src.CST_RESET_REFUSED } ∧
        ∀ k, k ≠ R.CST_RESET_REFUSED → t.reg k = s.reg k) ∧
    (port.val ≠ s.pos → (s.fld F.CST_RESET_GRANT_GRANT).testBit port = true → s.fld F.CST_RESET_GRANT_QUORUM = 1 →
      ∃ t, exec (.resetRequestReceive port) s = .next t ∧ t = s.warmReset 3 port ∧ t.flag F.PWR_RESET_CAUSE_PEER = true) ∧
    (q.s = true → s.flag F.CST_RESET_GRANT_LOCK = false → ∃ t, exec (.resetGrantWrite q v) s = .next t ∧
      t.fld F.CST_RESET_GRANT_GRANT = bits v.toNat 0 4 ∧
      t.fld F.CST_RESET_GRANT_QUORUM = (if bits v.toNat 8 2 = 3 then s.fld F.CST_RESET_GRANT_QUORUM else bits v.toNat 8 2) ∧
      t.flag F.CST_RESET_GRANT_LOCK = v.toNat.testBit 16 ∧ onlyRegs s t [R.CST_RESET_GRANT]) ∧
    (q.s = true → s.flag F.CST_RESET_GRANT_LOCK = true → ∃ t, exec (.resetGrantWrite q v) s = .next t ∧
      t.reg R.CST_RESET_GRANT = s.reg R.CST_RESET_GRANT ∧ onlyRegs s t [R.CST_RESET_GRANT])

/-! ### Heads, composer, Squall -/

/-- R141, R144, R146, R148 to R155: scan-out. ENABLE takes the shadow set and starts at vertical blanking, or leaves the
head off with the code of the check that failed; a write of 0 stops scan-out at the next start of vertical blanking, or at
once within it; COMMIT arms a transfer from its time on, or makes it at once while scan-out does not run; each line is
fetched in turn; vertical blanking begins the next frame, which is counted at its position (0, 0). Memory keeps its bytes.
-/
def Obligations.HeadScanOut : Prop :=
  ∀ (s : State) (q : Req) (n : Fin 6) (v : BitVec 32), s.headOn n = true →
    let only (t : State) (ks : List Nat) : Prop := t = { s with regs := t.regs, resp := t.resp, heads := t.heads } ∧
      (∀ m : Nat, m ≠ n.val → t.head m = s.head m) ∧ ∀ k, k ∉ ks → t.reg k = s.reg k
    (s.flag (F.HEAD_STATUS_SCANNING n) = false →
      let e := s.commitErr { s.head n with act := s.shadow n } n true
      (e = 0 → ∃ t, exec (.headEnable q n v) s = .next t ∧ t.flag (F.HEAD_CTRL_ENABLE n) = true ∧
        t.flag (F.HEAD_STATUS_SCANNING n) = true ∧ t.flag (F.HEAD_STATUS_IN_VBLANK n) = true ∧
        t.reg (R.HEAD_FRAME n) = 0 ∧ (t.head n).act = s.shadow n ∧ t.flag (F.HEAD_CTRL_COMMIT n) = false ∧
        t.fld (F.HEAD_STATUS_COMMIT_ERR n) = 0 ∧ (∀ x ∈ s.pulses (Src.HEAD n 0), x ∈ t.fired) ∧ t.mem = s.mem ∧
        t.threads = s.threads ∧
        ∀ k, k ∉ [R.HEAD_CTRL n, R.HEAD_STATUS n, R.HEAD_FRAME n, R.HEAD_SF_CFG_ERR n] → t.reg k = s.reg k) ∧
      (e ≠ 0 → ∃ t, exec (.headEnable q n v) s = .next t ∧ t.flag (F.HEAD_CTRL_ENABLE n) = false ∧
        t.flag (F.HEAD_STATUS_SCANNING n) = false ∧ t.fld (F.HEAD_STATUS_COMMIT_ERR n) = e ∧
        t.fired = s.fired ++ s.pulses (Src.HEAD n 1) ∧ (t.head n).act = (s.head n).act ∧
        t = { s with regs := t.regs, fired := t.fired, resp := t.resp, heads := t.heads } ∧
        (∀ m : Nat, m ≠ n.val → t.head m = s.head m) ∧
        ∀ k, k ≠ R.HEAD_CTRL n → k ≠ R.HEAD_STATUS n → t.reg k = s.reg k)) ∧
    (s.flag (F.HEAD_STATUS_SCANNING n) = false → v.toNat.testBit 0 = false →
      let e := s.commitErr { s.head n with act := s.shadow n } n (s.trained n)
      ∃ t, exec (.commit q n v) s = .next t ∧ t.flag (F.HEAD_CTRL_COMMIT n) = false ∧
        t.fld (F.HEAD_STATUS_COMMIT_ERR n) = e ∧ t.fired = s.fired ++ s.pulses (Src.HEAD n 1) ∧
        (t.head n).act = (if e = 0 then s.shadow n else (s.head n).act) ∧
        t = { s with regs := t.regs, fired := t.fired, resp := t.resp, heads := t.heads } ∧
        ∀ k, k ∉ [R.HEAD_CTRL n, R.HEAD_STATUS n, R.HEAD_SF_CFG_ERR n] → t.reg k = s.reg k) ∧
    (s.flag (F.HEAD_STATUS_SCANNING n) = true → s.flag (F.HEAD_STATUS_IN_VBLANK n) = false → v.toNat.testBit 1 = false →
      ∃ t, exec (.headDisable q n v) s = .next t ∧ t.flag (F.HEAD_CTRL_ENABLE n) = false ∧
        t.flag (F.HEAD_STATUS_SCANNING n) = true ∧ (t.head n).stopping = true ∧ only t [R.HEAD_CTRL n]) ∧
    (s.flag (F.HEAD_STATUS_SCANNING n) = true → s.flag (F.HEAD_STATUS_IN_VBLANK n) = true →
      ∃ t, exec (.headDisable q n v) s = .next t ∧ t.flag (F.HEAD_CTRL_ENABLE n) = false ∧
        t.flag (F.HEAD_STATUS_SCANNING n) = false ∧ t.merState n = 0 ∧ (t.head n).comp = false ∧ (t.head n).tiles = [] ∧
        t.mem = s.mem ∧ t.threads = s.threads) ∧
    (s.flag (F.HEAD_STATUS_SCANNING n) = true → v.toNat.testBit 0 = true →
      ∃ t, exec (.commit q n v) s = .next t ∧ t.flag (F.HEAD_CTRL_COMMIT n) = true ∧
        (t.head n).commitAt = (if s.flag (F.HEAD_CTRL_COMMIT n) then (s.head n).commitAt else s.now) ∧
        (s.flag (F.HEAD_CTRL_ENABLE n) = true → t.reg (R.HEAD_FRAME n) = s.reg (R.HEAD_FRAME n)) ∧
        (s.flag (F.HEAD_CTRL_ENABLE n) = false → t.reg (R.HEAD_FRAME n) = 0) ∧
        only t [R.HEAD_CTRL n, R.HEAD_FRAME n]) ∧
    (s.scanning n = true → (s.head n).fetch < s.vActive n → ∃ t, exec (.lineFetch n) s = .next t ∧
      (t.head n).fetch = (s.head n).fetch + 1 ∧ t.mem = s.mem ∧ t.threads = s.threads) ∧
    (s.scanning n = true → s.flag (F.HEAD_STATUS_IN_VBLANK n) = true → (s.head n).fetch ≠ 0 →
      ∃ t, exec (.frameStart n) s = .next t ∧ t.flag (F.HEAD_STATUS_IN_VBLANK n) = false ∧
        t.reg (R.HEAD_FRAME n) = (s.head n).frame % 2 ^ 64 ∧ (t.head n).fetch = (s.head n).fetch ∧ t.mem = s.mem ∧
        t.threads = s.threads) ∧
    (s.scanning n = true → s.flag (F.HEAD_STATUS_IN_VBLANK n) = false →
      ((s.head n).stopping = false → ∃ t, exec (.vblankStart n) s = .next t ∧
        t.flag (F.HEAD_STATUS_IN_VBLANK n) = true ∧ t.flag (F.HEAD_STATUS_SCANNING n) = true ∧
        (t.head n).frame = (s.reg (R.HEAD_FRAME n) + 1) % 2 ^ 32 ∧ (t.head n).fetch = 0 ∧
        (∀ x ∈ s.pulses (Src.HEAD n 0), x ∈ t.fired) ∧ t.mem = s.mem ∧ t.threads = s.threads) ∧
      ((s.head n).stopping = false → exec (.scanStop n) s = .next s) ∧
      ((s.head n).stopping = true → ∃ t, exec (.scanStop n) s = .next t ∧ exec (.vblankStart n) s = .next t ∧
        t.flag (F.HEAD_STATUS_SCANNING n) = false ∧ t.flag (F.HEAD_STATUS_IN_VBLANK n) = true ∧
        t.merState n = 0 ∧ t.mem = s.mem ∧ t.threads = s.threads))

/-- R158 to R161: the DisplayPort link. TRAIN sends the sink its set-up and the first attempt at clock recovery (LANES 3
fails at once); a training whose answers show clock recovery and then equalisation on every lane ends trained, or short of
bandwidth, one without an answer has failed in its phase, and its end fires HEAD_LINK. GO sends one AUX request, which a
reply, a malformed reply or the timeout ends; it is ignored while a request runs, and noted during training. HPD pulses,
plugging and unplugging, the latter also by a pin that no longer selects the signal, are recorded and fire HEAD_HPD. Nothing
but the head, its registers, the pin's input and what is sent changes. What training sends is log entry 48's. -/
def Obligations.DisplayLink : Prop :=
  ∀ (s : State) (q : Req) (n : Fin 6) (v : BitVec 32) (code : BitVec 4) (data : List Byte) (answers : List (List Byte)),
    s.headOn n = true →
    let rest (t : State) (ks : List Nat) : Prop :=
      t = { s with regs := t.regs, fired := t.fired, out := t.out, resp := t.resp, heads := t.heads } ∧
      (∀ m : Nat, m ≠ n.val → t.head m = s.head m) ∧ ∀ k, k ∉ ks → t.reg k = s.reg k
    let lanes := 2 ^ s.fld (F.HEAD_DP_CFG_LANES n)
    let aux (l : List Nat) (bs : List Nat) : Out := ⟨.aux, n.val :: l, bs.map (BitVec.ofNat 8)⟩
    (s.flag (F.HEAD_DP_CFG_LINK_ON n) = true → s.flag (F.HEAD_DP_CMD_TRAIN n) = false →
      ∃ t, exec (.train q n) s = .next t ∧ t.flag (F.HEAD_DP_CMD_TRAIN n) = true ∧
        t.fld (F.HEAD_DP_STATUS_TRAIN_STATE n) = 1 ∧ rest t [R.HEAD_DP_CMD n, R.HEAD_DP_STATUS n] ∧
        (s.fld (F.HEAD_DP_CFG_LANES n) = 3 → t.out = s.out ∧ (t.head n).train = some { done := some 4 }) ∧
        (s.fld (F.HEAD_DP_CFG_LANES n) ≠ 3 → (t.head n).train = some {} ∧ t.out = s.out ++
          [aux [8, 0x100, 2] [[0x06, 0x0A, 0x14, 0x1E].getD (s.fld (F.HEAD_DP_CFG_RATE n)) 0,
             lanes + s.fld (F.HEAD_DP_CFG_ENH n) * 128],
           aux [8, 0x107, 1] [s.fld (F.HEAD_DP_CFG_SSC n) * 16],
           ⟨.linkTrain, [n.val, 0x21] ++ List.replicate (2 * lanes) 0, []⟩,
           aux [8, 0x102, lanes + 1] (0x21 :: List.replicate lanes 0), aux [9, 0x202, 6] []])) ∧
    (s.flag (F.HEAD_DP_CMD_TRAIN n) = true →
      (let u := (answers.foldl (fun (s : State) bs => s.trainAnswer n (some bs)) s).trainAnswer n none
       let r := ((u.head n).train.bind (·.done)).getD 4
       ∃ t, exec (.trainEnd n answers) s = .next t ∧ t.flag (F.HEAD_DP_CMD_TRAIN n) = false ∧
        t.fld (F.HEAD_DP_STATUS_TRAIN_STATE n) = (if r = 3 ∧ ¬ s.linkFits (s.head n) n then 6 else r) % 8 ∧
        (t.head n).train = none ∧ t.fired = s.fired ++ s.pulses (Src.HEAD n 2) ∧
        rest t [R.HEAD_DP_CMD n, R.HEAD_DP_STATUS n]) ∧
      (∀ a b : List Byte, (s.head n).train = some {} → s.fld (F.HEAD_DP_CFG_LANES n) ≠ 3 →
        let lane (bs : List Byte) (i : Nat) : Nat := bits (leAt bs (i / 2) 1) (4 * (i % 2)) 4
        (∀ i < lanes, bit (lane a i) 0 = true) → (∀ i < lanes, lane b i % 8 = 7) → bit (leAt b 2 1) 0 = true →
        ∃ t, exec (.trainEnd n [a, b]) s = .next t ∧
          t.fld (F.HEAD_DP_STATUS_TRAIN_STATE n) = (if s.linkFits (s.head n) n then 3 else 6)) ∧
      (∀ x, (s.head n).train = some x → x.done = none → ∃ t, exec (.trainEnd n []) s = .next t ∧
        t.fld (F.HEAD_DP_STATUS_TRAIN_STATE n) = (if x.eq then 5 else 4))) ∧
    (s.flag (F.HEAD_AUX_CMD_GO n) = false → s.flag (F.HEAD_DP_CMD_TRAIN n) = false → ∃ t, exec (.auxGo q n v) s = .next t ∧
      t.flag (F.HEAD_AUX_CMD_GO n) = true ∧ t.reg (R.HEAD_AUX_STATUS n) = 0 ∧
      (let len := if v.toNat.testBit 1 then 0 else bits v.toNat 4 4 + 1
       t.out = s.out ++ [⟨.aux, [n, bits v.toNat 28 4, bits v.toNat 8 20, len], (s.auxData n).take len⟩]) ∧
      rest t [R.HEAD_AUX_CMD n, R.HEAD_AUX_STATUS n]) ∧
    (s.flag (F.HEAD_DP_CMD_TRAIN n) = true → ∃ t, exec (.auxGo q n v) s = .next t ∧
      t.flag (F.HEAD_AUX_CMD_GO n) = s.flag (F.HEAD_AUX_CMD_GO n) ∧ t.flag (F.HEAD_DP_STATUS_AUX_BUSY n) = true ∧
      t.out = s.out ∧ rest t [R.HEAD_AUX_CMD n, R.HEAD_DP_STATUS n]) ∧
    (s.flag (F.HEAD_AUX_CMD_GO n) = true → s.flag (F.HEAD_DP_CMD_TRAIN n) = false → ∃ t, exec (.auxGo q n v) s = .next t ∧
      t.flag (F.HEAD_AUX_CMD_GO n) = true ∧ t.out = s.out ∧ rest t [R.HEAD_AUX_CMD n]) ∧
    (s.flag (F.HEAD_AUX_CMD_GO n) = true → data.length ≤ 16 →
      (∃ t, exec (.auxReply n 0 code data) s = .next t ∧ t.flag (F.HEAD_AUX_CMD_GO n) = false ∧
        t.flag (F.HEAD_AUX_STATUS_DONE n) = true ∧ t.fld (F.HEAD_AUX_STATUS_RCOUNT n) = data.length ∧
        t.fld (F.HEAD_AUX_STATUS_REPLY n) = code.toNat ∧ (t.auxData n).take data.length = data ∧
        rest t ([R.HEAD_AUX_CMD n, R.HEAD_AUX_STATUS n] ++ (List.range 4).map (fun i => R.HEAD_AUX_DATA n i))) ∧
      (∃ t, exec (.auxReply n 1 code data) s = .next t ∧ t.flag (F.HEAD_AUX_CMD_GO n) = false ∧
        t.flag (F.HEAD_AUX_STATUS_DONE n) = true ∧ t.flag (F.HEAD_AUX_STATUS_FRAMING n) = true ∧
        rest t [R.HEAD_AUX_CMD n, R.HEAD_AUX_STATUS n]) ∧
      (∃ t, exec (.auxReply n 2 code data) s = .next t ∧ t.flag (F.HEAD_AUX_CMD_GO n) = false ∧
        t.flag (F.HEAD_AUX_STATUS_DONE n) = true ∧ t.flag (F.HEAD_AUX_STATUS_TIMEOUT n) = true ∧
        rest t [R.HEAD_AUX_CMD n, R.HEAD_AUX_STATUS n])) ∧
    (let pin := [R.HEAD_DP_STATUS n, R.GPIO_IN 7, R.GPIO_INT_STAT 7]
     let open_ : Prop := s.pinTo (232 + n) 7 = true ∧ s.padSeen (232 + n) = none
     (open_ → s.flag (F.HEAD_DP_STATUS_PLUGGED n) = true → ∃ t, exec (.hpdIrq n) s = .next t ∧
        t.flag (F.HEAD_DP_STATUS_IRQ_EVT n) = true ∧ (∀ e ∈ s.pulses (Src.HEAD n 3), e ∈ t.fired) ∧ t.out = s.out ∧
        t.pinIn (232 + n) = true ∧ rest t pin) ∧
     (open_ ∨ s.pinFunc (232 + n) ≠ 7 → s.flag (F.HEAD_DP_STATUS_PLUGGED n) = true → ∃ t,
        exec (.hpdUnplug n) s = .next t ∧ t.flag (F.HEAD_DP_STATUS_PLUGGED n) = false ∧
        t.flag (F.HEAD_DP_STATUS_UNPLUG_EVT n) = true ∧ t.fld (F.HEAD_DP_STATUS_TRAIN_STATE n) = 0 ∧
        t.out = s.out ++ [⟨.laneIdle, [n, 0], []⟩] ∧ (∀ e ∈ s.pulses (Src.HEAD n 3), e ∈ t.fired) ∧ rest t pin) ∧
     (open_ → s.flag (F.HEAD_DP_STATUS_PLUGGED n) = false → ∃ t, exec (.hpdPlug n) s = .next t ∧
        t.flag (F.HEAD_DP_STATUS_PLUGGED n) = true ∧ t.flag (F.HEAD_DP_STATUS_PLUG_EVT n) = true ∧
        (∀ e ∈ s.pulses (Src.HEAD n 3), e ∈ t.fired) ∧ t.out = s.out ∧ t.pinIn (232 + n) = true ∧ rest t pin) ∧
     (s.pinFunc (232 + n) ≠ 7 → exec (.hpdIrq n) s = .next s ∧ exec (.hpdPlug n) s = .next s))

/-- R188 to R198: the Meridian sequencer. It takes its program at a frame boundary and reads it through its prefetch buffer;
WAIT and SYNC close the group until their target or pulse, which opens the next one at the composition beam; MOVE and MOVEB
write raster-time words, or BADREG; SKIP and JUMP move on in the program; EVENT fires a channel; END, an unnamed type code
and the end of the program's words end it. After U-06 every one of its commands stops with the fault that names the head. -/
def Obligations.MeridianProgram : Prop :=
  ∀ (s : State) (n : Fin 6) (w p : Nat),
    let x := s.head n
    let cs : List Instr := [.meridianFrameStart n, .merWait n, .merWaitReached n, .merMove n, .merMoveb n, .merSkip n,
      .merJump n, .merEvent n, .merSync n, .merSyncPulse n, .merEnd n]
    (s.held = false → x.u06 = true → ∀ c ∈ cs, exec c s = .fault (.meridianUnpredictable n)) ∧
    (s.held = false → x.u06 = false → s.scanning n = true → x.merNew = true →
      (s.flag (F.HEAD_MER_CTRL_ENABLE n) = true → let sel := s.fld (F.HEAD_MER_CTRL_SEL n)
        PoolOpen s (s.engine 9 true) false (s.fld (F.HEAD_MER_PROG_OFFSET n sel) * 64) 128 →
        MerGoes (exec (.meridianFrameStart n) s) s n 0 1 [] (fun u => (u.head n).stamp = (0, 0) ∧
          (u.head n).prog = some (s.fld (F.HEAD_MER_PROG_OFFSET n sel) * 64) ∧
          (∀ i < 32, (u.head n).preAt i =
            some (some (s.num (poolBase + (s.fld (F.HEAD_MER_PROG_OFFSET n sel) * 64 + 4 * i)) 4))) ∧
          u.fld (F.HEAD_MER_STATUS_ACTIVE_SEL n) = sel)) ∧
      (s.flag (F.HEAD_MER_CTRL_ENABLE n) = false →
        MerGoes (exec (.meridianFrameStart n) s) s n 0 0 [] (fun u => (u.head n).prog = none))) ∧
    (MerRuns s n 1 w p → let t := s.merTarget n w
      (s.vActive n ≤ t.1 → MerGoes (exec (.merWait n) s) s n (x.pc + 1) 2 [] (fun u => (u.head n).target = x.target)) ∧
      (before x.stamp t = true → t.1 < s.vActive n →
        MerGoes (exec (.merWait n) s) s n (x.pc + 1) 2 [] (fun u => (u.head n).target = some t)) ∧
      (before x.stamp t = false → t.1 < s.vActive n → MerGoes (exec (.merWait n) s) s n (x.pc + 1) 1 []
        (fun u => before t x.stamp = true → u.flag (F.HEAD_MER_STATUS_LATE n) = true))) ∧
    (∀ t, s.held = false → x.u06 = false → s.scanning n = true → s.merState n = 2 → x.target = some t →
      (s.passLate n).compBeam n = t →
      MerGoes (exec (.merWaitReached n) s) s n x.pc 1 [] (fun u => (u.head n).stamp = t ∧ (u.head n).target = none)) ∧
    (MerRuns s n 2 w p → bits w 5 11 < 1024 → let r := R.HEAD_PAL n (bits w 5 11)
      MerGoes (exec (.merMove n) s) s n (x.pc + 1) 1 [r] (fun u =>
        u.reg r = putBits (s.reg r) (if w.testBit 4 then 16 else 0) 16 (bits w 16 16))) ∧
    (MerRuns s n 2 w p → 1087 < bits w 5 11 → MerGoes (exec (.merMove n) s) s n (x.pc + 1) 1 [] (fun u =>
      u.flag (F.HEAD_MER_STATUS_BADREG n) = true ∧ u.fired = s.fired ++ s.pulses (Src.HEAD n 6))) ∧
    (MerRuns s n 3 w p → let c := bits w 24 8 + 1
      bits w 5 11 + c ≤ 1024 → x.pc + c ≤ 4095 → x.words + 1 + c < 256 →
      (∀ i < c, s.merAhead n p (x.pc + 1 + i) ≠ none) →
      MerGoes (exec (.merMoveb n) s) s n (x.pc + 1 + c) 1 ((List.range c).map (fun i => R.HEAD_PAL n (bits w 5 11 + i)))
        (fun u => ∀ i < c, ∀ y, s.merAhead n p (x.pc + 1 + i) = some y →
          u.reg (R.HEAD_PAL n (bits w 5 11 + i)) % 2 ^ 32 = y % 2 ^ 32)) ∧
    (∀ y, MerRuns s n 4 w p → x.pc + 1 ≤ 4095 → s.merAhead n p (x.pc + 1) = some y →
      let skips : Bool := !before x.stamp (s.merTarget n w) != w.testBit 6
      MerGoes (exec (.merSkip n) s) s n
        (if skips then (if y % 16 = 3 then x.pc + 3 + bits y 24 8 else x.pc + 2) else x.pc + 1) 1 [] (fun _ => True)) ∧
    (MerRuns s n 5 w p → MerGoes (exec (.merJump n) s) s n (bits w 4 12) 1 [] (fun _ => True)) ∧
    (MerRuns s n 6 w p → ∃ u, exec (.merEvent n) s = .next u ∧ (u.head n).pc = x.pc + 1 ∧ u.merState n = 1 ∧
      (let t := s.directFire (s.engine 9 true) (bits w 8 8)
       u.fired = t.fired ∧ u.brz = t.brz ∧ u.mem = s.mem ∧ ∀ k, k ≠ R.HEAD_MER_STATUS n → u.reg k = t.reg k)) ∧
    (MerRuns s n 7 w p → MerGoes (exec (.merSync n) s) s n (x.pc + 1) 2 [] (fun u => (u.head n).sync = some (bits w 8 8))) ∧
    (∀ c, s.held = false → x.u06 = false → s.scanning n = true → s.merState n = 2 → x.sync = some c → x.pulse = true →
      MerGoes (exec (.merSyncPulse n) s) s n x.pc 1 [] (fun u =>
        (u.head n).stamp = (s.passLate n).compBeam n ∧ (u.head n).sync = none)) ∧
    (MerRuns s n 15 w p → MerGoes (exec (.merEnd n) s) s n (x.pc + 1) 3 [] (fun u => u.fired = s.fired)) ∧
    (s.held = false → x.u06 = false → s.scanning n = true → s.merState n = 1 →
      (4095 < x.pc → MerGoes (exec (.merEnd n) s) s n x.pc 3 [] (fun u => u.fired = s.fired)) ∧
      (x.pc ≤ 4095 → x.preAt x.pc = some none → MerGoes (exec (.merEnd n) s) s n x.pc 3 [] (fun u =>
        u.flag (F.HEAD_MER_STATUS_FETCH_ERR n) = true ∧ u.fired = s.fired ++ s.pulses (Src.HEAD n 6)))) ∧
    (∀ ty, MerRuns s n ty w p → ty = 0 ∨ (8 ≤ ty ∧ ty ≤ 14) → MerGoes (exec (.merEnd n) s) s n (x.pc + 1) 3 []
      (fun u => u.flag (F.HEAD_MER_STATUS_BADOP n) = true ∧ u.fired = s.fired ++ s.pulses (Src.HEAD n 6)))

/-- R200 to R205, R217: composed lines. When the line is in time and its turn has come, the composer produces its pixels
up to its end where Meridian does not hold it; a complete line is stored in the frame store before its cut-off, enters the
queue of a capture that has room, and the next one begins; a line not committed at its cut-off is late, counted and
discarded. -/
def Obligations.ComposedLines : Prop :=
  ∀ (s : State) (n : Fin 6) (drained : Nat), s.scanning n = true → s.domOn 118 = true →
    let x := s.head n
    let fmt := x.afld (F.HEAD_FS_FORMAT n)
    let bs := x.buf.flatMap (fun p => (p.store fmt).bytes fmt)
    let o := x.afld (F.HEAD_FS_FIRST_BANK n) * bankSize + x.cLine * x.afld (F.HEAD_FS_STRIDE n)
    x.comp = true → x.merNew = false → x.wbNew = none → x.u06 = false →
    (x.cLine < s.vActive n → x.lateTo ≤ x.cLine → s.now < s.cutOff n x.cLine →
      let turn := s.composeTurn n x.cLine (max s.now (s.lineFrom n x.cLine))
      (turn = false → exec (.lineCompose n) s = .next s) ∧
      (turn = true → s.merState n ≠ 1 → s.merState n ≠ 2 → x.cPix < s.hActive n →
        ∃ u, exec (.lineCompose n) s = .next u ∧ (u.head n).cPix = s.hActive n ∧ (u.head n).cLine = x.cLine ∧
          (u.head n).buf.length = (if x.ls = [] then 0 else x.buf.length) + (s.hActive n - x.cPix) ∧
          s.lineFrom n x.cLine ≤ u.now ∧ u.mem = s.mem ∧ u.threads = s.threads)) ∧
    (x.cLine < s.vActive n → x.lateTo ≤ x.cLine → s.hActive n ≤ x.cPix → s.now < s.cutOff n x.cLine →
      1 ≤ bs.length → bs.length < bankSize → PoolOpen s (s.engine 9 true) true o bs.length →
      (x.cap = none → ∃ u, exec (.lineCommit n drained) s = .next u ∧ u.bytes (poolBase + o) bs.length = bs ∧
        (∀ a, ¬ (poolBase + o ≤ a ∧ a < poolBase + o + bs.length) → u.byte a = s.byte a) ∧
        (u.head n).cLine = x.cLine + 1 ∧ (u.head n).cPix = 0 ∧ (u.head n).buf = [] ∧ u.regs = s.regs ∧
        u.threads = s.threads) ∧
      (∀ c, x.cap = some c → c.frame = x.cFrame → c.failed = false → c.ended = false →
        (s.ringSt (.wb n)).tainted = [] →
        (∀ e ∈ (s.ringSt (.wb n)).watch, meets (poolBase + o) bs.length e.2.1 e.2.2 = false) →
        ∃ u, exec (.lineCommit n 0) s = .next u ∧
          (c.queue.length < 8 → (u.head n).cap = some { c with queue := c.queue ++
            [(x.cLine, x.buf.flatMap (fun p => (p.store c.fmt).bytes c.fmt))] } ∧ u.regs = s.regs) ∧
          (8 ≤ c.queue.length → (u.head n).cap = some { c with dropped := c.dropped + 1 } ∧
            u.flag (F.CMP_HEAD_STATUS_WB_DROP n) = true))) ∧
    (max x.cLine x.lateTo < s.vActive n → ∃ u, exec (.lineLate n) s = .next u ∧
      s.cutOff n (max x.cLine x.lateTo) ≤ u.now ∧
      (u.head n).lateTo = max x.cLine x.lateTo + 1 ∧ (u.head n).late = x.late ++ [max x.cLine x.lateTo] ∧
      u.fld (cnt32 (R.CMP_LATE_LINES n)) = satU 32 (s.fld (cnt32 (R.CMP_LATE_LINES n)) + 1) ∧
      u.flag (F.CMP_HEAD_STATUS_LATE n) = true ∧ u.mem = s.mem ∧ u.threads = s.threads)

/-- R210 to R218: the flatten cache and write-back. FC_EN takes a set-up whose banks exist and belong to code 9, or sets
CFG_ERR; writing 0 invalidates every tile. While no head has a line due, the next INVALID tile is EMPTY where no static
source is on, and FULL is set where no slot is free; otherwise no tile is flattened. A frame that qualified at its boundary
takes its descriptor, or is counted as skipped; at a capture's end the completion record says how it went. -/
def Obligations.FlattenAndWriteBack : Prop :=
  ∀ (s : State) (q : Req) (n : Fin 6) (v : BitVec 32), s.domOn 118 = true →
    (s.flag F.CMP_FC_CFG_FC_EN = true → s.flatCands = [] → exec .flattenTile s = .next s) ∧
    ((∃ m < 6, s.lineDue m s.now ≠ none) → exec .flattenTile s = .next s) ∧
    (∀ c, (∀ m < 6, s.lineDue m s.now = none) → s.flag F.CMP_FC_CFG_FC_EN = true → s.flatCands.find? (fun c => decide (s.cmp.fcNext ≤ c)) = some c →
      ((s.head (c / 4096)).staticOn (c / 4096) = false → ∃ u, exec .flattenTile s = .next u ∧
        AMap.get (u.head (c / 4096)).tiles (c % 4096) 0 = 1 ∧ u.cmp.fcNext = c + 1 ∧
        u = { s with heads := u.heads, cmp := u.cmp }) ∧
      ((s.head (c / 4096)).staticOn (c / 4096) = true → s.freeSlot = none → ∃ u, exec .flattenTile s = .next u ∧
        u.flag F.CMP_FC_STATUS_FULL = true ∧ u = { s with regs := u.regs, cmp := u.cmp } ∧
        ∀ k, k ≠ R.CMP_FC_STATUS → u.reg k = s.reg k)) ∧
    (let f := bits v.toNat 0 9
     let c := bits v.toNat 16 8
     let ok : Prop := 1 ≤ c ∧ c ≤ 128 ∧ f + c ≤ 288 ∧ ∀ i < c, bits (s.ownInForce (f + i)) 0 4 = 9
     s.flag F.CMP_FC_CFG_FC_EN = false → v.toNat.testBit 31 = true → ∃ u, exec (.fcEn q v) s = .next u ∧
      (ok → u.flag F.CMP_FC_CFG_FC_EN = true ∧ u.fld F.CMP_FC_CFG_FIRST_BANK = f ∧ u.fld F.CMP_FC_CFG_BANK_COUNT = c ∧
        u.flag F.CMP_FC_STATUS_CFG_ERR = false) ∧
      (¬ ok → u.flag F.CMP_FC_CFG_FC_EN = false ∧ u.flag F.CMP_FC_STATUS_CFG_ERR = true) ∧
      u = { s with regs := u.regs, cmp := u.cmp, resp := u.resp } ∧
      ∀ k, k ≠ R.CMP_FC_CFG → k ≠ R.CMP_FC_STATUS → u.reg k = s.reg k) ∧
    (v.toNat.testBit 31 = false → ∃ u, exec (.fcEn q v) s = .next u ∧ u.flag F.CMP_FC_CFG_FC_EN = false ∧
      (∀ m, (u.head m).tiles = []) ∧ u.mem = s.mem ∧ u.threads = s.threads ∧ ∀ k, k ≠ R.CMP_FC_CFG → u.reg k = s.reg k) ∧
    (let x := s.head n
     let r := Ring.wb n
     ∀ o c, s.scanning n = true → x.wbNew = some true → s.ringReady r = true →
      s.slotAddr r (s.fld r.cons) = poolBase + o → PoolOpen s (s.ringReq r) false o 32 →
      c = { addr := s.num (poolBase + o) 8, pitch := s.num (poolBase + o + 8) 4, fmt := s.num (poolBase + o + 12) 4 % 2,
            tag := s.num (poolBase + o + 16) 4, frame := x.cFrame : Capture } → x.wbBad n c = false →
      ∃ u, exec (.wbCaptureStart n) s = .next u ∧ (u.head n).cap = some c ∧ u.flag (F.CMP_WB_CFG_BUSY n) = true ∧
        u.mem = s.mem ∧ u.threads = s.threads ∧ ∀ k, k ≠ R.CMP_WB_CFG n → u.reg k = s.reg k) ∧
    (s.scanning n = true → (s.head n).wbNew = some false → ∃ u, exec (.wbCaptureStart n) s = .next u ∧
      (u.head n).wbNew = none ∧ u.fld (cnt32 (R.CMP_WB_SKIP n)) = satU 32 (s.fld (cnt32 (R.CMP_WB_SKIP n)) + 1) ∧
      u = { s with regs := u.regs, heads := u.heads } ∧ ∀ k, k ≠ R.CMP_WB_SKIP n → u.reg k = s.reg k) ∧
    (let x := s.head n
     ∀ c, x.cap = some c → c.queue = [] → (s.ringSt (.wb n)).tainted = [] →
      c.frame ≠ x.cFrame ∨ s.vActive n ≤ max x.cLine x.lateTo ∨ c.ended = true ∨ c.failed = true →
      ∃ u, exec (.wbComplete n) s = .next u ∧ (u.head n).cap = none ∧ u.flag (F.CMP_WB_CFG_BUSY n) = false ∧
        (∃ r, u.lull.offers = s.lull.offers ++ [r] ∧ r.kind = 1 ∧ r.unit = 4 ∧ r.index = n.val ∧ r.w1 = c.tag ∧
          r.w2 = c.frame ∧ r.w3 = c.late % 65536 + c.dropped % 65536 * 65536 ∧
          r.status = (if c.stopped then 4 else if c.failed then 2 else if c.late + c.dropped ≠ 0 then 1 else 0)) ∧
        u.mem = s.mem ∧ u.threads = s.threads ∧ ∀ k, k ≠ R.CMP_WB_CFG n → u.reg k = s.reg k)

/-- R221 to R225: Starfix. After a region's last pixel its CRC is written; a fixed region that differs from EXPECT sets its
MISMATCH bit, counts and fires HEAD_STARFIX; LEARN arms regions; after the last active pixel the alarm CRC is compared with
the expected one, unless a line of the frame was late. -/
def Obligations.StarfixChecks : Prop :=
  ∀ (s : State) (q : Req) (n : Fin 6) (r : Fin 16) (v : BitVec 32), s.held = false →
    let x := s.head n
    (s.scanning n = true → x.sfOn n r = true → r.val ∉ x.checked → x.afld (F.HEAD_SF_WIN_Y_X_END n r) ≤ x.fetch →
      s.sfLearns n r = true → let c := Nat.xor (AMap.get x.crc r crcStart) 0xFFFFFFFF % 2 ^ 64
      ∃ u, exec (.regionCheck n r) s = .next u ∧ u.reg (R.HEAD_SF_CRC n r) = c ∧ u.reg (R.HEAD_SF_EXPECT n r) = c ∧
        (u.head n).areg (R.HEAD_SF_EXPECT n r) = c ∧ (u.fld (F.HEAD_SF_LEARN_LEARN n)).testBit r = false ∧
        r.val ∈ (u.head n).checked ∧ u.fired = s.fired ∧ u.mem = s.mem ∧ u.threads = s.threads) ∧
    (s.scanning n = true → x.sfOn n r = true → r.val ∉ x.checked → x.afld (F.HEAD_SF_WIN_Y_X_END n r) ≤ x.fetch →
      s.sfLearns n r = false → x.sfMode n r = 1 →
      let c := Nat.xor (AMap.get x.crc r crcStart) 0xFFFFFFFF
      ∃ u, exec (.regionCheck n r) s = .next u ∧ u.reg (R.HEAD_SF_CRC n r) = c % 2 ^ 64 ∧ r.val ∈ (u.head n).checked ∧
        (c = x.areg (R.HEAD_SF_EXPECT n r) → u.reg (R.HEAD_SF_STATUS n) = s.reg (R.HEAD_SF_STATUS n) ∧
          u.reg (R.HEAD_SF_EVENT_COUNT n) = s.reg (R.HEAD_SF_EVENT_COUNT n)) ∧
        (c ≠ x.areg (R.HEAD_SF_EXPECT n r) → (u.fld (F.HEAD_SF_STATUS_MISMATCH n)).testBit r = true ∧
          u.fld (cnt32 (R.HEAD_SF_EVENT_COUNT n)) = satU 32 (s.fld (cnt32 (R.HEAD_SF_EVENT_COUNT n)) + 1) ∧
          ∀ e ∈ s.pulses (Src.HEAD n 8), e ∈ u.fired) ∧ u.mem = s.mem ∧ u.threads = s.threads) ∧
    (s.headOn n = true → ∃ u, exec (.learn q n v) s = .next u ∧
      (∀ i < 16, (u.fld (F.HEAD_SF_LEARN_LEARN n)).testBit i =
        ((s.fld (F.HEAD_SF_LEARN_LEARN n)).testBit i || v.toNat.testBit i)) ∧
      (∀ i < 16, (s.fld (F.HEAD_SF_LEARN_LEARN n)).testBit i = false → v.toNat.testBit i = true →
        AMap.get (u.head n).learn i 0 = s.now) ∧
      u = { s with regs := u.regs, resp := u.resp, heads := u.heads } ∧
      ∀ k, k ≠ R.HEAD_SF_LEARN n → u.reg k = s.reg k) ∧
    (s.scanning n = true → x.alDone = false → s.vActive n ≤ x.fetch →
      let a := Nat.xor x.alCrc 0xFFFFFFFF
      let b := Nat.xor x.alExp 0xFFFFFFFF
      ∃ u, exec (.alarmCheck n) s = .next u ∧ (u.head n).alDone = true ∧ u.reg (R.HEAD_SF_AL_CRC n) = a % 2 ^ 64 ∧
        u.reg (R.HEAD_SF_AL_EXP n) = b % 2 ^ 64 ∧
        (x.late = [] → u.flag (F.HEAD_SF_AL_STATUS_AL_CHECKED n) = true ∧
          (a ≠ b → u.flag (F.HEAD_SF_AL_STATUS_AL_MISMATCH n) = true ∧ ∀ e ∈ s.pulses (Src.HEAD n 8), e ∈ u.fired)) ∧
        (x.late ≠ [] → u.flag (F.HEAD_SF_AL_STATUS_AL_CHECKED n) = false ∧
          u.flag (F.HEAD_SF_AL_STATUS_AL_STALE n) = true) ∧ u.mem = s.mem ∧ u.threads = s.threads)

/-- R227 to R239: the block engine. It starts the list of the ring whose turn it is, with status 5 where the descriptor is
bad; NOP changes no memory; COPY, FILL, BLEND, EXPAND and CONVERT give every destination pixel its value and change nothing
else; a list that has ended offers its completion record; CANCEL ends the running list with status 4. -/
def Obligations.BlockEngine : Prop :=
  ∀ (s : State) (q : Req) (n : Fin 4) (v : BitVec 32),
    (∀ o, s.held = false → s.sqlTurn = some n.val → s.sqlList n = none →
      s.slotAddr (.sql n) (s.fld (F.SQL_RING_CONS_CONS_IDX n)) = poolBase + o → PoolOpen s (s.ringReq (.sql n)) false o 32 →
      let a := poolBase + o
      ∃ u l, exec .squallListStart s = .next u ∧ u.sqlList n = some l ∧ l.addr = s.num a 8 ∧ l.count = s.num (a + 8) 4 ∧
        l.tag = s.num (a + 12) 4 ∧ l.next = 0 ∧
        l.code = (if l.addr % 64 ≠ 0 ∨ l.count = 0 ∨ 65535 < l.count then some 5 else none) ∧
        u.flag (F.SQL_RING_CFG_BUSY n) = true ∧ (∀ k, k ≠ R.SQL_RING_CFG n → u.reg k = s.reg k) ∧ u.mem = s.mem ∧
        u.threads = s.threads) ∧
    (∀ l c, SqlDue s n l c → c.op = 0 → ∃ u, exec .sqlNop s = .next u ∧ u.mem = s.mem ∧ u.threads = s.threads ∧
      u.sqlList n = some { l with next := l.next + 1, code := if l.next + 1 = l.count then some 0 else none } ∧
      ∀ k, k ≠ R.SQL_STATUS → u.reg k = s.reg k) ∧
    (∀ l c, SqlDue s n l c → SqlClear s n c →
      (c.op = 1 → Draws (exec .sqlCopy s) s n l c) ∧ (c.op = 2 → Draws (exec .sqlFill s) s n l c) ∧
      (c.op = 3 → Draws (exec .sqlBlend s) s n l c) ∧ (c.op = 4 → Draws (exec .sqlExpand s) s n l c) ∧
      (c.op = 5 → Draws (exec .sqlConvert s) s n l c)) ∧
    (∀ l k, s.held = false → s.sqlList n = some l → l.code = some k → (∀ m < n.val, s.sqlList m = none) →
      (s.ringSt (.sql n)).tainted = [] →
      let i := if k = 0 then l.count else l.next
      ∃ u, exec .squallListEnd s = .next u ∧ u.sqlList n = none ∧ u.flag (F.SQL_RING_CFG_BUSY n) = false ∧
        (∃ r, u.lull.offers = s.lull.offers ++ [r] ∧ r.kind = 1 ∧ r.status = k ∧ r.unit = 3 ∧ r.index = n.val ∧ r.w1 = l.tag ∧
          r.w2 = l.next % 65536 + i % 65536 * 65536 ∧ r.queue = s.fld (F.SQL_RING_CFG_QUEUE n)) ∧
        (k ≠ 0 → k ≠ 4 → u.flag F.SQL_STATUS_ERR = true ∧ (∀ e ∈ s.pulses Src.SQL_ERR, e ∈ u.fired)) ∧
        u.mem = s.mem ∧ u.threads = s.threads ∧
        ∀ j, j ≠ R.SQL_RING_CFG n → j ≠ R.SQL_STATUS → j ≠ R.SQL_ERR_INFO → u.reg j = s.reg j) ∧
    (∀ l, s.blockOn 0x0B = true → s.sqlList n = some l → l.code = none → s.flag (F.SQL_RING_CFG_CANCEL n) = false →
      s.ringHeld (.sql n) = 1 → s.heldCount (.sql n) = 0 → (s.ringSt (.sql n)).tainted = [] →
      4 ≤ bits v.toNat 4 4 → bits v.toNat 4 4 ≤ 12 → v.toNat.testBit 0 = true → s.flag (F.SQL_RING_CFG_ENABLE n) = true →
      ∃ u, exec (.squallCancel q n v) s = .next u ∧ u.sqlList n = none ∧ u.flag (F.SQL_RING_CFG_CANCEL n) = true ∧
        (∃ r, u.lull.offers = s.lull.offers ++ [r] ∧ r.status = 4 ∧ r.w1 = l.tag) ∧ u.mem = s.mem ∧ u.threads = s.threads)

/-! ### Gust, pins, Breeze, timers -/

/-- R311, R313 to R315, R322: SHIFT and DRIVE at their issue. DRIVE writes COUNT_M1 + 1 positions of OUT_VAL or OUT_EN.
SHIFT out sends n bits of the frame to its target and counts them down, from a TX word that it pops when a fed register is
empty, and stalls without one; SHIFT in takes n bits, each pin bit into LINE_CRC too, and pushes a frame that is full when
the register is drained, and stalls without a free slot. The side-drive of every issue stands over what the instruction
drives. -/
def Obligations.GustPinInstructions : Prop :=
  ∀ (s : State) (e : Fin 64) (w : Nat), GstIssues s e w → gstLegal w = true →
    let x := s.eng e
    let ov (p : Nat) : Bool := bit (s.reg (R.GST_ENG_OUTV e)) p
    let oe (p : Nat) : Bool := bit (s.reg (R.GST_ENG_OUTE e)) p
    let st := (s.gstAdvance e).reg (R.GST_ENG_STATUS e)
    let same (u : State) : Prop := u.brz = s.brz ∧ u.fired = s.fired
    (bits w 28 4 = 2 → let at_ (p : Nat) : Prop := bits w 13 5 ≤ p ∧ p < bits w 13 5 + bits w 8 3 + 1
      ∃ u, exec (.gstDrive e) s = .next u ∧ same u ∧ GstDid s u e w x true none
        (fun p => if bit w 18 = false ∧ at_ p then bit w (p - bits w 13 5) else ov p)
        (fun p => if bit w 18 = true ∧ at_ p then bit w (p - bits w 13 5) else oe p) st []) ∧
    (bits w 28 4 = 1 → let r := bits w 16 1
      let n := or32 (bits w 0 5)
      let msb := bit w 17
      let tgt := bits w 13 3
      (bit w 18 = true → s.gstLink e r = 1 → (x.sr r).2 = 0 → x.txf = [] → ∃ u, exec (.gstShift e) s = .next u ∧ same u ∧
        GstDid s u e w x false none ov oe st []) ∧
      (∀ v c y, bit w 18 = true → (¬ (s.gstLink e r = 1 ∧ (x.sr r).2 = 0) ∧ (v, c) = x.sr r ∧ y = x) ∨
          (s.gstLink e r = 1 ∧ (x.sr r).2 = 0 ∧ x.txf = v :: y.txf ∧ c = s.gstLen e r ∧ y = { x with txf := y.txf }) →
        let d (j : Nat) : Bool := if msb then decide (n ≤ c + j) && bit v (c + j - n) else bit v j
        let pos := s.fld (F.GST_ENG_WIN_OUT_POS e)
        let takes (u : State) (k : Nat) : Prop := u.reg k < 2 ^ n ∧ ∀ j < n, bit (u.reg k) j = d j
        ∃ u, exec (.gstShift e) s = .next u ∧ same u ∧
          GstDid s u e w (y.setSr r (if msb then v else v / 2 ^ n) (c - n)) true none
            (fun p => if tgt = 0 ∧ pos ≤ p ∧ p < pos + n then d (p - pos) else ov p)
            (fun p => if tgt = 1 ∧ pos ≤ p ∧ p < pos + n then d (p - pos) else oe p) st [R.GST_ENG_X e, R.GST_ENG_Y e] ∧
          (if tgt = 2 then takes u (R.GST_ENG_X e) else u.reg (R.GST_ENG_X e) = s.reg (R.GST_ENG_X e)) ∧
          (if tgt = 3 then takes u (R.GST_ENG_Y e) else u.reg (R.GST_ENG_Y e) = s.reg (R.GST_ENG_Y e))) ∧
      (bit w 18 = false → let v := (x.sr r).1
        let c := (x.sr r).2
        let c' := min (c + n) 32
        let push : Prop := s.gstLink e r = 2 ∧ s.gstLen e r ≤ c'
        let pin (i : Nat) : Bool := s.gstIn e (s.fld (F.GST_ENG_WIN_IN_POS e) + i)
        let d (j : Nat) : Bool := match tgt with
          | 0 => pin j
          | 2 => bit (s.reg (R.GST_ENG_X e)) j
          | 3 => bit (s.reg (R.GST_ENG_Y e)) j
          | _ => false
        let line := if msb then (List.range n).reverse else List.range n
        let y := { x with crc := if tgt = 0 then (line.map pin).foldl crc16Bit x.crc else x.crc }
        (push → 8 ≤ x.rxf.length → ∃ u, exec (.gstShift e) s = .next u ∧ same u ∧ GstDid s u e w x false none ov oe st []) ∧
        (v < 2 ^ 32 → c ≤ 32 → ¬ (push ∧ 8 ≤ x.rxf.length) → ∃ u v', exec (.gstShift e) s = .next u ∧ same u ∧ v' < 2 ^ 32 ∧
          (∀ j < 32, bit v' j = if msb then (if j < n then d j else bit v (j - n))
            else if c ≤ j ∧ j < c + n then d (j - c) else bit v j) ∧
          (push → GstDid s u e w ({ y with rxf := x.rxf ++ [v'] }.setSr r 0 0) true none ov oe st []) ∧
          (¬ push → GstDid s u e w (y.setSr r v' c') true none ov oe st []))))

/-- R308 to R312, R316, R318: the steps and the flow of a Gust program. PC advances to TARGET after a BRANCH taken, to
WRAP_BOTTOM from WRAP_TOP with one more LOOPS, else to PC + 1; a step in a delay counts it down. AWAIT, BRANCH, COUNT and
SIGNAL do at their issue what their tables say; a stalled AWAIT completes once it can. An illegal word halts its engine. -/
def Obligations.GustFlow : Prop :=
  ∀ (s : State) (e : Fin 64) (w : Nat),
    let x := s.eng e
    let a := s.gstAdvance e
    let pc := s.fld (F.GST_ENG_STATUS_PC e)
    let kx := R.GST_ENG_X e
    let ky := R.GST_ENG_Y e
    let cx := s.reg kx
    let cy := s.reg ky
    let ov (p : Nat) : Bool := bit (s.reg (R.GST_ENG_OUTV e)) p
    let oe (p : Nat) : Bool := bit (s.reg (R.GST_ENG_OUTE e)) p
    let st := a.reg (R.GST_ENG_STATUS e)
    let same (u : State) : Prop := u.brz = s.brz ∧ u.fired = s.fired
    let minus (v : Nat) : Nat := (v + 2 ^ 32 - 1) % 2 ^ 32
    (x.done = false → a = s) ∧
    (x.done = true → (∀ t, x.taken = some t → a.fld (F.GST_ENG_STATUS_PC e) = t % 64 ∧
        a.reg (R.GST_ENG_LOOPS e) = s.reg (R.GST_ENG_LOOPS e)) ∧
      (x.taken = none → pc = s.fld (F.GST_ENG_PC_WRAP_TOP e) →
        a.fld (F.GST_ENG_STATUS_PC e) = s.fld (F.GST_ENG_PC_WRAP_BOTTOM e) ∧
        a.fld (F.GST_ENG_LOOPS_LOOPS e) = (s.fld (F.GST_ENG_LOOPS_LOOPS e) + 1) % 2 ^ 16) ∧
      (x.taken = none → pc ≠ s.fld (F.GST_ENG_PC_WRAP_TOP e) → a.fld (F.GST_ENG_STATUS_PC e) = (pc + 1) % 64 ∧
        a.reg (R.GST_ENG_LOOPS e) = s.reg (R.GST_ENG_LOOPS e)) ∧
      ∀ k, k ≠ R.GST_ENG_STATUS e → k ≠ R.GST_ENG_LOOPS e → a.reg k = s.reg k) ∧
    (s.gstRuns e = false → exec (.gstStep e) s = .next s) ∧
    (s.held = false → s.calm → s.gstRuns e = true → x.next ≤ s.now → x.delay ≠ 0 → s.gstBeyond e = false →
      s.flag (F.GST_ENG_CTRL_RESTART e) = false → s.flag (F.GST_ENG_CTRL_DIV_RESTART e) = false →
      let n := s.fld (F.GST_ENG_DIV_DIV_INT e)
      ∃ u, exec (.gstStep e) s = .next u ∧ u = { s with regs := u.regs, gst := u.gst } ∧
        u.eng e = { x with delay := x.delay - 1, k := (x.k + 1) % 256, stepAt := some s.now, put := 0,
                           next := x.next + (if n = 0 then 65536 else n) +
                             (if reverseBits 8 x.k < s.fld (F.GST_ENG_DIV_DIV_FRAC e) then 1 else 0) } ∧
        ∀ k, k ≠ R.GST_ENG_STATUS e → u.reg k = s.reg k) ∧
    (GstIssues s e w → gstLegal w = false → ∃ u, exec (.gstIllegal e) s = .next u ∧ exec (.gstStep e) s = .next u ∧
      u.flag (F.GST_ENG_CTRL_ENABLE e) = false ∧ u.fld (F.GST_ENG_STATUS_STATE e) = 4 ∧
      u.flag (F.GST_ENG_STATUS_ILLEGAL e) = true ∧ u.fld (F.GST_ENG_STATUS_PC e) = a.fld (F.GST_ENG_STATUS_PC e) ∧
      u.fired = s.fired ++ s.pulses Src.GST_FAULT ∧ u = { s with regs := u.regs, gst := u.gst, fired := u.fired } ∧
      ∀ k, k ≠ R.GST_ENG_CTRL e → k ≠ R.GST_ENG_STATUS e → u.reg k = a.reg k) ∧
    (GstIssues s e w → gstLegal w = true →
      (bits w 28 4 = 1 → exec (.gstStep e) s = exec (.gstShift e) s) ∧
      (bits w 28 4 = 2 → exec (.gstStep e) s = exec (.gstDrive e) s) ∧
      (bits w 28 4 = 3 → exec (.gstStep e) s = exec (.gstAwait e) s) ∧
      (bits w 28 4 = 4 → exec (.gstStep e) s = exec (.gstBranch e) s) ∧
      (bits w 28 4 = 5 → exec (.gstStep e) s = exec (.gstCount e) s) ∧
      (bits w 28 4 = 6 → exec (.gstStep e) s = exec (.gstXfer e) s) ∧
      (bits w 28 4 = 7 → exec (.gstStep e) s = exec (.gstSignal e) s) ∧
      (bits w 28 4 = 8 → exec (.gstStep e) s = exec (.gstStamp e) s) ∧
      (bits w 28 4 = 9 → exec (.gstStep e) s = exec (.gstCheck e) s) ∧
      (bits w 28 4 = 3 → bits w 17 2 = 0 → ∃ u, exec (.gstAwait e) s = .next u ∧ same u ∧
        GstDid s u e w x (s.gstIn e (bits w 8 5) == bit w 16) none ov oe st []) ∧
      (bits w 28 4 = 3 → bits w 17 2 = 1 → let c := bits w 8 8
        let seen := if c ∈ s.here ∧ (s.gstS (e / 4) || !s.chS c) = true then some s.now else none
        ∃ u, exec (.gstAwait e) s = .next u ∧ same u ∧
        GstDid s u e w { x with pulse := seen } false none ov oe st []) ∧
      (bits w 28 4 = 3 → bits w 17 2 = 2 → let k := if bit w 8 then ky else kx
        ∃ u, exec (.gstAwait e) s = .next u ∧ same u ∧ GstDid s u e w x (decide (s.reg k = 0)) none ov oe st [k] ∧
          u.reg k = s.reg k - 1) ∧
      (bits w 28 4 = 4 → let hit : Prop := match bits w 15 4 with
          | 0 => True
          | 1 => cx = 0
          | 2 => cx ≠ 0
          | 3 => cy = 0
          | 4 => cy ≠ 0
          | 5 => cx = cy
          | 6 => cx ≠ cy
          | 7 => s.gstIn e (bits w 8 5) = true
          | 8 => s.gstIn e (bits w 8 5) = false
          | 9 => x.txf = []
          | 10 => 8 ≤ x.rxf.length
          | 11 => x.ca = 0
          | _ => s.gstLen e 1 ≤ x.cb
        ∃ u, exec (.gstBranch e) s = .next u ∧ same u ∧
          (hit → GstDid s u e w x true (some (bits w 0 6)) ov oe st [kx, ky]) ∧
          (¬ hit → GstDid s u e w x true none ov oe st [kx, ky]) ∧
          u.reg kx = (if bits w 13 2 = 1 then minus cx else cx) ∧ u.reg ky = (if bits w 13 2 = 2 then minus cy else cy)) ∧
      (bits w 28 4 = 5 → let k := if bit w 18 then ky else kx
        ∃ u, exec (.gstCount e) s = .next u ∧ same u ∧ GstDid s u e w x true none ov oe st [k] ∧
          u.reg k = match bits w 16 2 with
            | 0 => bits w 0 16
            | 1 => minus (s.reg k)
            | 2 => s.reg k % 2 ^ 16 + bits w 0 16 * 2 ^ 16
            | _ => if bit w 18 then cx else cy) ∧
      (bits w 28 4 = 7 → let c := bits w 0 8
        let q := s.engine 12 (s.gstS (e / 4))
        let fired := { s.ch c with at_ := some s.now, srcs := [0], went := true }
        let held := s.flag (F.BRZ_CH_STATUS_HELD c)
        let open_ : Prop := ∀ l, (s.ch c).last = some l → l + s.spacing c ≤ s.now + 2
        ∃ u, exec (.gstSignal e) s = .next u ∧
          (s.mayFire q c = true → GstDid s u e w x true none ov oe st [R.BRZ_CH_STATUS c] ∧ u.fired = s.fired ∧
            ((s.ch c).at_ ≠ some s.now → held = false → open_ →
              u.ch c = { fired with due := (s.ch c).due ++ [s.now + 2], last := some (s.now + 2) }) ∧
            ((s.ch c).at_ ≠ some s.now → held = false → ¬ open_ → u.flag (F.BRZ_CH_STATUS_HELD c) = true) ∧
            ((s.ch c).at_ = some s.now → u.flag (F.BRZ_CH_STATUS_COINCIDENT c) = true)) ∧
          (s.mayFire q c = false → GstDid s u e w x true none ov oe st [R.BRZ_VIOL_COUNT] ∧ u.brz = s.brz ∧
            u.fld (cnt32 R.BRZ_VIOL_COUNT) = satU 32 (s.fld (cnt32 R.BRZ_VIOL_COUNT) + 1) ∧
            u.fired = s.fired ++ s.pulses Src.BRZ_VIOLATION))) ∧
    (s.held = false → s.calm → s.gstRuns e = true → x.next ≤ s.now → x.delay = 0 → s.gstBeyond e = false → x.word = some w →
      s.flag (F.GST_ENG_CTRL_RESTART e) = false → s.flag (F.GST_ENG_CTRL_DIV_RESTART e) = false → bits w 28 4 = 3 →
      let can : Prop := match bits w 17 2 with
        | 0 => s.gstIn e (bits w 8 5) = bit w 16
        | 1 => ∃ t, x.pulse = some t ∧ t < s.now
        | _ => s.reg (if bit w 8 then ky else kx) = 0
      (¬ can → exec (.gstStallComplete e) s = .next s) ∧
      (can → ∃ u, exec (.gstStallComplete e) s = .next u ∧ u = { s with regs := u.regs, gst := u.gst } ∧
        u.eng e = { x with k := (x.k + 1) % 256, next := x.next + s.gstInterval e x.k, word := none, done := true,
                           taken := none, delay := bits w 23 5, stepAt := some s.now, put := 0 } ∧
        ∀ k, k ≠ R.GST_ENG_STATUS e → u.reg k = s.reg k))

/-- R317, R319 to R321: XFER pushes or pulls one word, when its condition is met and its FIFO allows, and stalls or goes
on without it by BLOCK; STAMP takes the low half of the system time to STAMP_LATCH or the RX FIFO; CHECK pushes the sample
record with its CRC as four words and clears SB, LINE_CRC and STAMP_LATCH, or counts a line error and emits nothing. -/
def Obligations.GustTransfers : Prop :=
  ∀ (s : State) (e : Fin 64) (w : Nat), GstIssues s e w → gstLegal w = true →
    let x := s.eng e
    let kx := R.GST_ENG_X e
    let ky := R.GST_ENG_Y e
    let cx := s.reg kx
    let ov (p : Nat) : Bool := bit (s.reg (R.GST_ENG_OUTV e)) p
    let oe (p : Nat) : Bool := bit (s.reg (R.GST_ENG_OUTE e)) p
    let st := (s.gstAdvance e).reg (R.GST_ENG_STATUS e)
    let same (u : State) : Prop := u.brz = s.brz ∧ u.fired = s.fired
    (bits w 28 4 = 6 → let r := bits w 14 2
      let idle : Prop := r < 2 ∧ bit w 16 = true ∧ (if bit w 18 then (x.sr r).2 ≠ 0 else (x.sr r).2 < s.gstLen e r)
      let did (u : State) : Prop := exec (.gstXfer e) s = .next u ∧ same u
      let k := if r = 2 then kx else ky
      let v := if r < 2 then (x.sr r).1 else s.reg k
      let y := if r < 2 then x.setSr r 0 0 else x
      (idle → ∃ u, did u ∧ GstDid s u e w x true none ov oe st []) ∧
      (¬ idle → bit w 18 = true → x.txf = [] → ∃ u, did u ∧ GstDid s u e w x (!bit w 17) none ov oe st []) ∧
      (∀ v t, ¬ idle → bit w 18 = true → x.txf = v :: t →
        (r < 2 → ∃ u, did u ∧ GstDid s u e w ({ x with txf := t }.setSr r v (s.gstLen e r)) true none ov oe st []) ∧
        (2 ≤ r → ∃ u, did u ∧ GstDid s u e w { x with txf := t } true none ov oe st [k] ∧ u.reg k = v % 2 ^ 64)) ∧
      (¬ idle → bit w 18 = false →
        (x.rxf.length < 8 → ∃ u, did u ∧ GstDid s u e w { y with rxf := x.rxf ++ [v] } true none ov oe st []) ∧
        (8 ≤ x.rxf.length → bit w 17 = true → ∃ u, did u ∧ GstDid s u e w x false none ov oe st []) ∧
        (8 ≤ x.rxf.length → bit w 17 = false → ∃ u, did u ∧ GstDid s u e w y true none ov oe (putBits st 4 1 1) []))) ∧
    (bits w 28 4 = 8 → let t := s.stc % 2 ^ 32
      let did (u : State) : Prop := exec (.gstStamp e) s = .next u ∧ same u
      (bit w 18 = false → ∃ u, did u ∧ GstDid s u e w { x with stamp := some t } true none ov oe st []) ∧
      (bit w 18 = true → x.rxf.length < 8 → ∃ u, did u ∧ GstDid s u e w { x with rxf := x.rxf ++ [t] } true none ov oe st []) ∧
      (bit w 18 = true → 8 ≤ x.rxf.length → ∃ u, did u ∧ GstDid s u e w x false none ov oe st [])) ∧
    (bits w 28 4 = 9 → let clr := { x with sb := 0, cb := 0, crc := 0xFFFF, stamp := none }
      let value := match bits w 17 2 with
        | 0 => x.sb
        | 1 => if x.cb = 0 then 0 else wrap 64 (sext x.cb x.sb)
        | 2 => cx * 2 ^ 32 + x.sb
        | _ => cx
      let r := toBytes 8 value ++ toBytes 4 (x.stamp.getD (s.stc % 2 ^ 32)) ++
        toBytes 2 (s.fld (F.GST_ENG_SRC_SRC_BASE e) + bits w 0 8)
      let rec_ := r ++ toBytes 2 (crc16 r)
      let bad : Prop := bit w 16 = true ∧ x.crc ≠ 0
      (bad → ∃ u, exec (.gstCheck e) s = .next u ∧ u.brz = s.brz ∧
        GstDid s u e w clr true none ov oe (putBits st 5 1 1) [R.GST_ENG_ERRCNT e] ∧
        u.fld (cnt32 (R.GST_ENG_ERRCNT e)) = satU 32 (s.fld (cnt32 (R.GST_ENG_ERRCNT e)) + 1) ∧
        u.fired = s.fired ++ s.pulses Src.GST_LINE_ERR) ∧
      (¬ bad → x.rxf.length ≤ 4 → ∃ u, exec (.gstCheck e) s = .next u ∧ same u ∧
        GstDid s u e w { clr with rxf := x.rxf ++ [leAt rec_ 0 4, leAt rec_ 4 4, leAt rec_ 8 4, leAt rec_ 12 4] }
          true none ov oe st []) ∧
      (¬ bad → 4 < x.rxf.length → ∃ u, exec (.gstCheck e) s = .next u ∧ same u ∧ GstDid s u e w x false none ov oe st []))

/-- R326, R327, R329, R331, R332: the commands of Gust. ENABLE starts an engine at its PC with k at 0 or freezes it; RESTART
clears a stopped engine at once and is noted on a running one, as DIV_RESTART is; FIFO_CLR empties both FIFOs but for what a
step pushed on its edge; GST_START and GST_STOP act on the engines of their mask that admit the requester and are on, and
count one refusal for the others; a word is pushed, dropped when the FIFO is full, popped, or read as 0 when it is empty; a
program word is replaced. The FIFO commands are stated for an edge on which no step of the engine is due. -/
def Obligations.GustRegisters : Prop :=
  ∀ (s : State) (q : Req) (e : Fin 64) (v : BitVec 32), s.held = false →
    let x := s.eng e
    let on := s.flag (F.GST_ENG_CTRL_ENABLE e)
    let still : Prop := on = false ∨ x.next ≠ s.now
    let kc := R.GST_ENG_CTRL e
    let only (u : State) (ks : List Nat) : Prop := u = { s with regs := u.regs, gst := u.gst, resp := u.resp } ∧
      (∀ j, j ≠ e → u.eng j = s.eng j) ∧ ∀ k, k ∉ ks → u.reg k = s.reg k
    (s.gstAdmits q (e / 4) = true → s.gstOn (e / 4) = true →
      (on = false → v.toNat % 16 = 1 → ∃ u, exec (.gstEnable q e v) s = .next u ∧ u.flag (F.GST_ENG_CTRL_ENABLE e) = true ∧
        u.eng e = { x with k := 0, next := s.now } ∧ u.reg (R.GST_ENG_LOOPS e) = 0 ∧
        u.fld (F.GST_ENG_STATUS_PC e) = s.fld (F.GST_ENG_STATUS_PC e) ∧
        only u [kc, R.GST_ENG_LOOPS e, R.GST_ENG_STATUS e]) ∧
      (on = true → v.toNat % 16 = 0 → ∃ u, exec (.gstEnable q e v) s = .next u ∧ u.flag (F.GST_ENG_CTRL_ENABLE e) = false ∧
        u.fld (F.GST_ENG_STATUS_STATE e) = 0 ∧ u.gst = s.gst ∧ only u [kc, R.GST_ENG_STATUS e]) ∧
      (on = false → v.toNat.testBit 0 = false → v.toNat / 4 % 4 = 0 → ∃ u, exec (.gstRestart q e v) s = .next u ∧
        u.eng e = { txf := x.txf, rxf := x.rxf, k := x.k, next := x.next } ∧
        u.fld (F.GST_ENG_STATUS_PC e) = s.fld (F.GST_ENG_PC_START e) ∧ u.fld (F.GST_ENG_STATUS_STATE e) = 0 ∧
        u.flag (F.GST_ENG_STATUS_ILLEGAL e) = s.flag (F.GST_ENG_STATUS_ILLEGAL e) ∧ u.reg (R.GST_ENG_LOOPS e) = 0 ∧
        u.reg (R.GST_ENG_X e) = 0 ∧ u.reg (R.GST_ENG_Y e) = 0 ∧
        only u [R.GST_ENG_STATUS e, R.GST_ENG_LOOPS e, R.GST_ENG_X e, R.GST_ENG_Y e]) ∧
      (on = true → v.toNat.testBit 0 = true → v.toNat / 4 % 4 = 0 → ∃ u, exec (.gstRestart q e v) s = .next u ∧
        u.flag (F.GST_ENG_CTRL_RESTART e) = true ∧ onlyRegs s u [kc]) ∧
      (still → v.toNat.testBit 0 = on → v.toNat.testBit 1 = false → v.toNat.testBit 3 = false → ∃ u,
        exec (.fifoClr q e v) s = .next u ∧ only u [] ∧
        (x.stepAt ≠ some s.now → u.eng e = { x with txf := [], rxf := [] }) ∧
        (x.stepAt = some s.now → u.eng e = { x with txf := [], rxf := x.rxf.drop (x.rxf.length - x.put) })) ∧
      (v.toNat.testBit 0 = on → v.toNat.testBit 1 = false → v.toNat.testBit 2 = false → ∃ u,
        exec (.divRestart q e v) s = .next u ∧ u.flag (F.GST_ENG_CTRL_DIV_RESTART e) = true ∧ onlyRegs s u [kc]) ∧
      (still → ∀ ws : List (BitVec 32), ws.length = 1 ∨ ws.length = 2 ∨ ws.length = 4 → x.txf.length + ws.length ≤ 8 → ∃ u,
        exec (.gstTxfWrite q e ws) s = .next u ∧ u.eng e = { x with txf := x.txf ++ ws.map BitVec.toNat } ∧
        u.resp = ⟨.ok, []⟩ ∧ only u []) ∧
      (still → 8 ≤ x.txf.length → ∃ u, exec (.gstTxfWrite q e [v]) s = .next u ∧ u.flag (F.GST_ENG_STATUS_TX_OVER e) = true ∧
        onlyRegs s u [R.GST_ENG_STATUS e]) ∧
      (still → ∀ n, n = 1 ∨ n = 2 ∨ n = 4 → n ≤ x.rxf.length → ∃ u, exec (.gstRxfRead q e n) s = .next u ∧
        u.resp = ⟨.ok, (x.rxf.take n).flatMap (toBytes 4)⟩ ∧ u.eng e = { x with rxf := x.rxf.drop n } ∧ only u []) ∧
      (still → x.rxf = [] → ∃ u, exec (.gstRxfRead q e 1) s = .next u ∧ u.resp = ⟨.ok, [0, 0, 0, 0]⟩ ∧
        u.flag (F.GST_ENG_STATUS_RX_UNDER e) = true ∧ onlyRegs s u [R.GST_ENG_STATUS e])) ∧
    (∀ (g : Fin 16) (j : Fin 64),
      (s.gstAdmits q g = true → s.gstOn g = true → ∃ u, exec (.gstProgWrite q g j v) s = .next u ∧
        u.reg (R.GST_PROG g j) % 2 ^ 32 = v.toNat ∧ onlyRegs s u [R.GST_PROG g j]) ∧
      (s.gstAdmits q g = true → s.gstOn g = false → exec (.gstProgWrite q g j v) s = .next { s with resp := ⟨.ok, []⟩ }) ∧
      (s.gstAdmits q g = false → ∃ u, exec (.gstProgWrite q g j v) s = .next u ∧ u.resp.status = .refused ∧
        u.fld (cnt32 R.GST_VIOL_COUNT) = satU 32 (s.fld (cnt32 R.GST_VIOL_COUNT) + 1) ∧
        u = { s with regs := u.regs, resp := u.resp, fired := s.fired ++ s.pulses Src.GST_VIOLATION } ∧
        ∀ k, k ≠ R.GST_VIOL_COUNT → u.reg k = s.reg k)) ∧
    (∀ m : BitVec 64, let ok (i : Nat) : Prop := s.gstAdmits q (i / 4) = true ∧ s.gstOn (i / 4) = true
      let mine (i : Nat) : Prop := i < 64 ∧ m.toNat.testBit i = true ∧ ok i
      let turned : Prop := ∃ i < 64, m.toNat.testBit i = true ∧ s.gstAdmits q (i / 4) = false
      let count (u : State) : Prop := (turned → u.resp.status = .refused ∧
          u.fld (cnt32 R.GST_VIOL_COUNT) = satU 32 (s.fld (cnt32 R.GST_VIOL_COUNT) + 1)) ∧
        (¬ turned → u.resp.status = .ok ∧ u.reg R.GST_VIOL_COUNT = s.reg R.GST_VIOL_COUNT) ∧ u.mem = s.mem ∧
        u.threads = s.threads
      (∃ u, exec (.gstStart q m) s = .next u ∧ count u ∧
        (∀ i, mine i → u.flag (F.GST_ENG_CTRL_ENABLE i) = true ∧ u.eng i = { s.eng i with k := 0, next := s.now }) ∧
        ∀ i < 64, ¬ mine i → u.reg (R.GST_ENG_CTRL i) = s.reg (R.GST_ENG_CTRL i) ∧ u.eng i = s.eng i) ∧
      (∃ u, exec (.gstStop q m) s = .next u ∧ count u ∧ u.gst = s.gst ∧
        (∀ i, mine i → u.flag (F.GST_ENG_CTRL_ENABLE i) = false) ∧
        ∀ i < 64, ¬ mine i → u.reg (R.GST_ENG_CTRL i) = s.reg (R.GST_ENG_CTRL i)))

/-- R335, R336, R339 to R347: the pins. A masked write changes the bits of the pins that admit it and takes them out of
hold, and is refused where some pin does not admit it; a set-up write switches the function, unless the pin does not carry
it (FUNC_ERR) or is locked (LOCK_WR); the two keys lock a pin; an input takes the device's own drive, the board's, or what
the pull gives, and its detector notes what its mode asks for; a bank whose supply goes bad reads 0. -/
def Obligations.Pins : Prop :=
  ∀ (s : State) (q : Req) (v : BitVec 32), s.held = false →
    (∀ (j : Fin 32), let k := R.GPIO_OUT_LO 0 + 4 * j.val
      let p0 := 4 * j.val % 0x40 * 4
      ∃ u, exec (.gpioOutWrite q j v) s = .next u ∧
        (∀ i < 16, bit (u.reg k) i =
          if v.toNat.testBit (16 + i) && s.pinAdmits q (p0 + i) then v.toNat.testBit i else bit (s.reg k) i) ∧
        (∀ i < 16, v.toNat.testBit (16 + i) = true → s.pinAdmits q (p0 + i) = true → u.pinHeld (p0 + i) = false) ∧
        ((∀ i < 16, v.toNat.testBit (16 + i) = true → s.pinAdmits q (p0 + i) = true) →
          u.resp.status = .ok ∧ u.reg R.GPIO_VIOL_COUNT = s.reg R.GPIO_VIOL_COUNT ∧ u.fired = s.fired) ∧
        ((∃ i < 16, v.toNat.testBit (16 + i) = true ∧ s.pinAdmits q (p0 + i) = false) → u.resp.status = .refused ∧
          u.fld (cnt32 R.GPIO_VIOL_COUNT) = satU 32 (s.fld (cnt32 R.GPIO_VIOL_COUNT) + 1) ∧
          u.fired = s.fired ++ s.pulses Src.GPIO_VIOLATION) ∧ u.mem = s.mem ∧ u.threads = s.threads ∧
        ∀ r, r ≠ k → r ≠ R.GPIO_HOLD (p0 / 32) → r ≠ R.GPIO_VIOL_COUNT → u.reg r = s.reg r) ∧
    (∀ (p : Fin 256), s.pinAdmits q p = true →
      (s.flag (F.GPIO_PIN_LOCK_LOCKED p) = false → ∃ u, exec (.pinCfgWrite q p v) s = .next u ∧ u.pinHeld p = false ∧
        (carries p (bits v.toNat 0 4) = true → u.pinFunc p = bits v.toNat 0 4 ∧
          u.reg R.GPIO_STATUS = s.reg R.GPIO_STATUS) ∧
        (carries p (bits v.toNat 0 4) = false → u.pinFunc p = s.pinFunc p ∧ u.flag F.GPIO_STATUS_FUNC_ERR = true) ∧
        u.fld (F.GPIO_PIN_CFG_PULL p) = bits v.toNat 6 2 ∧ u.fld (F.GPIO_PIN_CFG_DRIVE p) = bits v.toNat 8 2 ∧
        u.fld (F.GPIO_PIN_CFG_OD p) = bits v.toNat 11 1 ∧ u.mem = s.mem ∧
        ∀ r, r ≠ R.GPIO_PIN_CFG p → r ≠ R.GPIO_HOLD (p / 32) → r ≠ R.GPIO_STATUS → u.reg r = s.reg r) ∧
      (s.flag (F.GPIO_PIN_LOCK_LOCKED p) = true → ∃ u, exec (.pinCfgWrite q p v) s = .next u ∧
        u.reg (R.GPIO_PIN_CFG p) = s.reg (R.GPIO_PIN_CFG p) ∧ u.flag F.GPIO_STATUS_LOCK_WR = true) ∧
      (∀ key : BitVec 16, ∃ u, exec (.pinLock q p key) s = .next u ∧
        (p.val ∈ u.pins.armed ↔ key = 0xC3A5) ∧
        (u.flag (F.GPIO_PIN_LOCK_LOCKED p) =
          (s.flag (F.GPIO_PIN_LOCK_LOCKED p) || (decide (p.val ∈ s.pins.armed) && decide (key = 0x5A3C)))) ∧
        (∀ r, r ≠ R.GPIO_PIN_LOCK p → u.reg r = s.reg r) ∧ u.mem = s.mem)) ∧
    (∀ (p : Fin 256) (level : Option Bool), let x := s.padInput p level
      let was := bit (s.reg (R.GPIO_IN (p / 32))) (p % 32)
      let hit : Prop := match s.fld (F.GPIO_PIN_INT_MODE p) with
        | 1 => was = false ∧ x = true
        | 2 => was = true ∧ x = false
        | 3 => was ≠ x
        | 4 => x = true
        | 5 => x = false
        | _ => False
      (s.pinPg p = false → x = false) ∧ (∀ b, s.padSeen p = some b → x = b) ∧
      (∀ b, s.pinPg p = true → s.padSeen p = none → level = some b → x = b) ∧
      (s.pinPg p = true → s.padSeen p = none → level = none → (s.fld (F.GPIO_PIN_CFG_PULL p) = 1 → x = true) ∧
        (s.fld (F.GPIO_PIN_CFG_PULL p) = 2 → x = false) ∧ (s.fld (F.GPIO_PIN_CFG_PULL p) = 3 → x = s.pinIn p)) ∧
      ∃ u, exec (.pinDetect p level) s = .next u ∧ u.pinIn p = x ∧
        (hit → bit (u.reg (R.GPIO_INT_STAT (p / 32))) (p % 32) = true) ∧
        (hit → bit (s.reg (R.GPIO_INT_STAT (p / 32))) (p % 32) = false → u.fired = s.fired ++ s.pulses (Src.PIN p)) ∧
        (¬ hit → u.reg (R.GPIO_INT_STAT (p / 32)) = s.reg (R.GPIO_INT_STAT (p / 32)) ∧ u.fired = s.fired) ∧
        u = { s with regs := u.regs, fired := u.fired, free := u.free } ∧
        u.free = (if s.padFloats p level then s.free + 1 else s.free) ∧
        ∀ r, r ≠ R.GPIO_IN (p / 32) → r ≠ R.GPIO_INT_STAT (p / 32) → u.reg r = s.reg r) ∧
    (∀ (k : Fin 8) (good : Bool), ∃ u, exec (.vddioChange k good) s = .next u ∧ u.flag (F.GPIO_BANK_CFG_PG k) = good ∧
      (good = false → ∀ i < 32, u.pinIn (32 * k + i) = false) ∧ u = { s with regs := u.regs, fired := u.fired } ∧
      ∀ r, r ≠ R.GPIO_BANK_CFG k → r ≠ R.GPIO_IN k → r ≠ R.GPIO_INT_STAT k → u.reg r = s.reg r)

/-- R352 to R362: the channels. The first event of a cycle that passes sets out a pulse two cycles later, or is held when
the spacing window is closed, or joins the held one; a later one of the cycle acts with it and sets COINCIDENT, unless it
is a second pulse of one source; one that does not pass, or that the channel does not take, ends. In the cycle of a change
to SRC or GATE it may pass or not. A pulse is counted, goes to every channel that selects it, and reaches its task inputs
two cycles later; a held event is emitted at its window. A direct fire acts as an event that passes, for a requester that
the channel admits. A task input takes its event, or notes OVERRUN when its consumer is busy. -/
def Obligations.BreezeChannels : Prop :=
  ∀ (s : State) (q : Req) (c : Fin 256), s.held = false →
    let cs := R.BRZ_CH_STATUS c
    let x := s.ch c
    let held := s.flag (F.BRZ_CH_STATUS_HELD c)
    let open_ : Prop := ∀ l, x.last = some l → l + s.spacing c ≤ s.now + 2
    let passes (u : State) (src : Nat) : Prop :=
      let y := { x with at_ := some s.now, srcs := [src], went := true }
      (held = false → open_ → u.ch c = { y with due := x.due ++ [s.now + 2], last := some (s.now + 2) }) ∧
      (held = false → ¬ open_ → u.flag (F.BRZ_CH_STATUS_HELD c) = true ∧ u.flag (F.BRZ_CH_STATUS_SPACED c) = true ∧
        u.ch c = y) ∧
      (held = true → u.flag (F.BRZ_CH_STATUS_COINCIDENT c) = true ∧ u.ch c = y)
    let joins (u : State) (src : Nat) : Prop :=
      u.ch c = { x with srcs := src :: x.srcs } ∧
      (src ≠ 0 ∧ src ∈ x.srcs → u.regs = s.regs) ∧
      (¬ (src ≠ 0 ∧ src ∈ x.srcs) → u.flag (F.BRZ_CH_STATUS_COINCIDENT c) = true)
    (∀ (src : Fin 1024) rest, takeFirst (fun (e : Nat × Nat) => e == (src.val, c.val)) s.fired = some ((src.val, c.val), rest) →
      let gone : State := { s with fired := rest }
      let only (u : State) : Prop := u = { gone with regs := u.regs, brz := u.brz } ∧ ∀ k, k ≠ cs → u.reg k = s.reg k
      (s.srcBarred c src = true → exec (.sourceEvent c src) s = .next gone) ∧
      (s.srcBarred c src = false → x.chg ≠ some s.now → s.fld (F.BRZ_CH_CFG_SRC c) ≠ src →
        exec (.sourceEvent c src) s = .next gone) ∧
      (s.srcBarred c src = false → x.chg ≠ some s.now → s.fld (F.BRZ_CH_CFG_SRC c) = src → x.at_ ≠ some s.now →
        ∃ u, exec (.sourceEvent c src) s = .next u ∧ only u ∧ (s.gateOpen c = true → passes u src) ∧
          (s.gateOpen c = false → u.regs = s.regs ∧ u.ch c = { x with at_ := some s.now, srcs := [src.val], went := false })) ∧
      (s.srcBarred c src = false → x.chg ≠ some s.now → s.fld (F.BRZ_CH_CFG_SRC c) = src → x.at_ = some s.now →
        x.went = true → ∃ u, exec (.sourceEvent c src) s = .next u ∧ only u ∧ joins u src) ∧
      (s.srcBarred c src = false → x.chg = some s.now → x.at_ ≠ some s.now → ∃ u, exec (.sourceEvent c src) s = .next u ∧
        u = { gone with regs := u.regs, brz := u.brz, free := s.free + 1 } ∧ (bit s.freeVal 0 = true → passes u src) ∧
        (bit s.freeVal 0 = false → u.regs = s.regs))) ∧
    (∀ t r, x.due = t :: r → ∃ u, exec (.channelPulse c) s = .next u ∧ (u.ch c).due = r ∧ u.now = max s.now t ∧
      u.fld (F.BRZ_CH_STATUS_COUNT c) = (s.fld (F.BRZ_CH_STATUS_COUNT c) + 1) % 2 ^ 16 ∧
      u.fired = s.fired ++ s.pulses (Src.CH c) ∧ (u.now + 2, c.val) ∈ u.hops ∧ u.mem = s.mem ∧
      u.threads = s.threads) ∧
    (∀ l, held = true → x.last = some l → ∃ u, exec (.heldEmit c) s = .next u ∧
      u.now = max s.now (l + s.spacing c) ∧ u.flag (F.BRZ_CH_STATUS_HELD c) = false ∧ (u.ch c).last = some u.now ∧
      u.fld (F.BRZ_CH_STATUS_COUNT c) = (s.fld (F.BRZ_CH_STATUS_COUNT c) + 1) % 2 ^ 16 ∧
      u.fired = s.fired ++ s.pulses (Src.CH c) ∧ (u.now + 2, c.val) ∈ u.hops ∧ u.mem = s.mem ∧
      u.threads = s.threads) ∧
    (s.mayFire q c = true → ∀ rest, ∃ u, exec (.brzFire q c rest) s = .next u ∧ u.resp = ⟨.ok, []⟩ ∧
      (x.at_ ≠ some s.now → passes u 0) ∧ (x.at_ = some s.now → x.went = true → joins u 0) ∧
      u = { s with regs := u.regs, brz := u.brz, resp := u.resp } ∧ ∀ k, k ≠ cs → u.reg k = s.reg k) ∧
    (s.mayFire q c = false → ∀ rest, ∃ u, exec (.brzFire q c rest) s = .next u ∧ u.resp.status = .refused ∧
      u.fld (cnt32 R.BRZ_VIOL_COUNT) = satU 32 (s.fld (cnt32 R.BRZ_VIOL_COUNT) + 1) ∧
      u = { s with regs := u.regs, fired := s.fired ++ s.pulses Src.BRZ_VIOLATION, resp := u.resp } ∧
      ∀ k, k ≠ R.BRZ_VIOL_COUNT → u.reg k = s.reg k) ∧
    (∀ (g : Fin 8) (i : Fin 32), g.val < 7 → let j := 32 * g.val + i.val
      let w := s.taskAwait j
      (s.tasks = [] → ∀ h, s.hops = [(h, c.val)] → s.now ≤ h → j ∈ s.tasksOf c →
        w.now = h ∧ ∃ rest, takeFirst (fun (e : Nat × Nat) => e.1 == j) w.tasks = some ((j, h), rest)) ∧
      (∀ at_ rest, takeFirst (fun (e : Nat × Nat) => e.1 == j) s.tasks = some ((j, at_), rest) →
        let t : State := { s with tasks := rest }
        (s.taskBusy j = true → ∃ u, exec (.taskInputEvent g i) s = .next u ∧
          u.flag (F.BRZ_TASK_CTL_OVERRUN j) = true ∧ u = { t with regs := u.regs } ∧
          ∀ k, k ≠ R.BRZ_TASK_CTL j → u.reg k = s.reg k) ∧
        (s.taskBusy j = false → exec (.taskInputEvent g i) s = .next
          (match g.val with
            | 0 => t.timArm i
            | 1 => t.timStop i
            | 2 => t.timCapture i
            | 3 => t.twdTrigger i
            | 4 => t.galEvent i at_
            | _ => t.lullEvent (j - 160)))))

/-- R365 to R372: the timers and the system time counter. ARM restarts the count from 0, and on a terminal edge the terminal
event still fires (log entry 50); STOP ends the count and keeps it; CAPTURE copies it as it stands after a tick of the same
edge; a tick counts one, notes MATCHED at a MATCH not above PERIOD and ends the count at PERIOD, each with its event. SET
loads the system time counter while the unit is ALONE, for S requesters only. ARM, STOP and CAPTURE are stated for a channel
that has not acted on the edge. -/
def Obligations.Timers : Prop :=
  ∀ (s : State) (q : Req) (c : Fin 32) (v : BitVec 32), s.held = false →
    let x := s.timCh c
    let n := s.timNextCount c
    let only (u : State) (ks : List Nat) : Prop := u = { s with regs := u.regs, tim := u.tim, resp := u.resp } ∧
      ∀ k, k ∉ ks → u.reg k = s.reg k
    let armed (u : State) : Prop := u.timVal R.TIM_COUNT c = 0 ∧ u.flag (F.TIM_STATUS_COUNTING c) = true ∧
      u.timCh c = { presc := s.fld (F.TIM_CFG_PRESC c), next := s.now + s.fld (F.TIM_CFG_PRESC c) + 1, edge := some (s.now, 1) }
    (s.admits q (s.fld (F.TIM_OWN_OWNER c)) (s.flag (F.TIM_OWN_S c)) = true → s.timUpper c = false →
      (∀ p, x.edge ≠ some (s.now, p)) →
      (v.toNat.testBit 1 = false → v.toNat.testBit 2 = false → s.timDue c = false → ∃ u, exec (.timArm q c v) s = .next u ∧
        armed u ∧ only u [R.TIM_CTRL c, R.TIM_STATUS c, R.TIM_COUNT c, R.TIM_COUNT (c + 1)]) ∧
      (v.toNat.testBit 1 = false → v.toNat.testBit 2 = false → s.timDue c = true → s.timLast c n = true → ∃ u,
        exec (.timArm q c v) s = .next u ∧ armed u ∧ u.flag (F.TIM_STATUS_TERMINATED c) = true ∧
        u.fired = s.fired ++ s.pulses (Src.TIM_TERM c) ∧ u.mem = s.mem ∧ u.threads = s.threads) ∧
      (v.toNat.testBit 0 = false → v.toNat.testBit 2 = false → ∃ u, exec (.timStop q c v) s = .next u ∧
        u.flag (F.TIM_STATUS_COUNTING c) = false ∧ only u [R.TIM_CTRL c, R.TIM_STATUS c]) ∧
      (v.toNat.testBit 0 = false → v.toNat.testBit 1 = false → s.reg (R.TIM_COUNT c) < 2 ^ 32 →
        s.reg (R.TIM_COUNT (c + 1)) < 2 ^ 32 →
        (s.timDue c = false → ∃ u, exec (.timCapture q c v) s = .next u ∧
          u.timVal R.TIM_CAPT c = s.timVal R.TIM_COUNT c ∧ only u [R.TIM_CTRL c, R.TIM_CAPT c, R.TIM_CAPT (c + 1)]) ∧
        (s.timDue c = true → ∃ u, exec (.timCapture q c v) s = .next u ∧ u.timVal R.TIM_CAPT c = n ∧
          u.timVal R.TIM_COUNT c = n))) ∧
    (s.flag (F.TIM_STATUS_COUNTING c) = true → s.timUpper c = false →
      let hit : Prop := n = s.timVal R.TIM_MATCH c ∧ n ≤ s.timVal R.TIM_PERIOD c
      let last : Prop := s.timVal R.TIM_PERIOD c ≤ n
      ∃ u, exec (.timTick c) s = .next u ∧ u.timVal R.TIM_COUNT c = n ∧ x.next ≤ u.now ∧
        (hit → u.flag (F.TIM_STATUS_MATCHED c) = true) ∧ (last → u.flag (F.TIM_STATUS_TERMINATED c) = true) ∧
        (u.flag (F.TIM_STATUS_COUNTING c) = true ↔ ¬ last) ∧
        u.fired = s.fired ++ (if hit then s.pulses (Src.TIM_MATCH c) else []) ++ (if last then s.pulses (Src.TIM_TERM c) else []) ∧
        u.mem = s.mem ∧ u.threads = s.threads) ∧
    (q.s = true → s.alone = true → ∃ u, exec (.set q) s = .next u ∧
      u.stc = s.reg R.SYS_TIME_SET_LO + 2 ^ 32 * s.reg R.SYS_TIME_SET_HI ∧ u.mem = s.mem ∧ u.threads = s.threads) ∧
    (s.alone = false → ∃ u, exec (.set q) s = .next u ∧ u.stc = s.stc) ∧
    (q.s = false → ∃ u, exec (.set q) s = .next u ∧ u.stc = s.stc ∧ u.resp.status = .refused)

/-! ### Lull, Tradewind, Gale -/

/-- R377 to R387: Lull. A record that is offered joins its queue when the queue admits the producer, else counts as
written and as a violation; a record is written as W1 to W3, then the header with PHASE, then PROD_IDX; a failed one is
written again by RESUME; the count or the time of a running coalescer asserts; an event input takes its mapping from S
requesters only. -/
def Obligations.LullQueues : Prop :=
  ∀ (s : State) (q : Req) (n : Fin 64) (v : BitVec 32), s.held = false →
    let p := s.fld (F.LUL_Q_PROD_PROD_IDX n)
    let k := s.fld (F.LUL_Q_CFG_SIZE_LOG2 n)
    let a := bits (s.reg (R.LUL_Q_BASE n)) 6 38 * 64 + p % 2 ^ k * 16
    let me := s.engine (s.fld (F.LUL_Q_CFG_OWNER n)) (s.flag (F.LUL_Q_CFG_ATTR_S n))
    let mine := s.admits q (s.fld (F.LUL_Q_CFG_OWNER n)) (s.flag (F.LUL_Q_CFG_ATTR_S n)) = true
    let wrote (u : State) (h w1 w2 w3 : Nat) : Prop :=
      u.num a 4 = (h + (1 - bits p k 1) * 2 ^ 31) % 2 ^ 32 ∧ u.num (a + 4) 4 = w1 % 2 ^ 32 ∧ u.num (a + 8) 4 = w2 % 2 ^ 32 ∧
      u.num (a + 12) 4 = w3 % 2 ^ 32 ∧ u.fld (F.LUL_Q_PROD_PROD_IDX n) = (p + 1) % 65536 ∧
      (∀ j, ¬ (a ≤ j ∧ j < a + 16) → u.byte j = s.byte j) ∧ u.threads = s.threads
    (∀ (unit : Fin 16) (index : BitVec 16) o rest, takeFirst (fun (o : LRec) => o.unit == unit.val && o.index == index.toNat)
        s.lull.offers = some (o, rest) →
      let own := s.fld (F.LUL_Q_CFG_OWNER o.queue)
      let ok : Prop := (own = 14 ∨ own = o.owner) ∧
        attrOk (s.flag (F.LUL_Q_CFG_ATTR_S o.queue)) (s.engine o.owner o.s) = true
      (ok → ∃ u, exec (.lullCompletion unit index) s = .next u ∧ u.lull.offers = rest ∧
        (u.lq o.queue).items = (s.lq o.queue).items ++ [.record o] ∧ u = { s with lull := u.lull }) ∧
      (¬ ok → ∃ u, exec (.lullCompletion unit index) s = .next u ∧ u.lull = { s.lull with offers := rest } ∧
        u.fld (cnt32 R.LUL_VIOL_COUNT) = satU 32 (s.fld (cnt32 R.LUL_VIOL_COUNT) + 1) ∧
        (∀ r, o.ring = some r → u.fld r.cons = (s.fld r.cons + 1) % 65536) ∧ u.mem = s.mem)) ∧
    (∀ o r rest, s.flag (F.LUL_Q_CFG_ENABLE n) = true → s.flag (F.LUL_Q_STATUS_HALTED n) = false →
      (s.lq n).failed = none → s.lqFull n = false → s.fld (F.LUL_Q_STATUS_LOST n) = 0 →
      (s.lq n).items = .record r :: rest → a = poolBase + o → PoolOpen s me true o 16 →
      ∃ u, exec (.lullRecordWrite n) s = .next u ∧ wrote u (lHeader r.kind r.status r.unit r.index) r.w1 r.w2 r.w3 ∧
        (u.lq n).items = rest ∧ (∀ g, r.ring = some g → u.fld g.cons = (s.fld g.cons + 1) % 65536)) ∧
    (∀ o h w1 w2 w3, mine → q.s = true → v = BitVec.ofNat 32 (s.reg (R.LUL_Q_CFG n)) → 4 ≤ k → k ≤ 12 →
      s.flag (F.LUL_Q_CFG_ENABLE n) = true → s.flag (F.LUL_Q_STATUS_HALTED n) = true →
      (s.lq n).failed = some (h, w1, w2, w3) → (s.lq n).failRing = none → a = poolBase + o → PoolOpen s me true o 16 →
      ∃ u, exec (.lulResume q n v) s = .next u ∧ u.flag (F.LUL_Q_STATUS_HALTED n) = false ∧ wrote u h w1 w2 w3 ∧
        (u.lq n).failed = none) ∧
    (∀ t, (s.lq n).t = some t → max (s.fld (F.LUL_Q_COAL_CO_COUNT n)) 1 ≤ s.lqHeld n ∨ s.fld (F.LUL_Q_COAL_CO_TIME n) ≤ t →
      ∃ u, exec (.coalesceRelease n) s = .next u ∧ u.flag (F.LUL_Q_STATUS_ASSERTED n) = true ∧
        u.flag (F.LUL_Q_STATUS_RUNNING n) = false ∧ u.flag (F.LUL_Q_STATUS_PENDING n) = s.flag (F.LUL_Q_CFG_IRQ_EN n) ∧
        bit (u.reg R.LUL_ASSERT) n = true ∧ u = { s with regs := u.regs, lull := u.lull } ∧
        ∀ j, j ≠ R.LUL_Q_STATUS n → j ≠ R.LUL_ASSERT → u.reg j = s.reg j) ∧
    (q.s = true → s.flag (F.LUL_EVT_MAP_EN n) = false ∨ v.toNat.testBit 8 = true →
      ∃ u, exec (.evtMapWrite q n v) s = .next u ∧ u.flag (F.LUL_EVT_MAP_EN n) = v.toNat.testBit 8 ∧
        u.fld (F.LUL_EVT_MAP_QUEUE n) = bits v.toNat 0 6 ∧ onlyRegs s u [R.LUL_EVT_MAP n]) ∧
    (q.s = false → ∃ u, exec (.evtMapWrite q n v) s = .next u ∧ u.resp.status = .refused ∧
      u.reg (R.LUL_EVT_MAP n) = s.reg (R.LUL_EVT_MAP n))

/-- R380: a write of CONS_IDX by a requester that the queue admits is accepted only when it does not leave more records in
the queue than the old index does, modulo 65,536; one that fails the check leaves CONS_IDX unchanged and sets CONS_ERR. A
write that empties the queue deasserts it as well (R387), and neither does more. -/
def Obligations.ConsumerIndexWrites : Prop :=
  ∀ (s : State) (q : Req) (n : Fin 64) (v : BitVec 32), s.held = false →
    s.admits q (s.fld (F.LUL_Q_CFG_OWNER n)) (s.flag (F.LUL_Q_CFG_ATTR_S n)) = true →
    let p := s.fld (F.LUL_Q_PROD_PROD_IDX n)
    let c := v.toNat % 65536
    let old := s.fld (F.LUL_Q_CONS_CONS_IDX n)
    let fits : Prop := (p + 65536 - c) % 65536 ≤ (p + 65536 - old) % 65536
    (fits → ∃ u, exec (.consIdxWrite q n v) s = .next u ∧ u.fld (F.LUL_Q_CONS_CONS_IDX n) = c ∧
      u.flag (F.LUL_Q_STATUS_CONS_ERR n) = s.flag (F.LUL_Q_STATUS_CONS_ERR n) ∧
      (c = p → old ≠ p → u.flag (F.LUL_Q_STATUS_ASSERTED n) = false ∧ u.flag (F.LUL_Q_STATUS_PENDING n) = false) ∧
      u = { s with regs := u.regs, lull := u.lull, resp := u.resp }) ∧
    (¬ fits → ∃ u, exec (.consIdxWrite q n v) s = .next u ∧ u.flag (F.LUL_Q_STATUS_CONS_ERR n) = true ∧
      u.fld (F.LUL_Q_CONS_CONS_IDX n) = old ∧ onlyRegs s u [R.LUL_Q_STATUS n])

/-- R391 to R393, R398, R400, R403 to R407: Tradewind. A channel reads its descriptor and starts, or ends a bad one with
status 2; a piece moves the bytes of one access between memory elements, and the last one ends the transfer with status 0; a
paced use starts on its request; a transfer that has ended offers its completion record; CANCEL at an element boundary, and
ABORT, end it; RESUME lets a halted channel go on; a halt offers one error record; COUNT written with 0 clears the error. -/
def Obligations.Tradewind : Prop :=
  ∀ (s : State) (q : Req) (c : Fin 32) (v : BitVec 32), s.held = false →
    let r := Ring.twd c
    let x := s.tw c
    let st := R.TWD_CH_STATUS c
    let me := s.ringReq r
    let mine := s.admits q (s.fld r.owner) (s.flag r.attr) = true
    let halted := s.twdHalted c
    (∀ o, s.flag r.enable = true → (s.ringSt r).stopping = false → s.ringHeld r ≠ 0 → s.holds r = false → halted = false →
      x.desc = none → x.code = none → (s.ringSt r).cancelTo = none → s.slotAddr r (s.fld r.cons) = poolBase + o →
      PoolOpen s me false o 32 →
      let a := poolBase + o
      let d : TwdDesc := ⟨s.num a 8, s.num (a + 8) 8, s.num (a + 16) 2, s.num (a + 18) 2, s.num (a + 20) 4, s.num (a + 24) 4⟩
      let bad : Prop := d.src % 16 ≠ 0 ∨ d.dst % 16 ≠ 0 ∨ d.nSrc = 0 ∨ 4096 < d.nSrc ∨ d.nDst = 0 ∨ 4096 < d.nDst ∨
        d.control / 2 ^ 14 ≠ 0 ∨ d.control / 8 % 32 ≠ 0 ∨
        (2 ≤ d.control % 4 ∧ s.gstAdmits me (d.control / 256 % 64 / 4) = false)
      ∃ u, exec (.twdTransferStart c) s = .next u ∧ u.flag r.busy = true ∧ (u.tw c).desc = some d ∧ (u.tw c).pos = {} ∧
        (bad → (u.tw c).code = some 2) ∧
        (¬ bad → (u.tw c).code = none ∧ u.flag (F.TWD_CH_STATUS_PACE_WAIT c) = decide (d.control % 4 ≠ 0)) ∧
        u = { s with regs := u.regs, twd := u.twd, rings := u.rings } ∧
        ∀ k, k ≠ r.cfgKey → k ≠ st → k ≠ R.TWD_CH_POS c → u.reg k = s.reg k) ∧
    (∀ d a b o1 o2 m, s.twdNext = some c.val → x.desc = some d → x.pos.buf = [] →
      d.src + 16 * x.pos.srcE = poolBase + a → d.dst + 16 * x.pos.dstE = poolBase + b →
      PoolOpen s me false a 16 → PoolOpen s me false b 16 → x.pos.srcE < d.nSrc → x.pos.dstE < d.nDst →
      (s.ringSt r).tainted = [] → (s.ringSt r).cancelTo = none →
      let f := twdElem (s.bytes (poolBase + a) 16)
      let t := twdElem (s.bytes (poolBase + b) 16)
      f.bad x.pos.srcUse = false → t.bad x.pos.dstUse = false → f.inRegs x.pos.srcUse = false →
      t.inRegs x.pos.dstUse = false → x.pos.srcOff < f.len → x.pos.dstOff < t.len →
      let ra := (if bit f.flags 0 then f.addr else f.addr + x.pos.srcUse * f.len) + x.pos.srcOff
      let wa := (if bit t.flags 0 then t.addr else t.addr + x.pos.dstUse * t.len) + x.pos.dstOff
      ra = poolBase + o1 → wa = poolBase + o2 →
      m = min (min (f.len - x.pos.srcOff) (64 - ra % 64)) (min (t.len - x.pos.dstOff) (64 - wa % 64)) →
      PoolOpen s me false o1 m → PoolOpen s me true o2 m →
      ∀ rst rdata wst, ∃ u, exec (.twdPiece rst rdata wst) s = .next u ∧ u.bytes wa m = s.bytes ra m ∧
        (∀ j, ¬ (wa ≤ j ∧ j < wa + m) → u.byte j = s.byte j) ∧ u.twd.last = c ∧ u.threads = s.threads ∧
        (u.tw c).counted = max x.counted (x.pos.moved + m) ∧
        (x.pos.srcOff + m < f.len → x.pos.dstOff + m < t.len → u.tw c = { x with
          pos := { x.pos with srcOff := x.pos.srcOff + m, dstOff := x.pos.dstOff + m, moved := x.pos.moved + m },
          counted := max x.counted (x.pos.moved + m) }) ∧
        (x.pos.srcOff + m = f.len → x.pos.dstOff + m = t.len → f.flags / 2 ^ 16 % 2 ^ 16 ≤ x.pos.srcUse →
          t.flags / 2 ^ 16 % 2 ^ 16 ≤ x.pos.dstUse → x.pos.srcE + 1 = d.nSrc → x.pos.dstE + 1 = d.nDst →
          (u.tw c).code = some 0) ∧
        ∀ k, k ≠ st → k ≠ R.TWD_CH_POS c → u.reg k = s.reg k) ∧
    (∀ d, x.desc = some d → x.code = none → halted = false → (s.ringSt r).stopping = false → x.pos.use = false →
      let ready : Prop := match d.control % 4 with
        | 0 => False
        | 1 => s.flag (F.TWD_CH_STATUS_TRIG_PEND c) = true
        | 2 => x.ready ≤ s.now ∧ s.rxReq (d.control / 256 % 64) = true
        | _ => x.ready ≤ s.now ∧ s.txReq (d.control / 256 % 64) = true
      (¬ ready → exec (.twdPacedUse c) s = .next s) ∧
      (ready → ∃ u, exec (.twdPacedUse c) s = .next u ∧ (u.tw c).pos = { x.pos with use := true } ∧ (u.tw c).desc = some d ∧
        u.flag (F.TWD_CH_STATUS_PACE_WAIT c) = false ∧
        (u.flag (F.TWD_CH_STATUS_TRIG_PEND c) = (s.flag (F.TWD_CH_STATUS_TRIG_PEND c) && decide (d.control % 4 ≠ 1))) ∧
        u = { s with regs := u.regs, twd := u.twd } ∧ ∀ k, k ≠ st → u.reg k = s.reg k)) ∧
    (∀ d n, x.desc = some d → x.code = some n → halted = false → (s.ringSt r).tainted = [] → ∃ u,
      exec (.twdComplete c) s = .next u ∧ u.flag r.busy = false ∧ u.tw c = { ready := x.ready } ∧
      u.lull = { s.lull with offers := s.lull.offers ++ [⟨1, n, 5, c, d.tag, satU 32 x.counted,
        x.pos.dstE * 65536 + x.pos.srcE, some r, s.fld r.queue, s.fld r.owner, s.flag r.attr⟩] } ∧
      u = { s with regs := u.regs, twd := u.twd, lull := u.lull } ∧ ∀ k, k ≠ r.cfgKey → u.reg k = s.reg k) ∧
    (mine → s.flag r.enable = true → s.flag r.cancel = false → s.ringHeld r ≠ 0 → x.desc.isSome = true → x.code = none →
      halted = false → x.pos = x.bound → v.toNat.testBit 0 = true → 4 ≤ bits v.toNat 4 4 → bits v.toNat 4 4 ≤ 12 →
      ∃ u, exec (.twdCancel q c v) s = .next u ∧ u.flag r.cancel = true ∧ (u.tw c).code = some 4 ∧
        (u.ringSt r).cancelTo = some (s.fld r.prod) ∧ u.mem = s.mem ∧ u.threads = s.threads) ∧
    (∀ a cause mask rest, s.twd.halts = (a, cause, mask) :: rest → ∃ u, exec .twdErrorRecord s = .next u ∧
      u = { s with twd := { s.twd with halts := rest }, lull := { s.lull with offers := s.lull.offers ++
        [⟨2, cause, 5, 255, a % 2 ^ 32, bits a 32 12, mask, none, s.fld F.TWD_ERR_CFG_QUEUE, s.fld F.TWD_ERR_CFG_OWNER,
          s.flag F.TWD_ERR_CFG_ATTR_S⟩] } }) ∧
    (mine → halted = true → (s.ringSt r).cancelTo = none → ∃ u, exec (.twdResume q c) s = .next u ∧
      u.twdHalted c = false ∧ bit (u.reg R.TWD_HALTED) c = false ∧ u.twd = s.twd ∧ onlyRegs s u [st, R.TWD_HALTED]) ∧
    (mine → halted = true → ∃ u, exec (.twdAbort q c) s = .next u ∧ u.twdHalted c = false ∧
      bit (u.reg R.TWD_HALTED) c = false ∧ (u.tw c).code = (if s.flag r.busy then some 3 else x.code) ∧ u.mem = s.mem ∧
      u.threads = s.threads ∧ ∀ k, k ≠ st → k ≠ R.TWD_HALTED → u.reg k = s.reg k) ∧
    (halted = false → ∃ u, exec (.twdResume q c) s = .next u ∧ u.twdHalted c = false ∧ u.twd = s.twd) ∧
    (∃ u, exec (.twdErrCountClear q) s = .next u ∧ u.reg R.TWD_ERR_INFO = 0 ∧ u.reg R.TWD_ERR_ADDR = 0 ∧
      onlyRegs s u [R.TWD_ERR_INFO, R.TWD_ERR_ADDR])

/-- R409 to R419, R424 to R428: Gale. ENABLE starts frame 0 at its write, or at the end of a frame still in progress (log
entry 53). A sample frame takes the key actions that are due, moves every tone channel's phase and envelope and every ramp
on by one frame, ends a buffer that a CANCEL covers and counts a gap for each enabled stream without a buffer. KEY_ON and
KEY_OFF wait for the frame, before the events of their AUD cycle; a TARGET becomes the endpoint at once, or at the release
of XP_HOLD; a coefficient written to an active section makes two frames undefined and clears its state, as CLEAR does; a
buffer that has ended offers its record. A requester that GAL_OWN does not admit is refused. -/
def Obligations.GaleEngine : Prop :=
  ∀ (s : State) (q : Req) (v : BitVec 32), s.held = false →
    let mine := s.blockOn 0x18 = true ∧ s.admits q (s.fld F.GAL_OWN_OWNER) (s.flag F.GAL_OWN_S) = true
    let on := s.flag F.GAL_CTRL_ENABLE
    let hold := s.flag F.GAL_CTRL_XP_HOLD
    let ven := v.toNat.testBit 0
    let galOnly (u : State) (ks : List Nat) : Prop :=
      u = { s with regs := u.regs, gal := u.gal, resp := ⟨.ok, []⟩ } ∧ ∀ k, k ∉ ks → u.reg k = s.reg k
    (mine → hold = false ∨ v.toNat.testBit 2 = true → ∃ u, exec (.galEnable q v) s = .next u ∧
      u.flag F.GAL_CTRL_ENABLE = ven ∧ u.flag F.GAL_CTRL_XP_HOLD = v.toNat.testBit 2 ∧
      u.gal = (if on = false ∧ ven = true then { s.gal with t3 := max (3 * s.now) s.gal.t3 } else s.gal) ∧ galOnly u [R.GAL_CTRL]) ∧
    (∀ words late, on = false ∨ s.domOn 124 = false → exec (.sampleFrame words late) s = .next s) ∧
    (∀ words late, on = true → s.domOn 124 = true → ∃ u, exec (.sampleFrame words late) s = .next u ∧
      u.gal.keys = s.gal.keys.filter (fun e => !e.due s.gal.t3) ∧
      u.gal.t3 = s.gal.t3 + 31250 ∧ u.gal.begun = true ∧ s.gal.t3 ≤ 3 * u.now ∧ u.threads = s.threads ∧
      (u.reg R.GAL_FRAME = if s.gal.begun then (s.reg R.GAL_FRAME + 1) % 2 ^ 32 else s.reg R.GAL_FRAME) ∧
      (∀ c < 32, (∀ e ∈ s.gal.keys, e.due s.gal.t3 = false) → s.flag (F.GAL_TONE_STATUS_CAD_RUN c) = false →
        let x := s.tone c
        let e := envStep (s.fld (F.GAL_TONE_STATUS_ENV c)) (s.fld (F.GAL_TONE_STATUS_STATE c)) (s.reg (R.GAL_TONE_ATTACK c))
          (s.reg (R.GAL_TONE_DECAY c)) (s.reg (R.GAL_TONE_RELEASE c)) (min (s.reg (R.GAL_TONE_SUSTAIN c)) (2 ^ 23))
        (u.tone c).phi = (x.phi + s.reg (if x.toneB then R.GAL_TONE_INC_B c else R.GAL_TONE_INC_A c)) % 2 ^ 32 ∧
        u.fld (F.GAL_TONE_STATUS_ENV c) = e.1 ∧ u.fld (F.GAL_TONE_STATUS_STATE c) = e.2) ∧
      (∀ k x, k < 2048 → s.gal.xp = [(k, x)] → x.endp = x.gt → x.k < 64 →
        u.fld (F.GAL_XP_CURRENT (k / 64) (k % 64)) =
          ((x.g0 : Int) + (((x.gt : Int) - (x.g0 : Int)) * ((x.k + 1 : Nat) : Int)).tdiv 64).toNat % 2 ^ 16) ∧
      (∀ n < 16, s.flag (F.GAL_STR_CFG_ENABLE n) = true → (s.ringSt (.gal n)).stopping = false →
        (s.galBuf n = none → s.ringHeld (.gal n) = 0 →
          u.fld (cnt32 (R.GAL_STR_GAP n)) = satU 32 (s.fld (cnt32 (R.GAL_STR_GAP n)) + 1) ∧ u.galBuf n = none) ∧
        (∀ b, s.galBuf n = some b → b.code = none → (s.ringSt (.gal n)).cancelTo.isSome = true →
          u.galBuf n = some { b with code := some (1, 1, 0) })) ∧
      ((∀ n < 16, s.galBuf n = none ∧ s.ringHeld (.gal n) = 0) → u.mem = s.mem)) ∧
    (mine → ∀ c : Fin 32, Keyed (exec (.keyOn q c) s) s c 0 ∧ Keyed (exec (.keyOff q c) s) s c 1) ∧
    (mine → ∀ (o : Fin 32) (j : Fin 64), ∃ u, exec (.xpTargetWrite q o j v) s = .next u ∧
      u.fld (F.GAL_XP_TARGET o j) = v.toNat % 65536 ∧ u.fld (F.GAL_XP_CURRENT o j) = s.fld (F.GAL_XP_CURRENT o j) ∧
      u.xpNode (64 * o + j) = (if hold then s.xpNode (64 * o + j) else { s.xpNode (64 * o + j) with endp := v.toNat % 65536 }) ∧
      (∀ k, k ≠ 64 * o.val + j.val → u.xpNode k = s.xpNode k) ∧ galOnly u [R.GAL_XP o j]) ∧
    (mine → hold = true → ven = on → ∃ u, exec (.xpHoldRelease q v) s = .next u ∧ u.flag F.GAL_CTRL_XP_HOLD = false ∧
      (∀ o < 32, ∀ j < 64, (u.xpNode (64 * o + j)).endp = s.fld (F.GAL_XP_TARGET o j)) ∧ galOnly u [R.GAL_CTRL]) ∧
    (mine → ∀ (k : Fin 256) (j : Fin 5), ∃ u, exec (.bqCoefWrite q k j v) s = .next u ∧
      u.reg (R.GAL_BQ_B0 k + 4 * j) % 2 ^ 32 = v.toNat ∧
      u.bq k = (if on = true ∧ s.flag (F.GAL_BQ_CTL_BYPASS k) = false then { free := 2 } else s.bq k) ∧
      galOnly u [R.GAL_BQ_B0 k + 4 * j]) ∧
    (mine → ∀ k : Fin 256, ∃ u, exec (.bqClear q k v) s = .next u ∧ u.bq k = { free := (s.bq k).free } ∧
      u.flag (F.GAL_BQ_CTL_BYPASS k) = ven ∧ galOnly u [R.GAL_BQ_CTL k]) ∧
    (∀ (n : Fin 16) b kind st a, s.galBuf n = some b → b.code = some (kind, st, a) → (s.ringSt (.gal n)).tainted = [] →
      let r := Ring.gal n
      let owner := s.fld r.owner
      ∃ u, exec (.galBufferComplete n) s = .next u ∧ u.galBuf n = none ∧ u.flag r.busy = false ∧
        u.lull = { s.lull with offers := s.lull.offers ++
          [if kind = 1 then ⟨1, st, 6, n, b.tag, b.first, b.k, some r, s.fld r.queue, owner, s.flag r.attr⟩
            else ⟨2, st, 6, n, a % 2 ^ 32, bits a 32 12, b.tag, some r, s.fld r.queue, owner, s.flag r.attr⟩] } ∧
        u = { s with regs := u.regs, gal := u.gal, lull := u.lull } ∧ ∀ k, k ≠ r.cfgKey → u.reg k = s.reg k) ∧
    (mine → ∀ n : Fin 16, let r := Ring.gal n
      s.flag r.enable = true → s.flag r.cancel = false → s.ringHeld r ≠ 0 → ven = true → 4 ≤ bits v.toNat 4 4 →
      bits v.toNat 4 4 ≤ 12 → ∃ u, exec (.galCancel q n v) s = .next u ∧ u.flag r.cancel = true ∧
        (u.ringSt r).cancelTo = some (s.fld r.prod) ∧ u.gal = s.gal ∧
        u = { s with regs := u.regs, rings := u.rings, resp := ⟨.ok, []⟩ } ∧ ∀ k, k ≠ r.cfgKey → u.reg k = s.reg k) ∧
    (s.blockOn 0x18 = true → s.admits q (s.fld F.GAL_OWN_OWNER) (s.flag F.GAL_OWN_S) = false → ∀ c : Fin 32, ∃ u,
      exec (.keyOn q c) s = .next u ∧ u.resp.status = .refused ∧ u.gal = s.gal ∧
      u.fld (cnt32 R.SYS_VIOL_COUNT) = satU 32 (s.fld (cnt32 R.SYS_VIOL_COUNT) + 1))

/-! ### Ports -/

/-- R432 to R436, R533: the CXL ports. LINK_EN starts training, which ends up or failed; MEM_EN is set when the link is up
and the ranges stand, else CFG_ERR is; a configuration or MMIO access goes to the device, a missing function reads all
ones, and a link that is down answers with an error and counts it; a memory access in a range that decodes goes to its
port; a completion returns its data, or performs the write; poison, a timeout and a lost link are error responses that are
counted. -/
def Obligations.CxlPorts : Prop :=
  ∀ (s : State) (q : Req) (p : Fin 2) (v : BitVec 32) (kind : ReqKind) (n : Nat) (data : List Byte), s.held = false →
    let state := s.fld (F.CXL_STATUS_LINK_STATE p)
    let il := s.flag (F.CXL_CTRL_IL_EN 0)
    let mine := q.s = true ∧ s.blockOn (0x20 + p) = true ∧ (p.val = 0 → v.toNat.testBit 3 = il)
    let counted (u : State) (j : Nat) : Prop :=
      u.fld (cnt32 (R.CXL_ERR_COUNT p)) = satU 32 (s.fld (cnt32 (R.CXL_ERR_COUNT p)) + j)
    let base (h : Nat) : Nat := s.fld (F.CXL_HDM_BASE h)
    let size (h : Nat) : Nat := s.fld (F.CXL_HDM_SIZE h)
    (mine → s.flag (F.CXL_CTRL_LINK_EN p) = false → v.toNat.testBit 2 = false → ∃ u, exec (.cxlLinkEn q p v) s = .next u ∧
      u.flag (F.CXL_CTRL_LINK_EN p) = true ∧ u.fld (F.CXL_STATUS_LINK_STATE p) = 1 ∧ u.fld (F.CXL_STATUS_WIDTH p) = 0 ∧
      u.flag (F.CXL_CTRL_MEM_EN p) = false ∧ onlyRegs s u [R.CXL_CTRL p, R.CXL_STATUS p]) ∧
    (∀ w : Fin 4, (state ≠ 1 → exec (.cxlLinkUp p w) s = .next s) ∧
      (state = 1 → ∃ u, exec (.cxlLinkUp p w) s = .next u ∧
        u.fld (F.CXL_STATUS_LINK_STATE p) = (if w.val = 0 then 3 else 2) ∧
        (w.val ≠ 0 → u.fld (F.CXL_STATUS_WIDTH p) = w) ∧ u = { s with regs := u.regs } ∧
        ∀ k, k ≠ R.CXL_STATUS p → u.reg k = s.reg k)) ∧
    (mine → v.toNat.testBit 1 = s.flag (F.CXL_CTRL_LINK_EN p) →
      let z := if il then size 0 else size p
      let apart : Prop := base p + size p ≤ base (1 - p.val) ∨ base (1 - p.val) + size (1 - p.val) ≤ base p
      let ok : Prop := state = 2 ∧ 1 ≤ z ∧ z ≤ 2048 ∧ (if il then base 0 + 2 * size 0 else base p + size p) ≤ 4096 ∧
        (il = true ∨ s.flag (F.CXL_CTRL_MEM_EN (1 - p.val)) = false ∨ apart)
      ∃ u, exec (.memEn q p v) s = .next u ∧ (ok → u.flag (F.CXL_CTRL_MEM_EN p) = true ∧
          u.reg (R.CXL_STATUS p) = s.reg (R.CXL_STATUS p)) ∧
        (¬ ok → u.flag (F.CXL_CTRL_MEM_EN p) = s.flag (F.CXL_CTRL_MEM_EN p) ∧ u.flag (F.CXL_STATUS_CFG_ERR p) = true) ∧
        onlyRegs s u [R.CXL_CTRL p, R.CXL_STATUS p]) ∧
    (∀ o : BitVec 28, s.domOn (141 + p) = true →
      let i := o.toNat
      p.val = (if i < 0x2000000 then i / 0x1000000 else (i - 0x2000000) / 0x7000000) →
      let missing : Prop := i < 0x2000000 ∧ ¬ (i / 2 ^ 20 % 16 = 1 ∧ i / 2 ^ 12 % 256 = 0)
      (missing → exec (.cxlConfigAccess q kind o n data) s =
        .next { s with resp := ⟨.ok, if kind = .write then [] else List.replicate n 0xFF⟩ }) ∧
      (¬ missing → state = 2 → exec (.cxlConfigAccess q kind o n data) s = .next { s with
        outst := s.outst ++ [⟨4 + p, kind, q, cxlCfgBase + i, n, data, .sender⟩],
        out := s.out ++ [⟨.cxlRequest, [p.val, reqKindCode kind, cxlCfgBase + i, n], data⟩] }) ∧
      (¬ missing → state ≠ 2 → ∃ u, exec (.cxlConfigAccess q kind o n data) s = .next u ∧ u.resp = ⟨.error, []⟩ ∧
        counted u 1 ∧ onlyRegs s u [R.CXL_ERR_COUNT p])) ∧
    (∀ o : BitVec 40, let i := o.toNat
      let g := i / 0x10000000
      let inside (h : Nat) : Prop := base h ≤ g ∧ g < base h + (if il then 2 * size h else size h)
      let serves (h : Nat) : Prop := s.domOn (141 + h) = true ∧ s.flag (F.CXL_CTRL_MEM_EN h) = true ∧
        s.fld (F.CXL_STATUS_LINK_STATE h) = 2
      let mine : Prop := if il then inside 0 ∧ (i - base 0 * 0x10000000) / 4096 % 2 = p.val
        else inside p ∧ (p.val = 0 ∨ ¬ (inside 0 ∧ serves 0))
      (mine → serves p → exec (.cxlMemoryAccess q kind o n data) s = .next { s with
        outst := s.outst ++ [⟨4 + p, kind, q, cxlBase + i, n, data, .sender⟩],
        out := s.out ++ [⟨.cxlRequest, [p.val, reqKindCode kind, cxlBase + i, n], data⟩] }) ∧
      (¬ inside 0 → (il = false → ¬ inside 1) → ∃ u, exec (.cxlMemoryAccess q kind o n data) s = .next u ∧
        u.resp = ⟨.error, []⟩ ∧ u.outst = s.outst ∧ onlyRegs s u [R.CXL_ERR_COUNT 0])) ∧
    (state ≠ 2 → exec (.cxlLinkLost p) s = .next s) ∧
    (state = 2 → ∃ u, exec (.cxlLinkLost p) s = .next u ∧ u.fld (F.CXL_STATUS_LINK_STATE p) = 0 ∧
      u.fld (F.CXL_STATUS_WIDTH p) = 0 ∧ u.flag (F.CXL_STATUS_LINK_LOST p) = true ∧ counted u (s.outAt (4 + p)).length ∧
      u.outst = s.outst.filter (fun o => o.port != 4 + p.val) ∧ u.mem = s.mem ∧
      ((∃ o ∈ s.outAt (4 + p), o.waiter = .sender) → (∀ o ∈ s.outAt (4 + p), o.waiter = .sender) → u.resp = ⟨.error, []⟩)) ∧
    (∀ k o rest, takeAt (4 + p) k s.outst = some (o, rest) → o.waiter = .sender →
      let first : Prop := ∀ y ∈ (s.outAt (4 + p)).take k, y.before o = false
      (∃ t u, exec (.cxlCompletionTimeout p k) s = .next u ∧ onlyRegs s t [R.CXL_ERR_COUNT p] ∧
        (s.domOn (141 + p) = true → counted t 1) ∧ Answered t u o rest ⟨.error, []⟩) ∧
      (first → o.addr < cxlBase → let m := if o.kind = .write then 0 else o.size
        let bs := data.take m ++ List.replicate (m - data.length) 0
        ∃ u, exec (.cxlCompletion p k data false) s = .next u ∧ Answered s u o rest ⟨.ok, bs⟩) ∧
      (first → o.addr < cxlBase → s.domOn (141 + p) = true → ∃ t u, exec (.cxlCompletion p k data true) s = .next u ∧
        onlyRegs s t [R.CXL_ERR_COUNT p, R.CXL_STATUS p] ∧ t.flag (F.CXL_STATUS_POISON p) = true ∧ counted t 1 ∧
        Answered t u o rest ⟨.error, []⟩) ∧
      (∀ i h, first → o.addr = cxlBase + i → s.cxlPort i = some h → s.cxlTaint = false → s.ecc = [] →
        (o.kind = .read → ∃ u, exec (.cxlCompletion p k data false) s = .next u ∧
          Answered s u o rest ⟨.ok, s.bytes o.addr o.size⟩) ∧
        (o.kind = .write → ∃ u, exec (.cxlCompletion p k data false) s = .next u ∧ u.outst = rest ∧ u.resp = ⟨.ok, []⟩ ∧
          u.bytes o.addr o.data.length = o.data ∧
          (∀ a, ¬ (o.addr ≤ a ∧ a < o.addr + o.data.length) → u.byte a = s.byte a) ∧
          (s.foreign o.req → u.regs = s.regs ∧ u.threads = s.threads))) ∧
      (¬ first → ∀ b, exec (.cxlCompletion p k data b) s = .next s))

/-- R19, R20, R437 to R439, R441, R525, R533: the Atsobry links and the peer windows. EN starts training, and a training
in which three lanes pass brings the port up on four or three; a failed lane is replaced by the spare, or the port goes on
with three lanes, or goes back to training; a codeword that fails is counted and sent again; a link that goes down answers
what was outstanding with errors. A peer window access is sent while the port is up and fewer than 256 are outstanding; a
peer's request is performed in the pool under the peer's tag and answered; a response reaches its requester. -/
def Obligations.AtsobryAndPeers : Prop :=
  ∀ (s : State) (q : Req) (n : Fin 4) (v : BitVec 32), s.held = false →
    let st := s.fld (F.ATS_STATUS_STATE n)
    let x := s.atsPort n
    let again : Fld := F.ATS_CTRL_RETRAIN n
    let mine := q.s = true ∧ s.blockOn (0x24 + n) = true
    let down (u : State) : Prop := u.fld (F.ATS_STATUS_STATE n) = 1 ∧ u.flag (F.ATS_STATUS_LINK_LOST n) = true ∧
      u.fld (F.ATS_STATUS_ACTIVE n) = 0 ∧ u.fld (F.ATS_STATUS_FAILED n) = 0 ∧ (u.atsPort n).active = [] ∧
      u.outst = s.outst.filter (fun o => o.port != n.val) ∧ (n.val ≠ s.pos → u.isLive n = false) ∧ u.mem = s.mem
    let trains (u : State) : Prop := u.fld (F.ATS_STATUS_STATE n) = 1 ∧ u.fld (F.ATS_STATUS_FAILED n) = 0 ∧
      u.atsPort n = { budget := bits v.toNat 8 16 }
    (mine → s.flag (F.ATS_CTRL_EN n) = false → ∃ u, exec (.atsEn q n v) s = .next u ∧ u.flag (F.ATS_CTRL_EN n) = true ∧
      trains u ∧ u = { s with regs := u.regs, ports := u.ports, resp := u.resp } ∧
      ∀ k, k ≠ R.ATS_CTRL n → k ≠ R.ATS_STATUS n → u.reg k = s.reg k) ∧
    (mine → s.flag (F.ATS_CTRL_EN n) = true → v.toNat.testBit 0 = true →
      (s.flag again = false → st = 2 → ∃ u, exec (.retrain q n v) s = .next u ∧ down u ∧ u.flag again = true) ∧
      (s.flag again = false → st ≠ 2 → ∃ u, exec (.retrain q n v) s = .next u ∧ trains u ∧ u.flag again = true ∧
        ∀ k, k ≠ R.ATS_CTRL n → k ≠ R.ATS_STATUS n → u.reg k = s.reg k) ∧
      (s.flag again = true → ∃ u, exec (.retrain q n v) s = .next u ∧ u.flag again = true ∧
        onlyRegs s u [R.ATS_CTRL n])) ∧
    (∀ pass : BitVec 5, let l := (List.range 5).filter (fun i => pass.toNat.testBit i)
      (st ≠ 1 ∨ l.length < 3 → exec (.atsTrainDone n pass) s = .next s) ∧
      (st = 1 → 3 ≤ l.length → ∃ u, exec (.atsTrainDone n pass) s = .next u ∧ u.fld (F.ATS_STATUS_STATE n) = 2 ∧
        (u.atsPort n).active = l.take 4 ∧ (u.atsPort n).spare = l[4]? ∧ u.flag again = false ∧
        u.fld (F.ATS_STATUS_ACTIVE n) = (if l.length = 3 then 1 else 2) ∧
        u = { s with regs := u.regs, ports := u.ports } ∧
        ∀ k, k ≠ R.ATS_STATUS n → k ≠ R.ATS_CTRL n → u.reg k = s.reg k)) ∧
    (∀ (l : Fin 5) (c : Option Nat), st = 2 →
      let fails : Prop := (c = none ∧ (l.val ∈ x.active ∨ x.spare = some l.val)) ∨
        (l.val ∈ x.active ∧ ∃ k, c = some k ∧ x.budget ≤ k)
      let noted (u : State) : Prop := u.flag (F.ATS_STATUS_LANE_EVT n) = true ∧ bit (u.fld (F.ATS_STATUS_FAILED n)) l = true ∧
        u.fld (F.ATS_STATUS_STATE n) = 2 ∧ u = { s with regs := u.regs, ports := u.ports } ∧
        ∀ k, k ≠ R.ATS_STATUS n → u.reg k = s.reg k
      (¬ fails → exec (.laneFail n l c) s = .next s) ∧
      (fails → x.spare = some l.val → ∃ u, exec (.laneFail n l c) s = .next u ∧ noted u ∧
        u.atsPort n = { x with spare := none }) ∧
      (∀ sp, fails → x.spare = some sp → sp ≠ l.val → ∃ u, exec (.laneFail n l c) s = .next u ∧ noted u ∧
        u.atsPort n = { x with active := x.active.map (fun y => if y = l.val then sp else y), spare := none }) ∧
      (fails → x.spare = none → x.active.length = 4 → ∃ u, exec (.laneFail n l c) s = .next u ∧ noted u ∧
        u.atsPort n = { x with active := x.active.filter (· != l.val) } ∧
        ((x.active.filter (· != l.val)).length = 3 → u.fld (F.ATS_STATUS_ACTIVE n) = 1)) ∧
      (fails → x.spare = none → x.active.length ≠ 4 → ∃ u, exec (.laneFail n l c) s = .next u ∧ down u)) ∧
    (∀ c k, st = 2 → ∃ u, exec (.codewordReplay n c k) s = .next u ∧
      u.fld (cnt32 (R.ATS_FEC_CE n)) = satU 32 (s.fld (cnt32 (R.ATS_FEC_CE n)) + c) ∧
      u.fld (cnt32 (R.ATS_FEC_UE n)) = satU 32 (s.fld (cnt32 (R.ATS_FEC_UE n)) + 1) ∧
      (16 ≤ k → down u) ∧ (k < 16 → u = { s with regs := u.regs, out := s.out ++ [⟨.codewordReplay, [n.val], []⟩] } ∧
        ∀ r, r ≠ R.ATS_FEC_CE n → r ≠ R.ATS_FEC_UE n → u.reg r = s.reg r)) ∧
    (st = 2 → ∃ u, exec (.atsLinkLost n) s = .next u ∧ down u) ∧
    (st ≠ 2 → exec (.atsLinkLost n) s = .next s ∧ ∀ c k, exec (.codewordReplay n c k) s = .next s) ∧
    (∀ (kind : ReqKind) (o : BitVec 28) (m : Nat) (data : List Byte), n.val ≠ s.pos →
      let size := match kind with
        | .read => m
        | .write => data.length
        | .atomic _ => 8
      let load : List Byte := match kind with
        | .read => []
        | .write => data
        | .atomic _ => toBytes 8 (leAt data 0 8) ++ toBytes 8 (leAt data 8 8)
      let a := peerBase + n.val * 0x10000000 + o.toNat
      1 ≤ size → o.toNat + size ≤ poolSize →
      (s.atsUp n = false → exec (.peerWindowRequest q kind n o m data) s = .next { s with resp := ⟨.error, []⟩ }) ∧
      (s.atsUp n = true → 256 ≤ (s.outAt n).length → exec (.peerWindowRequest q kind n o m data) s = .next s) ∧
      (s.atsUp n = true → (s.outAt n).length < 256 → exec (.peerWindowRequest q kind n o m data) s = .next { s with
        outst := s.outst ++ [⟨n.val, kind, q, a, size, load, .sender⟩],
        out := s.out ++ [⟨.peerRequest, [n.val, reqKindCode kind, o.toNat, size, q.tag.toNat, b2n q.s], load⟩] })) ∧
    (∀ (o : BitVec 28) (m : Nat) (data : List Byte), s.atsUp n = true → posOf q = n.val → n.val ≠ s.pos → 1 ≤ m →
      o.toNat % 64 + m ≤ 64 →
      (PoolOpen s q false o.toNat m → exec (.peerRequestReceive n q .read o m data) s = .next { s with
        out := s.out ++ [⟨.peerResponse, [n.val, 0], s.bytes (poolBase + o.toNat) m⟩] }) ∧
      (PoolOpen s q true o.toNat m → data.length = m → ∃ u, exec (.peerRequestReceive n q .write o m data) s = .next u ∧
        u.bytes (poolBase + o.toNat) m = data ∧ u.out = s.out ++ [⟨.peerResponse, [n.val, 0], []⟩] ∧
        (∀ j, ¬ (poolBase + o.toNat ≤ j ∧ j < poolBase + o.toNat + m) → u.byte j = s.byte j) ∧ u.regs = s.regs ∧
        u.threads = s.threads) ∧
      (o.toNat + m ≤ poolSize → (∃ b ∈ banksAt o.toNat m, s.bankAdmits q false b = false) → ∃ u,
        exec (.peerRequestReceive n q .read o m data) s = .next u ∧
        u.out = s.out ++ [⟨.peerResponse, [n.val, 1], List.replicate m 0⟩] ∧ u.mem = s.mem ∧
        u.fld (cnt32 R.POOL_VIOL_COUNT) = satU 32 (s.fld (cnt32 R.POOL_VIOL_COUNT) + 1))) ∧
    (∀ k o rest (data : List Byte), s.atsUp n = true → takeAt n k s.outst = some (o, rest) → o.waiter = .sender →
      let m := if o.kind = .write then 0 else o.size
      let first : Prop := ∀ y ∈ (s.outAt n).take k, y.req ≠ o.req
      (first → (∃ u, exec (.peerWindowResponse n k .ok data) s = .next u ∧
          Answered s u o rest ⟨.ok, data.take m ++ List.replicate (m - data.length) 0⟩) ∧
        (∃ u, exec (.peerWindowResponse n k .refused data) s = .next u ∧
          Answered s u o rest ⟨.refused, List.replicate m 0⟩) ∧
        ∃ u, exec (.peerWindowResponse n k .error data) s = .next u ∧ Answered s u o rest ⟨.error, []⟩) ∧
      (¬ first → ∀ r, exec (.peerWindowResponse n k r data) s = .next s))

/-- R442, R444 to R450: the Ethernet MACs. EN sets the MAC up; LINK_UP follows block lock; a descriptor's frame is sent
with its FCS and completes with its stamp; a frame that arrives too short, too long or with a wrong FCS is counted, a good
one is written to the next RX descriptor and completes, or is dropped and counted without one, and one that a rule matches
gives a sample record; ETH_PPS goes high at TIME, which moves on by PERIOD, and low again; GO runs one MDIO frame, on MAC
0 only. -/
def Obligations.Ethernet : Prop :=
  ∀ (s : State) (q : Req) (e : Fin 2) (v : BitVec 32), s.held = false →
    let mine := q.s = true ∧ s.blockOn (0x28 + e) = true
    let m := s.mac e
    let now := s.stc % 2 ^ 32
    let tx := Ring.ethTx e
    let rx := Ring.ethRx e
    let record (r : Ring) (st a b c : Nat) : LRec :=
      ⟨1, st, r.unit.1, r.unit.2, a, b, c, some r, s.fld r.queue, s.fld r.owner, s.flag r.attr⟩
    let offered (u : State) (x : LRec) : Prop := u.lull = { s.lull with offers := s.lull.offers ++ [x] }
    (mine → ∃ u, exec (.ethEn q e v) s = .next u ∧ u.flag (F.ETH_CTRL_EN e) = true ∧
      (s.flag (F.ETH_CTRL_EN e) = false → u.fld (F.ETH_CTRL_SPEED e) = bits v.toNat 1 1 ∧
        u.fld (F.ETH_CTRL_FEC e) = bits v.toNat 2 2) ∧
      (s.flag (F.ETH_CTRL_EN e) = true → u.reg (R.ETH_CTRL e) = s.reg (R.ETH_CTRL e)) ∧ onlyRegs s u [R.ETH_CTRL e]) ∧
    (s.domOn (147 + e) = true → s.flag (F.ETH_CTRL_EN e) = true →
      (∃ u, exec (.ethLinkUp e) s = .next u ∧ u.flag (F.ETH_CTRL_LINK_UP e) = true ∧ u = { s with regs := u.regs } ∧
        ∀ k, k ≠ R.ETH_CTRL e → u.reg k = s.reg k) ∧
      (∃ u, exec (.ethLinkDown e) s = .next u ∧ u.flag (F.ETH_CTRL_LINK_UP e) = false ∧ u = { s with regs := u.regs } ∧
        ∀ k, k ≠ R.ETH_CTRL e → u.reg k = s.reg k)) ∧
    (∀ o b, s.ethUp e = true → s.ringReady tx = true → s.flag (F.ETH_TX_STATUS_HALTED e) = false →
      s.slotAddr tx (s.fld tx.cons) = poolBase + o → PoolOpen s (s.ringReq tx) false o 16 → (s.ringSt tx).tainted = [] →
      let a := poolBase + o
      let len := s.num (a + 8) 4 % 2 ^ 14
      let tag := s.num (a + 12) 4
      let stamp := if bit (s.num (a + 8) 4) 31 then now else 0
      (60 ≤ len → len ≤ 9212 → s.num a 8 = poolBase + b → PoolOpen s (s.ringReq tx) false b len →
        let f := s.bytes (poolBase + b) len
        ∃ u, exec (.frameTransmit e) s = .next u ∧ u.out = s.out ++ [⟨.frame, [e.val], f ++ toBytes 4 (crc32 f)⟩] ∧
          offered u (record tx 0 tag len stamp) ∧ u = { s with lull := u.lull, out := u.out }) ∧
      (len < 60 ∨ 9212 < len → ∃ u, exec (.frameTransmit e) s = .next u ∧ offered u (record tx 1 tag len 0) ∧
        u = { s with lull := u.lull })) ∧
    (∀ bs : List Byte, s.ethUp e = true →
      let f := bs.take (bs.length - 4)
      let p := ethPayload f
      let bad : Prop := bs.length < 64 ∨ 9216 < bs.length ∨ ofBytes (bs.drop (bs.length - 4)) ≠ crc32 f
      let errors (u : State) (g : Fld) : Prop := u.fld g = satU 16 (s.fld g + 1) ∧ u = { s with regs := u.regs } ∧
        ∀ k, k ≠ R.ETH_RX_ERR e → u.reg k = s.reg k
      (bad → ∃ u, exec (.frameReceive e bs) s = .next u ∧ errors u (F.ETH_RX_ERR_FCS e)) ∧
      (¬ bad → s.ruleMatch e p.1 p.2.1 = none →
        (s.ringReady rx = false ∨ s.flag (F.ETH_RX_STATUS_HALTED e) = true → ∃ u,
          exec (.frameReceive e bs) s = .next u ∧ errors u (F.ETH_RX_ERR_DROP e)) ∧
        (∀ o b, s.ringReady rx = true → s.flag (F.ETH_RX_STATUS_HALTED e) = false →
          s.slotAddr rx (s.fld rx.cons) = poolBase + o → PoolOpen s (s.ringReq rx) false o 16 → (s.ringSt rx).tainted = [] →
          let n := min f.length (s.num (poolBase + o + 8) 4)
          s.num (poolBase + o) 8 = poolBase + b → 1 ≤ n → PoolOpen s (s.ringReq rx) true b n →
          (∀ w ∈ (s.ringSt rx).watch, meets (poolBase + b) n w.2.1 w.2.2 = false) →
          ∃ u, exec (.frameReceive e bs) s = .next u ∧ u.bytes (poolBase + b) n = f.take n ∧
            (∀ j, ¬ (poolBase + b ≤ j ∧ j < poolBase + b + n) → u.byte j = s.byte j) ∧
            offered u (record rx (if n < f.length then 1 else 0) (s.num (poolBase + o + 12) 4)
              (f.length + 65536 * b2n p.2.2) now) ∧ u.regs = s.regs ∧ u.threads = s.threads)) ∧
      (∀ r x o, ¬ bad → s.ruleMatch e p.1 p.2.1 = some (r, x) → s.flag (F.ETH_RULE_CFG_PASS e r) = false →
        let i := AMap.get m.counts (32 * e + r) 0
        let a := s.fld (F.ETH_RULE_ADDR_ADDR e r) * 16 + 16 * (i % 2 ^ s.fld (F.ETH_RULE_CFG_COUNT_LOG2 e r))
        let body := toBytes 8 x ++ toBytes 4 now ++ toBytes 2 (s.fld (F.ETH_RULE_SRC_SOURCE_ID e r))
        a = poolBase + o →
        PoolOpen s (s.engine (s.fld (F.ETH_RULE_OWN_OWNER e)) (s.flag (F.ETH_RULE_OWN_S e))) true o 16 →
        ∃ u, exec (.frameReceive e bs) s = .next u ∧ u.bytes a 16 = body ++ toBytes 2 (crc16 body) ∧
          (∀ j, ¬ (a ≤ j ∧ j < a + 16) → u.byte j = s.byte j) ∧ AMap.get (u.mac e).counts (32 * e + r) 0 = i + 1 ∧
          u.regs = s.regs ∧ u.lull = s.lull ∧ u.threads = s.threads)) ∧
    (let t := s.reg (R.ETH_PPS_AT e)
      let p := s.fld (F.ETH_PPS_CFG_PERIOD e)
      (s.domOn (147 + e) = true → s.flag (F.ETH_PPS_CFG_PPS_EN e) = true → t ≤ s.stc →
        (p ≠ 0 → ∃ u, exec (.ppsPulse e) s = .next u ∧ (u.mac e).pps = some (s.now / 5 + 1000) ∧
          u.reg (R.ETH_PPS_AT e) = (t + ((s.stc - t) / p + 1) * p) % 2 ^ 64 ∧
          u = { s with regs := u.regs, ports := u.ports } ∧ ∀ k, k ≠ R.ETH_PPS_AT e → u.reg k = s.reg k) ∧
        (p = 0 → m.once = false → ∃ u, exec (.ppsPulse e) s = .next u ∧
          u.mac e = { m with pps := some (s.now / 5 + 1000), once := true } ∧ u = { s with ports := u.ports }) ∧
        (p = 0 → m.once = true → exec (.ppsPulse e) s = .next s)) ∧
      (∀ w, m.pps = some w → ∃ u, exec (.ppsPulseEnd e) s = .next u ∧ u.mac e = { m with pps := none } ∧
        5 * w ≤ u.now ∧ u.mem = s.mem ∧ u.threads = s.threads)) ∧
    (mine → (e.val = 1 → exec (.mdioGo q e v) s = .next { s with resp := ⟨.ok, []⟩ }) ∧
      (e.val = 0 → s.flag (F.ETH_MDIO_GO 0) = false → ∃ u, exec (.mdioGo q e v) s = .next u ∧
        u.flag (F.ETH_MDIO_GO 0) = true ∧ u.out = s.out ++ [⟨.mdio, [bits v.toNat 30 1, bits v.toNat 28 2, bits v.toNat 23 5,
          bits v.toNat 18 5, bits v.toNat 0 16], []⟩] ∧
        u = { s with regs := u.regs, ports := u.ports, out := u.out, resp := ⟨.ok, []⟩ } ∧
        ∀ k, k ≠ R.ETH_MDIO 0 → u.reg k = s.reg k)) ∧
    (∀ d : BitVec 16, (s.flag (F.ETH_MDIO_GO 0) = false → exec (.mdioDone d) s = .next s) ∧
      (s.flag (F.ETH_MDIO_GO 0) = true → let w := (s.mac 0).mdio
        let reads : Prop := bits w 28 2 = if bit w 30 then 3 else 2
        ∃ u, exec (.mdioDone d) s = .next u ∧ u.flag (F.ETH_MDIO_GO 0) = false ∧
          (reads → u.fld (F.ETH_MDIO_DATA 0) =
            if s.pinFunc 243 ≠ 8 then 0xFFFF else if s.pinPg 243 then d.toNat else 0) ∧
          (¬ reads → u.fld (F.ETH_MDIO_DATA 0) = s.fld (F.ETH_MDIO_DATA 0)) ∧ u = { s with regs := u.regs } ∧
          ∀ k, k ≠ R.ETH_MDIO 0 → u.reg k = s.reg k))

/-- R452, R453, R455, R478: the boot flash, the board I2C and the debug UART. GO runs one flash command or one I2C
transaction, which ends with its data or its error bit; a UART byte enters and leaves the FIFOs, and one that finds its
FIFO full is lost and sets the overrun bit. -/
def Obligations.BoardPorts : Prop :=
  ∀ (s : State) (q : Req) (v : BitVec 32), s.held = false →
    let only (u : State) (ks : List Nat) : Prop := u = { s with regs := u.regs } ∧ ∀ k, k ∉ ks → u.reg k = s.reg k
    let words (key : Nat → Nat) (j : Nat) : List Byte := (List.range j).flatMap (fun i => toBytes 4 (s.reg (key i)))
    (q.s = true → s.blockOn 0x2C = true → s.flag F.XSPI_CMD_GO = false → let n := min 256 (bits v.toNat 16 9)
      (bits v.toNat 8 2 = 3 → ∃ u, exec (.xspiGo q v) s = .next u ∧ u.flag F.XSPI_CMD_GO = false ∧ u.out = s.out ∧
        onlyRegs s u [R.XSPI_CMD]) ∧
      (bits v.toNat 8 2 ≠ 3 → ∃ u, exec (.xspiGo q v) s = .next u ∧ u.flag F.XSPI_CMD_GO = true ∧
        u.out = s.out ++ [⟨.xspi, [bits v.toNat 0 8, bits v.toNat 8 2, s.reg R.XSPI_ADDR, bits v.toNat 10 6, n,
          bits v.toNat 30 1, s.fld F.XSPI_CFG_OCTAL], if v.toNat.testBit 30 then (words R.XSPI_DATA 64).take n else []⟩] ∧
        u = { s with regs := u.regs, out := u.out, resp := ⟨.ok, []⟩ } ∧ ∀ k, k ≠ R.XSPI_CMD → u.reg k = s.reg k)) ∧
    (∀ (data : List Byte) (late : Bool), s.flag F.XSPI_CMD_GO = true → let n := min 256 (s.fld F.XSPI_CMD_LEN)
      let stopped : Prop := late = true ∧ s.flag F.XSPI_CFG_OCTAL = true
      (s.flag F.XSPI_CMD_WRITE = true → ∃ u, exec (.xspiDone data late) s = .next u ∧ u.flag F.XSPI_CMD_GO = false ∧
        only u [R.XSPI_CMD]) ∧
      (s.flag F.XSPI_CMD_WRITE = false → data.length = n → ∃ u, exec (.xspiDone data late) s = .next u ∧
        u.flag F.XSPI_CMD_GO = false ∧ (u.xspiData 256).take n = data ∧ (u.xspiData 256).drop n = (s.xspiData 256).drop n ∧
        (stopped → u.flag F.XSPI_STATUS_TIMEOUT = true) ∧
        (¬ stopped → u.reg R.XSPI_STATUS = s.reg R.XSPI_STATUS) ∧ u = { s with regs := u.regs } ∧
        ∀ k, k ≠ R.XSPI_CMD → k ≠ R.XSPI_STATUS → (∀ i < 64, k ≠ R.XSPI_DATA i) → u.reg k = s.reg k)) ∧
    (∀ (n : Fin 2) (low : Bool), q.s = true → s.blockOn 0x2D = true → s.flag (F.BMI_CMD_GO n) = false →
      bits v.toNat 16 5 ≤ 16 → bits v.toNat 24 5 ≤ 16 →
      (s.flag (F.BMI_CFG_EN n) = false → ∃ u, exec (.bmiGo q n v low) s = .next u ∧ u.flag (F.BMI_CMD_GO n) = false ∧
        onlyRegs s u [R.BMI_CMD n]) ∧
      (s.flag (F.BMI_CFG_EN n) = true → ∃ u, exec (.bmiGo q n v low) s = .next u ∧ u.flag (F.BMI_CMD_GO n) = true ∧
        (u.flag (F.BMI_STATUS_RECOVERED n) =
          (s.flag (F.BMI_STATUS_RECOVERED n) ||
            (decide (s.pinFunc (225 + 2 * n) = 5) && (low || !s.pinPg (225 + 2 * n))))) ∧
        u.out = s.out ++ [⟨.bmi, [n.val, bits v.toNat 0 7, bits v.toNat 16 5, bits v.toNat 24 5],
          (words (R.BMI_DATA n) 4).take (bits v.toNat 16 5)⟩] ∧
        u = { s with regs := u.regs, out := u.out, resp := ⟨.ok, []⟩ } ∧
        ∀ k, k ≠ R.BMI_CMD n → k ≠ R.BMI_STATUS n → u.reg k = s.reg k)) ∧
    (∀ n : Fin 2,
      let acked (u : State) (k : Nat) : Prop := u.fld (F.BMI_STATUS_ACKED n) = k ∧ u.flag (F.BMI_CMD_GO n) = false
      let wlen := s.fld (F.BMI_CMD_WLEN n)
      let ks := [R.BMI_CMD n, R.BMI_STATUS n]
      let carries (k : Nat) : Prop := s.pinFunc (224 + 2 * n + k) = 5
      let good : Prop := s.pinPg (224 + 2 * n) = true
      (s.flag (F.BMI_CMD_GO n) = false → ∀ how, exec (.bmiDone n how) s = .next s) ∧
      (s.flag (F.BMI_CMD_GO n) = true → ∀ how, ∃ u, exec (.bmiDone n how) s = .next u ∧
        (carries 0 → ¬ good → acked u 0 ∧ u.flag (F.BMI_STATUS_TIMEOUT n) = true ∧ only u ks) ∧
        (¬ carries 0 → carries 1 → ¬ good → acked u 0 ∧ u.flag (F.BMI_STATUS_ARB_LOST n) = true ∧ only u ks) ∧
        (¬ (carries 0 ∧ carries 1) → (carries 0 ∨ carries 1 → good) → 1 ≤ wlen → acked u 0 ∧
          u.flag (F.BMI_STATUS_NACK_ADDR n) = true ∧ only u ks)) ∧
      (s.flag (F.BMI_CMD_GO n) = true → carries 0 → carries 1 → good →
        (∀ data : List Byte, data.length = s.fld (F.BMI_CMD_RLEN n) → data.length ≤ 16 → ∃ u,
          exec (.bmiDone n (.stop data)) s = .next u ∧ acked u wlen ∧
          ((List.range 4).flatMap (fun i => toBytes 4 (u.reg (R.BMI_DATA n i)))).take data.length = data ∧
          only u (ks ++ [R.BMI_DATA n 0, R.BMI_DATA n 1, R.BMI_DATA n 2, R.BMI_DATA n 3])) ∧
        (∃ u, exec (.bmiDone n .nackAddr) s = .next u ∧ acked u 0 ∧ u.flag (F.BMI_STATUS_NACK_ADDR n) = true ∧ only u ks) ∧
        ∀ k : Nat, (∃ u, exec (.bmiDone n (.nackData k)) s = .next u ∧ acked u (min k wlen) ∧
            u.flag (F.BMI_STATUS_NACK_DATA n) = true ∧ only u ks) ∧
          (∃ u, exec (.bmiDone n (.stretch k)) s = .next u ∧ acked u (min k wlen) ∧
            u.flag (F.BMI_STATUS_TIMEOUT n) = true ∧ only u ks) ∧
          (∃ u, exec (.bmiDone n (.arbLost k)) s = .next u ∧ acked u (min k wlen) ∧
            u.flag (F.BMI_STATUS_ARB_LOST n) = true ∧ only u ks))) ∧
    (∀ b : Byte, let t := s.ports.tx
      let r := s.ports.rx
      let isOpen := s.uartOpen
      (q.s = true → s.blockOn 0x2E = true → isOpen = true →
        (t.length < 16 → ∃ u, exec (.dbguTxWrite q b) s = .next u ∧ u.ports = { s.ports with tx := t ++ [b.toNat] } ∧
          u = { s with ports := u.ports, resp := ⟨.ok, []⟩ }) ∧
        (16 ≤ t.length → ∃ u, exec (.dbguTxWrite q b) s = .next u ∧ u.flag F.DBGU_STATUS_TX_OVER = true ∧
          onlyRegs s u [R.DBGU_STATUS])) ∧
      (q.s = true → s.blockOn 0x2E = true →
        (r = [] → ∃ u, exec (.dbguRxRead q) s = .next u ∧ u = { s with resp := ⟨.ok, [0, 0, 0, 0]⟩ }) ∧
        (∀ c rest, r = c :: rest → ∃ u, exec (.dbguRxRead q) s = .next u ∧
          u = { s with ports := { s.ports with rx := rest }, resp := u.resp } ∧
          u.resp = ⟨.ok, toBytes 4 (c / 256 % 2 * 512 + 256 + c % 256)⟩)) ∧
      (∀ noStop : Bool, s.flag F.DBGU_CFG_EN = true → isOpen = true → s.pinTo 229 6 = true →
        (r.length < 16 → ∃ u, exec (.uartByteReceived b noStop) s = .next u ∧
          u = { s with ports := { s.ports with rx := r ++ [b.toNat + 256 * b2n noStop] } }) ∧
        (16 ≤ r.length → ∃ u, exec (.uartByteReceived b noStop) s = .next u ∧ u.flag F.DBGU_STATUS_RX_OVER = true ∧
          only u [R.DBGU_STATUS])) ∧
      (∀ c rest, s.flag F.DBGU_CFG_EN = true →
        s.flag F.DBGU_CFG_FLOW = false ∨ (s.pinFunc 231 = 6 ∧ (s.pinPg 231 = true → s.pinIn 231 = false)) →
        t = c :: rest → ∃ u, exec .uartByteSent s = .next u ∧
          u.out = (if isOpen then s.out ++ [⟨.uartByte, [c], []⟩] else s.out) ∧
          u = { s with ports := { s.ports with tx := rest }, out := u.out }))

/-! ### Security, power and resets -/

/-- R457 to R474, R479: the security commands. VERIFY ends with the status of the first check of the header that fails,
else checks the body's hash and extends the measurement; ATTEST writes a signed report; REVOKE moves the root key to the
next slot; PROVISION burns slot 0, the identity and the life cycle; TO_FIELD, TO_RETURN and a scrap burn the life cycle
and start the wipe; CHALLENGE draws fresh bytes; DEBUG_UNLOCK wipes and opens what its record names; SVN_COMMIT raises the
floor; a burn that fails ends with 0xD; once the device is SCRAPPED every command but CHALLENGE ends with 9; the end of a
command shows its status in RESULT. -/
def Obligations.SecurityCommands : Prop :=
  ∀ (s : State) (op o : Nat),
    let me := s.secReq
    let a := poolBase + o
    let b := s.bytes a 512
    let same (u : State) : Prop := u = { s with sec := u.sec }
    let sameOtp (u : State) : Prop := (∀ k, blockOf k = 0x04 → u.reg k = s.reg k) ∧ u.sec.identity = s.sec.identity
    (SecRuns s op o → s.lifeCycle ≠ 4 → PoolOpen s me false o 512 →
      let reads := leAt b 0x08 8
      let size := leAt b 0x18 4
      let header := s.headerCheck b (decide (s.lifeCycle = 0))
      (op = 1 → (leAt b 0 4 ≠ 0x4D494453 ∨ leAt b 4 2 ≠ 1 → SecDone (exec .verify s) 1 same) ∧
        (∀ k, header = some k → SecDone (exec .verify s) k same) ∧
        (∀ i, header = none → reads = poolBase + i → PoolOpen s me false i size →
          (sha512 (s.bytes reads size) = cut b 0x40 64 → SecDone (exec .verify s) 0 (fun u => same u ∧
            u.sec.m = sha512 (s.sec.measure ++ sha512 (b.take 0x18C)) ∧ u.sec.count = s.sec.count + 1 ∧
            u.sec.lastSvn = some (leAt b 0x1C 4))) ∧
          (sha512 (s.bytes reads size) ≠ cut b 0x40 64 →
            SecDone (exec .verify s) 5 (fun u => same u ∧ u.sec.m = s.sec.m)))) ∧
      (op = 2 → PoolOpen s me true o 512 → ∀ d, s.sec.identity = some d → SecDone (exec .attest s) 0 (fun u =>
        (∃ sig : List Byte, sig.length = 132 ∧
          u.bytes a 512 = padTo 512 (s.report (s.bytes (a + 0x30) 64) d ++ sig)) ∧
        (∀ j, ¬ (a ≤ j ∧ j < a + 512) → u.byte j = s.byte j) ∧ u.regs = s.regs ∧ u.threads = s.threads)) ∧
      (∀ k, op = 3 → s.activeSlot = some k →
        (∀ j, s.recordCheck b 1 = j → j ≠ 0 → ∀ f, SecDone (exec (.revoke f) s) j same) ∧
        (s.recordCheck b 1 = 0 → k = 15 → ∀ f, SecDone (exec (.revoke f) s) 0x0B same) ∧
        (s.recordCheck b 1 = 0 → k < 15 → bits (s.reg R.OTP_SLOT_STATE) (2 * k + 2) 2 = 0 →
          (∀ w < 16, s.reg (R.OTP_SLOT_HASH (k + 1) w) = 0) →
          SecDone (exec (.revoke none) s) 0 (fun u => u.activeSlot = some (k + 1) ∧ u.slotState k = 2 ∧
            u.slotHash (k + 1) = sha512 (cut b 0x40 133) ∧ u = { s with regs := u.regs, sec := u.sec }) ∧
          SecDone (exec (.revoke (some 2)) s) 0x0D (fun u => u.slotState (k + 1) = 1 ∧ u.mem = s.mem))) ∧
      (op = 4 → leAt b 0 4 = 0x55414453 → leAt b 4 2 = 4 →
        (keyOk (cut b 0x40 133) = false → ∀ f, SecDone (exec (.provision f) s) 6 same) ∧
        (keyOk (cut b 0x40 133) = true → s.reg R.OTP_SLOT_STATE = 0 → s.reg R.OTP_LC = 0 →
          (∀ w < 16, s.reg (R.OTP_SLOT_HASH 0 w) = 0) → (s.sec.identity = none → s.sec.idBits = 0) →
          SecDone (exec (.provision none) s) 0 (fun u =>
            u.slotState 0 = 1 ∧ u.slotHash 0 = sha512 (cut b 0x40 133) ∧ u.lifeCycle = 1 ∧ u.sec.identity.isSome = true ∧
            u.wiped ∧ u.threads = s.threads))) ∧
      (op = 6 → (∀ j, s.recordCheck b 2 = j → j ≠ 0 → ∀ f, SecDone (exec (.toReturn f) s) j same) ∧
        (s.recordCheck b 2 = 0 → s.reg R.OTP_LC = 3 →
          SecDone (exec (.toReturn none) s) 0 (fun u => u.lifeCycle = 3 ∧ u.wiped ∧ u.threads = s.threads) ∧
          ∀ f, SecDone (exec (.toReturn (some f)) s) 0x0D (fun u => u.mem = s.mem))) ∧
      (op = 8 → (s.recordCheck b 3 = 0 → SecDone (exec .debugUnlock s) 0 (fun u => u.wiped ∧
          u.flag F.SEC_STATUS_DEBUG_OPEN = true ∧
          u.fld F.SEC_DEBUG_SCOPE = Nat.lor (s.fld F.SEC_DEBUG_SCOPE) (leAt b 0x18 4 % 8) ∧ sameOtp u)) ∧
        (∀ j, s.recordCheck b 3 = j → j ≠ 0 → SecDone (exec .debugUnlock s) j (fun u => u.mem = s.mem ∧ sameOtp u ∧
          u.reg R.SEC_DEBUG = s.reg R.SEC_DEBUG)))) ∧
    (SecRuns s op o → (op = 5 → s.reg R.OTP_LC = 1 →
        SecDone (exec (.toField none) s) 0 (fun u => u.lifeCycle = 2 ∧ u.wiped ∧ u.threads = s.threads) ∧
        ∀ f, SecDone (exec (.toField (some f)) s) 0x0D (fun u => u.mem = s.mem)) ∧
      (op = 7 → SecDone (exec .challenge s) 0 (fun u => (∀ n < 8, u.reg (R.SEC_CHALLENGE n) < 2 ^ 32) ∧
        u = { s with regs := u.regs, sec := u.sec, free := s.free + 8 } ∧
        ∀ k, (∀ n < 8, k ≠ R.SEC_CHALLENGE n) → u.reg k = s.reg k)) ∧
      (op = 9 → s.lifeCycle ≠ 4 → ∀ f, (s.sec.lastSvn = none → SecDone (exec (.svnCommit f) s) 8 same) ∧
        (∀ v, s.sec.lastSvn = some v → v ≤ s.svnFloor → SecDone (exec (.svnCommit f) s) 0 same) ∧
        (∀ v n, s.sec.lastSvn = some v → s.reg R.OTP_SVN_LO + 2 ^ 32 * s.reg R.OTP_SVN_HI = 2 ^ n - 1 →
          s.reg R.OTP_SVN_LO < 2 ^ 32 → n < v → v ≤ 64 → SecDone (exec (.svnCommit none) s) 0 (fun u => u.svnFloor = v ∧
            u = { s with regs := u.regs, sec := u.sec } ∧
            ∀ k, k ≠ R.OTP_SVN_LO → k ≠ R.OTP_SVN_HI → u.reg k = s.reg k))) ∧
      (s.lifeCycle = 4 → ∀ f, (op = 1 → SecDone (exec .verify s) 9 same) ∧ (op = 2 → SecDone (exec .attest s) 9 same) ∧
        (op = 3 → SecDone (exec (.revoke f) s) 9 same) ∧ (op = 4 → SecDone (exec (.provision f) s) 9 same) ∧
        (op = 5 → SecDone (exec (.toField f) s) 9 same) ∧ (op = 6 → SecDone (exec (.toReturn f) s) 9 same) ∧
        (op = 8 → SecDone (exec .debugUnlock s) 9 (fun u => u = { s with regs := u.regs, free := u.free, sec := u.sec } ∧
          ∀ k, (∀ n < 8, k ≠ R.SEC_CHALLENGE n) → u.reg k = s.reg k)) ∧ (op = 9 → SecDone (exec (.svnCommit f) s) 9 same)) ∧
      (op ≠ 1 → exec .verify s = .next s) ∧ (op ≠ 2 → exec .attest s = .next s)) ∧
    (∀ c k, s.held = false → s.sec.cmd = some c → s.sec.done = some k → ∃ u, exec .secCommandEnd s = .next u ∧
      u.flag F.SEC_CMD_BUSY = false ∧ u.flag F.SEC_CMD_GO = false ∧ u.fld F.SEC_CMD_RESULT = k % 256 ∧
      u.sec = { s.sec with cmd := none, done := none } ∧ u = { s with regs := u.regs, sec := u.sec } ∧
      ∀ j, j ≠ R.SEC_CMD → u.reg j = s.reg j) ∧
    (∀ (q : Req) (key : BitVec 16), s.held = false → q.s = true → s.blockOn 0x03 = true →
      (key ≠ 0xA3B5 ∨ s.sec.scrap = false → ∀ f, ∃ u, exec (.scrap q key f) s = .next u ∧
        u.sec = { s.sec with scrap := decide (key = 0x5C4A) } ∧ u = { s with sec := u.sec, resp := ⟨.ok, []⟩ }) ∧
      (key = 0xA3B5 → s.sec.scrap = true → s.reg R.OTP_LC < 16 → ∃ u, exec (.scrap q key false) s = .next u ∧
        u.lifeCycle = 4 ∧ u.wiped ∧ u.sec.scrap = false ∧ u.threads = s.threads) ∧
      (key = 0xA3B5 → s.sec.scrap = true → ∃ u, exec (.scrap q key true) s = .next u ∧ u.wiped ∧ u.sec.scrap = false))

/-- R465 to R467, R475 to R482: the boot procedure, tamper and the debug port. The boot procedure checks image A, then
image B, and records the code of each that fails; one that passes lies in the pool, is measured, hands over what the
secure controller owned and starts thread 0 at its entry. A tamper event of an armed sensor that is not in its condition
is logged and wipes Nadir; CLEAR empties the log. The TAP selects what is open; DBG_REG reads or writes a DBG register; GO
makes one aligned access. -/
def Obligations.BootTamperDebug : Prop :=
  ∀ (s : State) (q : Req),
    (∀ img1 img2 : List Byte, s.held = false → (s.sec.boot = false → exec (.bootProcedure img1 img2) s = .next s) ∧
      (s.sec.boot = true → s.domOn 149 = true → s.flag F.CLK_STATUS_FAB_LOCKED = true →
        (s.sec.bootLc = 4 → exec (.bootProcedure img1 img2) s = .next { s with sec := { s.sec with boot := false } }) ∧
        (s.sec.bootLc ≠ 4 → s.domOn 0 = true → s.domOn 32 = true → s.bootWaits img1 = false → s.bootWaits img2 = false →
          let blank := decide (s.sec.bootLc = 0)
          let h := padTo 512 img1
          (∀ j k, s.headerCheck h blank = some j → s.headerCheck (padTo 512 img2) blank = some k → ∃ u,
            exec (.bootProcedure img1 img2) s = .next u ∧ u.fld F.SEC_BOOT_INFO_A_CODE = j % 16 ∧
            u.fld F.SEC_BOOT_INFO_B_CODE = k % 16 ∧ u.sec = { s.sec with boot := false } ∧
            u = { s with regs := u.regs, sec := u.sec, out := u.out } ∧ ∀ r, r ≠ R.SEC_BOOT_INFO → u.reg r = s.reg r) ∧
          (∀ i, let size := leAt h 0x18 4
            let body := padTo size (img1.drop 512)
            s.headerCheck h blank = none → leAt h 0x08 8 = poolBase + i → PoolOpen s s.secReq true i size →
            sha512 body = cut h 0x40 64 → ∃ u, exec (.bootProcedure img1 img2) s = .next u ∧
              u.fld F.SEC_BOOT_INFO_BOOTED = 1 ∧ u.bytes (poolBase + i) size = body ∧
              u.reg (R.CORE_TH_PC 0) = leAt h 0x10 8 ∧ u.sec.lastSvn = some (leAt h 0x1C 4) ∧
              u.sec.m = sha512 (s.sec.measure ++ sha512 (h.take 0x18C)) ∧ u.sec.boot = false ∧
              (∀ g < 16, s.fld (F.GST_GROUP_OWN_OWNER g) = 15 →
                u.fld (F.GST_GROUP_OWN_OWNER g) = 0 ∧ u.flag (F.GST_GROUP_OWN_S g) = true))))) ∧
    (∀ mask : BitVec 5, let m := s.tamperMask mask.toNat
      (m = 0 → exec (.tamperEvent mask) s = .next s) ∧
      (m ≠ 0 → ∃ u, exec (.tamperEvent mask) s = .next u ∧ u.sec.conds = Nat.lor s.sec.conds m ∧
        u.fld F.PWR_TAMPER_LOG_CTL_COUNT = satU 16 (s.fld F.PWR_TAMPER_LOG_CTL_COUNT + 1) ∧
        u.fld (F.PWR_TAMPER_LOG_CAUSE (u.fld F.PWR_TAMPER_LOG_CTL_NEWEST)) = m % 32 ∧
        (s.held = false ∨ s.pwr.noRef = true → u.wiped ∧ u.flag F.SEC_STATUS_TAMPER = true ∧ u.sec.tampered = true) ∧
        (s.held = true → s.pwr.noRef = false → u.mem = s.mem) ∧ u.threads = s.threads)) ∧
    (∀ k : Fin 5, ∃ u, exec (.tamperConditionLeft k) s = .next u ∧ bit u.sec.conds k = false ∧
      (∀ j, j ≠ k.val → bit u.sec.conds j = bit s.sec.conds j) ∧ u = { s with sec := { s.sec with conds := u.sec.conds } }) ∧
    (s.held = false → q.s = true → ∃ u, exec (.tamperLogClear q) s = .next u ∧ u.reg R.PWR_TAMPER_LOG_CTL = 0 ∧
      (∀ k < 8, u.reg (R.PWR_TAMPER_LOG k) = 0) ∧ u = { s with regs := u.regs, resp := u.resp } ∧
      ∀ r, r ≠ R.PWR_TAMPER_LOG_CTL → (∀ k < 8, r ≠ R.PWR_TAMPER_LOG k) → u.reg r = s.reg r) ∧
    (s.held = false → let lc := s.lifeCycle
      let scan : Prop := lc ≠ 2 ∨ bit (s.fld F.SEC_DEBUG_SCOPE) 1 = true
      let tap : Prop := lc ≠ 4 ∧ (lc = 2 → bit (s.fld F.SEC_DEBUG_SCOPE) 0 = true)
      ∀ c : Fin 32, ∃ i, exec (.tapIrUpdate c) s = .next
          { s with sec := { s.sec with ir := c }, out := s.out ++ [⟨.tap, if i = 2 then [i, idcode] else [i], []⟩] } ∧
        (c.val = 2 → i = 2) ∧ (c.val = 0 ∨ c.val = 1 → (scan → i = c) ∧ (¬ scan → i = 31)) ∧
        (c.val = 8 → (tap → i = 8) ∧ (¬ tap → i = 31)) ∧ (c.val ∉ [0, 1, 2, 8] → i = 31)) ∧
    (s.held = false → ∀ (w : Bool) (off : BitVec 13) (d : BitVec 32),
      let sent : List Out := s.out ++ [⟨.tap, [8, s.sec.dr], []⟩]
      (s.tapSelect s.sec.ir ≠ 8 → exec (.dbgReg w off d) s = .next s) ∧
      (∀ k ∈ [R.DBG_ADDR_LO, R.DBG_ADDR_HI, R.DBG_DATA_LO, R.DBG_DATA_HI, R.DBG_CMD, R.DBG_STATUS],
        s.tapSelect s.sec.ir = 8 → 0x3F0000 + off.toNat / 4 * 4 = k →
        exec (.dbgReg false off d) s = .next { s with sec := { s.sec with dr := s.reg k }, out := sent } ∧
        (k ≤ R.DBG_DATA_HI → s.flag F.DBG_CMD_GO = false → ∃ u, exec (.dbgReg true off d) s = .next u ∧
          u.reg k % 2 ^ 32 = d.toNat ∧ u = { s with regs := u.regs, out := sent } ∧ ∀ r, r ≠ k → u.reg r = s.reg r) ∧
        (k = R.DBG_CMD → s.flag F.DBG_CMD_GO = false → ∃ u, exec (.dbgReg true off d) s = .next u ∧
          u.flag F.DBG_CMD_GO = d.toNat.testBit 0 ∧ u.fld F.DBG_CMD_SIZE = bits d.toNat 2 2 ∧
          u.flag F.DBG_CMD_WRITE = d.toNat.testBit 4 ∧ u.flag F.DBG_CMD_INC = d.toNat.testBit 5 ∧
          u = { s with regs := u.regs, out := sent } ∧ ∀ r, r ≠ k → u.reg r = s.reg r))) ∧
    (s.held = false → s.flag F.DBG_CMD_GO = true → s.outst = [] →
      let at_ := (s.reg R.DBG_ADDR_HI * 2 ^ 32 + s.reg R.DBG_ADDR_LO) % 2 ^ 44
      let n := 2 ^ s.fld F.DBG_CMD_SIZE
      let data := toBytes n (s.reg R.DBG_DATA_HI * 2 ^ 32 + s.reg R.DBG_DATA_LO)
      let next := if s.flag F.DBG_CMD_INC then (at_ + n) % 2 ^ 44 else s.reg R.DBG_ADDR_HI * 2 ^ 32 + s.reg R.DBG_ADDR_LO
      let after (u : State) : Prop := u.flag F.DBG_CMD_GO = false ∧ u.reg R.DBG_STATUS = s.reg R.DBG_STATUS ∧
        u.reg R.DBG_ADDR_HI * 2 ^ 32 + u.reg R.DBG_ADDR_LO = next ∧ u.threads = s.threads
      (at_ % n ≠ 0 → ∃ u, exec .dbgCmdGo s = .next u ∧ u.flag F.DBG_CMD_GO = false ∧
        u.flag F.DBG_STATUS_MISALIGNED = true ∧ u.flag F.DBG_STATUS_ERR = true ∧ u = { s with regs := u.regs } ∧
        ∀ r, r ≠ R.DBG_CMD → r ≠ R.DBG_STATUS → u.reg r = s.reg r) ∧
      (∀ o, s.reg R.DBG_ADDR_LO < 2 ^ 32 → at_ % n = 0 → at_ = poolBase + o →
        (s.flag F.DBG_CMD_WRITE = true → PoolOpen s s.secReq true o n → ∃ u, exec .dbgCmdGo s = .next u ∧ after u ∧
          u.bytes at_ n = data ∧ ∀ j, ¬ (at_ ≤ j ∧ j < at_ + n) → u.byte j = s.byte j) ∧
        (s.flag F.DBG_CMD_WRITE = false → PoolOpen s s.secReq false o n → ∃ u, exec .dbgCmdGo s = .next u ∧ after u ∧
          u.reg R.DBG_DATA_HI * 2 ^ 32 + u.reg R.DBG_DATA_LO = s.num at_ n ∧ u.mem = s.mem)))

/-- R381, R485 to R494, R496 to R498, R501, R517: power, clocks and resets. ON of a domain that is not refused moves it by
way of waking or sleeping; a wake clears what the domain holds; a wake request powers a core by way of its L2; a cluster
runs at FAB / 2 while its PLL locks again; a pixel PLL is not moved while its head scans. A warm reset needs its two keys
and takes threads, rings and engines back to reset, and not memory, OTP or the sources of its causes; a cold reset keeps
OTP and the tamper log alone; PORST_N rising takes the straps and wakes the cold-reset set. -/
def Obligations.PowerClocksResets : Prop :=
  ∀ (s : State) (q : Req) (v : BitVec 32),
    let live := s.held = false
    let on (d : Nat) : Bool := s.flag (F.PWR_DOM_CTRL_ON d)
    let only (u : State) (ks : List Nat) : Prop := u = { s with regs := u.regs, pwr := u.pwr } ∧ ∀ k, k ∉ ks → u.reg k = s.reg k
    let clears (a n : Nat) (u : State) : Prop := (∀ j, a ≤ j → j < a + n → u.byte j = 0) ∧
      ∀ j, ¬ (a ≤ j ∧ j < a + n) → u.byte j = s.byte j
    let wakes (d : Nat) (u : State) : Prop := u.domState d = 1 ∧
      (40 ≤ d → d < 112 → clears (poolBase + (d - 40) * (4 * bankSize)) (4 * bankSize) u) ∧
      (d = 120 → clears ctsBase ctsSize u) ∧ (d = 149 → clears vaultBase vaultSize u ∧ u.flag F.SEC_STATUS_WIPING = false) ∧
      (¬ (40 ≤ d ∧ d < 112) → d ≠ 120 → d ≠ 149 → u = { s with regs := u.regs, pwr := u.pwr, resp := u.resp }) ∧
      u.threads = s.threads ∧ u.outst = s.outst ∧ u.rings = s.rings ∧
      ∀ k, k ≠ R.PWR_DOM_CTRL d → k ≠ R.PWR_DOM_STATUS d → (k = R.SEC_STATUS → d ≠ 149) → u.reg k = s.reg k
    let resets (u : State) (cause : Nat) : Prop := u.reg R.PWR_RESET_CAUSE = cause ∧ u.threads = [] ∧
      u.rings = [] ∧ u.outst = [] ∧ u.fired = [] ∧ u.hops = [] ∧ u.posted = [] ∧ u.lull = {} ∧ u.hse = {} ∧ u.gst = [] ∧
      u.twd = {} ∧ u.gal = {} ∧ u.sec.boot = true ∧ u.sec.identity = s.sec.identity ∧ u.stc = s.stc ∧
      (s.dirty = [] → (∀ d ∈ coldDomains, s.domState d ≠ 0) → u.mem = s.mem) ∧
      (∀ k, blockOf k = 0x04 → u.reg k = s.reg k) ∧
      ∀ k, blockOf k = 0x05 ∨ (0x09 ≤ blockOf k ∧ blockOf k ≤ 0x19) ∨ 0x20 ≤ blockOf k → u.reg k = State.reset.reg k
    (live → q.s = true → ∀ d : Fin 150, let want := v.toNat.testBit 0
      let refused : Prop := s.switchRefused d want = true
      (want = on d → exec (.domainSwitchWrite q d v) s = .next { s with resp := ⟨.ok, []⟩ }) ∧
      (want = true → on d = false → ¬ refused → s.domState d = 0 → ∃ u, exec (.domainSwitchWrite q d v) s = .next u ∧
        u.flag (F.PWR_DOM_CTRL_ON d) = true ∧ wakes d u ∧ u.resp = ⟨.ok, []⟩) ∧
      (want = false → on d = true → ¬ refused → s.domState d = 2 → ∃ u, exec (.domainSwitchWrite q d v) s = .next u ∧
        u.flag (F.PWR_DOM_CTRL_ON d) = false ∧ u.domState d = 3 ∧
        (d.val < 32 → u.thState (2 * d) = 0 ∧ u.thState (2 * d + 1) = 0) ∧
        ∀ j, j ≠ d.val → j < 150 → u.domState j = s.domState j)) ∧
    (live → ∀ d : Fin 150,
      (d.val ∉ s.pwr.ramp → exec (.domainWakeComplete d) s = .next s) ∧
      (d.val ∈ s.pwr.ramp → on d = true → s.pwr.auto = [] → ∃ u, exec (.domainWakeComplete d) s = .next u ∧
        u.domState d = 2 ∧ u = { s with regs := u.regs, pwr := u.pwr, clk0 := u.clk0 } ∧
        (d.val < 32 → AMap.get u.clk0 d 0 = AMap.get s.clk (d / 4) 0) ∧
        ∀ k, k ≠ R.PWR_DOM_STATUS d → u.reg k = s.reg k) ∧
      (d.val ∈ s.pwr.ramp → on d = false → ∃ u, exec (.domainWakeComplete d) s = .next u ∧ u.domState d = 3) ∧
      (s.domState d ≠ 3 → exec (.domainSleepComplete d) s = .next s) ∧
      (s.domState d = 3 → on d = false → ∃ u, exec (.domainSleepComplete d) s = .next u ∧ u.domState d = 0 ∧
        only u [R.PWR_DOM_STATUS d]) ∧
      (s.domState d = 3 → on d = true → ∃ u, exec (.domainSleepComplete d) s = .next u ∧ wakes d u)) ∧
    (live → ∀ c : Fin 32, let l2 := 32 + c.val / 4
      (s.wakeRequest c = false ∨ s.flag (F.PWR_WAKE_AUTO_WAKE c) = false → exec (.autoWake c) s = .next s) ∧
      (s.wakeRequest c = true → s.flag (F.PWR_WAKE_AUTO_WAKE c) = true → c.val ∉ s.pwr.auto →
        (s.domState c = 0 → on c = false → s.domOn l2 = true → ∃ u, exec (.autoWake c) s = .next u ∧ u.domState c = 1 ∧
          u.flag (F.PWR_DOM_CTRL_ON c) = true ∧ u.pwr.auto = c.val :: s.pwr.auto ∧
          only u [R.PWR_DOM_CTRL c, R.PWR_DOM_STATUS c]) ∧
        (s.domState c = 0 → s.domState l2 = 0 → on l2 = false → ∃ u, exec (.autoWake c) s = .next u ∧ u.domState l2 = 1 ∧
          u.domState c = 0 ∧ u.pwr.auto = c.val :: s.pwr.auto ∧ only u [R.PWR_DOM_CTRL l2, R.PWR_DOM_STATUS l2]))) ∧
    (live → q.s = true → ∀ c : Fin 8, let f := bits v.toNat 0 7
      let now := s.fld (F.CLK_CORE_EFFECTIVE c)
      (f < 8 ∨ 80 < f → exec (.coreFreqWrite q c v) s = .next { s with resp := ⟨.ok, []⟩ }) ∧
      (8 ≤ f → f ≤ 80 → s.twilight = false → s.flag (F.CLK_CORE_SWITCHING c) = false → ∃ u,
        exec (.coreFreqWrite q c v) s = .next u ∧ u.fld (F.CLK_CORE_FREQ c) = f ∧
        u.fld (F.CLK_CORE_EFFECTIVE c) = (if f = now then now else 32) ∧
        (u.flag (F.CLK_CORE_SWITCHING c) = decide (f ≠ now ∧ f ≠ 32)) ∧
        (f ≠ now → f ≠ 32 → bit (u.reg R.CLK_STATUS) (5 + c) = false) ∧
        ∀ k, k ≠ R.CLK_CORE c → k ≠ R.CLK_STATUS → u.reg k = s.reg k)) ∧
    (live → ∀ c : Fin 8, (s.flag (F.CLK_CORE_SWITCHING c) = false → exec (.coreClockMove c) s = .next s) ∧
      (∀ f, s.flag (F.CLK_CORE_SWITCHING c) = true → AMap.get s.pwr.freq c 0 = f → s.freqWanted c = f → ∃ u,
        exec (.coreClockMove c) s = .next u ∧ u.fld (F.CLK_CORE_EFFECTIVE c) = f ∧
        u.flag (F.CLK_CORE_SWITCHING c) = false ∧ bit (u.reg R.CLK_STATUS) (5 + c) = true ∧
        only u [R.CLK_CORE c, R.CLK_STATUS])) ∧
    (live → ∀ n : Fin 6, let f := bits v.toNat 0 20
      (q.s = true → (s.scanning n = true → ∃ u, exec (.pixClockWrite q n v) s = .next u ∧ bit (u.reg R.CLK_ERR) n = true ∧
          onlyRegs s u [R.CLK_ERR]) ∧
        (s.scanning n = false → 25000 ≤ f → f ≤ 600000 → ∃ u, exec (.pixClockWrite q n v) s = .next u ∧
          u.fld (F.CLK_PIX_FREQ_KHZ n) = f ∧ u.flag (F.CLK_PIX_SET n) = v.toNat.testBit 31 ∧
          u.flag (F.CLK_PIX_LOCKED n) = false ∧ onlyRegs s u [R.CLK_PIX n]) ∧
        (s.scanning n = false → f < 25000 ∨ 600000 < f →
          exec (.pixClockWrite q n v) s = .next { s with resp := ⟨.ok, []⟩ })) ∧
      (s.flag (F.CLK_PIX_SET n) = false → exec (.pixRelock n) s = .next s) ∧
      (s.flag (F.CLK_PIX_SET n) = true → ∃ u, exec (.pixRelock n) s = .next u ∧ u.flag (F.CLK_PIX_LOCKED n) = true ∧
        u = { s with regs := u.regs } ∧ ∀ k, k ≠ R.CLK_PIX n → u.reg k = s.reg k)) ∧
    (live → ∀ k : Fin 5, ∃ u, exec (.pllLock k) s = .next u ∧ bit (u.reg R.CLK_STATUS) k = true ∧
      (k.val = 0 → u.fld F.CLK_STATUS_CORE_LOCKED = 255) ∧ u = { s with regs := u.regs } ∧
      ∀ j, j ≠ R.CLK_STATUS → u.reg j = s.reg j) ∧
    ((live → q.s = true → ∀ key : BitVec 16,
        (¬ (s.pwr.armed = true ∧ key = 0x94D6) → exec (.warmReset q key) s = .next
          { s with pwr := { s.pwr with armed := decide (key = 0x6B29) }, resp := ⟨.ok, []⟩ }) ∧
        (s.pwr.armed = true → key = 0x94D6 → s.pwr.noRef = false → s.sec.boot = false →
          ∃ u, exec (.warmReset q key) s = .next u ∧ resets u 2 ∧ u.held = false)) ∧
      (live → s.pwr.noRef = false → s.sec.boot = false → ∃ u, exec .refLoss s = .next u ∧ resets u 16 ∧
        u.held = true ∧ u.pwr.noRef = true) ∧
      (s.pwr.noRef = true →
        exec .refReturn s = .next { s with held := false, pwr := { s.pwr with noRef := false } }) ∧
      (s.pwr.noRef = false → exec .refReturn s = .next s)) ∧
    (∃ u, exec .coldReset s = .next u ∧ u.held = true ∧ u.threads = [] ∧ u.rings = [] ∧ u.outst = [] ∧ u.fired = [] ∧
      u.hops = [] ∧ u.here = [] ∧ u.posted = [] ∧ u.pwr = {} ∧ u.sec.identity = s.sec.identity ∧ u.pending = s.pending ∧
      (∀ k, blockOf k = 0x04 ∨ (R.PWR_TAMPER_LOG_CTL ≤ k ∧ k < 0x30000) → u.reg k = s.reg k) ∧
      (∀ k, blockOf k ≠ 0x04 → ¬ (R.PWR_TAMPER_LOG_CTL ≤ k ∧ k < 0x30000) → (∀ j < 8, k ≠ R.GPIO_BANK_CFG j) →
        u.reg k = State.reset.reg k) ∧
      ∀ a, u.byte a = if cxlBase ≤ a then s.byte a else 0) ∧
    (∀ p : Fin 4, (live ∨ s.pwr.noRef = true → exec (.porstRise p) s = .next s) ∧
      (s.held = true → s.pwr.noRef = false → ∃ u, exec (.porstRise p) s = .next u ∧ u.held = false ∧ u.stc = 0 ∧ u.fld F.CST_ID_POS = p ∧
        u.sec.boot = true ∧ u.sec.bootLc = s.lifeCycle ∧ (∀ d ∈ coldDomains, u.domState d = 1) ∧
        (∀ d, d ∉ coldDomains → d < 150 → u.domState d = s.domState d) ∧ u.mem = s.mem ∧ u.threads = s.threads)) ∧
    (live → q.s = true → (s.twilight = false → exec (.leaveTwilight q) s = .next { s with resp := ⟨.ok, []⟩ }) ∧
      (s.twilight = true → ∃ u, exec (.leaveTwilight q) s = .next u ∧ u.twilight = false ∧
        (∀ c < 8, s.flag (F.CLK_CORE_SWITCHING c) = false → s.fld (F.CLK_CORE_FREQ c) ≠ s.fld (F.CLK_CORE_EFFECTIVE c) →
          u.fld (F.CLK_CORE_EFFECTIVE c) = 32) ∧
        u = { s with regs := u.regs, pwr := u.pwr, resp := ⟨.ok, []⟩ } ∧
        ∀ k, k ≠ R.PWR_SERVICE → k ≠ R.CLK_STATUS → (∀ c < 8, k ≠ R.CLK_CORE c) → u.reg k = s.reg k)) ∧
    (live → ∀ t : BitVec 16, let m := s.fld F.SYS_TJ_TJ_MAX
      ∃ u, exec (.tjUpdate t) s = .next u ∧ u.fld F.SYS_TJ_TJ = t.toNat ∧
        u.fld F.SYS_TJ_TJ_MAX = (if sext 16 m < t.toInt then t.toNat else m) ∧ u = { s with regs := u.regs } ∧
        ∀ k, k ≠ R.SYS_TJ → u.reg k = s.reg k) ∧
    (live → ∀ n : Fin 64, s.admits q (s.fld (F.LUL_Q_CFG_OWNER n)) (s.flag (F.LUL_Q_CFG_ATTR_S n)) = true →
      4 ≤ bits v.toNat 4 4 → bits v.toNat 4 4 ≤ 12 → v.toNat.testBit 27 = false →
      (s.flag (F.LUL_Q_CFG_ENABLE n) = false → v.toNat.testBit 24 = true → ∃ u, exec (.lullQueueEnable q n v) s = .next u ∧
        u.flag (F.LUL_Q_CFG_ENABLE n) = true ∧ u.fld (F.LUL_Q_PROD_PROD_IDX n) = 0 ∧
        u.fld (F.LUL_Q_CONS_CONS_IDX n) = 0 ∧ u.mem = s.mem ∧ u.threads = s.threads) ∧
      (s.flag (F.LUL_Q_CFG_ENABLE n) = true → v.toNat.testBit 24 = false → ∃ u, exec (.lullQueueEnable q n v) s = .next u ∧
        u.flag (F.LUL_Q_CFG_ENABLE n) = false ∧ u.fld (F.LUL_Q_PROD_PROD_IDX n) = s.fld (F.LUL_Q_PROD_PROD_IDX n) ∧
        (∀ x, LItem.record x ∈ (u.lq n).items ↔ LItem.record x ∈ (s.lq n).items) ∧
        (∀ e, LItem.evt e ∉ (u.lq n).items) ∧ u.mem = s.mem ∧ u.threads = s.threads)) ∧
    (live → ∀ (p : Fin 4) (nack : Bool),
      (p.val ∉ s.cst.go → exec (.bcastAnswer p nack) s = .next s) ∧
      (p.val ∈ s.cst.go → ∃ u, exec (.bcastAnswer p nack) s = .next u ∧ u.cst = { s.cst with go := s.cst.go.filter (· != p.val) } ∧
        (u.cst.go = [] → u.flag F.CST_BCAST_CMD_GO = false) ∧
        (nack = true → s.cst.goStore = true → bit (u.reg R.CST_BCAST_STATUS) (4 + p) = true) ∧
        u = { s with regs := u.regs, cst := u.cst } ∧
        ∀ k, k ≠ R.CST_BCAST_CMD → k ≠ R.CST_BCAST_STATUS → u.reg k = s.reg k))

/-- R488: the switchings of a domain that PWR refuses: CORE_c on while its L2 is not on, L2_c off while a core of the
cluster is not off, COMPOSER off while a head scans, HEAD_1 to HEAD_5 on in the Twilight service, SECURE off. The write
changes nothing but PWR_ERR, which names the domain; it is no refusal under R14. No other change of ON is refused. -/
def Obligations.RefusedSwitchings : Prop :=
  ∀ (s : State) (q : Req) (d : Fin 150) (v : BitVec 32), s.held = false → q.s = true →
    let want := v.toNat.testBit 0
    let refused : Prop := (d.val < 32 ∧ want = true ∧ s.domOn (32 + d / 4) = false) ∨
      (32 ≤ d.val ∧ d.val < 40 ∧ want = false ∧ ∃ k < 4, s.domState (4 * (d - 32) + k) ≠ 0) ∨
      (d.val = 118 ∧ want = false ∧ ∃ n < 6, s.scanning n = true) ∨
      (113 ≤ d.val ∧ d.val ≤ 117 ∧ want = true ∧ s.twilight = true) ∨ (d.val = 149 ∧ want = false)
    want ≠ s.flag (F.PWR_DOM_CTRL_ON d) →
    (refused → ∃ u, exec (.domainSwitchWrite q d v) s = .next u ∧ u.flag F.PWR_ERR_REFUSED = true ∧
      u.fld F.PWR_ERR_DOMAIN = d ∧ u.resp = ⟨.ok, []⟩ ∧ onlyRegs s u [R.PWR_ERR]) ∧
    (¬ refused → ∃ u, exec (.domainSwitchWrite q d v) s = .next u ∧ u.flag (F.PWR_DOM_CTRL_ON d) = want ∧
      u.reg R.PWR_ERR = s.reg R.PWR_ERR)
end

