-- ==== Sys2Proof/Laws/Bits.lean ====
section
/-! SUPPORT. Laws of bit fields and of bytes: what a replaced field and its neighbours read as, sizes, and that numbers
survive their bytes. -/

namespace Sys2Proof.Machine

/-- A number as the part above a field, the field, and the part below it. -/
theorem split_field (v lo w : Nat) :
    v = (v / 2 ^ (lo + w) * 2 ^ w + bits v lo w) * 2 ^ lo + v % 2 ^ lo := by
  unfold bits
  have h1 : v / 2 ^ (lo + w) = v / 2 ^ lo / 2 ^ w := by rw [pow_add, Nat.div_div_eq_div_mul]
  rw [h1, Nat.div_add_mod' (v / 2 ^ lo) (2 ^ w), Nat.div_add_mod' v (2 ^ lo)]

/-- `putBits` keeps what is above and below the field. -/
theorem putBits_eq (v lo w x : Nat) :
    putBits v lo w x = (v / 2 ^ (lo + w) * 2 ^ w + x % 2 ^ w) * 2 ^ lo + v % 2 ^ lo := by
  have h := split_field v lo w
  unfold putBits
  have : v - bits v lo w * 2 ^ lo = v / 2 ^ (lo + w) * 2 ^ w * 2 ^ lo + v % 2 ^ lo := by
    conv_lhs => rw [h]
    have e : bits ((v / 2 ^ (lo + w) * 2 ^ w + bits v lo w) * 2 ^ lo + v % 2 ^ lo) lo w = bits v lo w := by rw [← h]
    rw [e, add_mul]; omega
  rw [this, add_mul]; omega

theorem bits_lt (v lo w : Nat) : bits v lo w < 2 ^ w := Nat.mod_lt _ (by positivity)

/-- The field that was replaced reads as what it was given. -/
@[simp] theorem bits_putBits_same (v lo w x : Nat) : bits (putBits v lo w x) lo w = x % 2 ^ w := by
  rw [putBits_eq]; unfold bits
  have hp : 0 < 2 ^ lo := by positivity
  rw [Nat.mul_comm _ (2 ^ lo), Nat.mul_add_div hp, Nat.div_eq_of_lt (Nat.mod_lt _ hp)]
  simp [Nat.add_mod]

/-- A field above the replaced one reads as before. -/
theorem bits_putBits_above (v x : Nat) {lo w lo' w' : Nat} (h : lo + w ≤ lo') :
    bits (putBits v lo w x) lo' w' = bits v lo' w' := by
  have key : putBits v lo w x / 2 ^ (lo + w) = v / 2 ^ (lo + w) := by
    rw [putBits_eq, pow_add, ← Nat.div_div_eq_div_mul _ (2 ^ lo) (2 ^ w), Nat.mul_comm _ (2 ^ lo)]
    have hp : 0 < 2 ^ lo := by positivity
    have hq : 0 < 2 ^ w := by positivity
    rw [Nat.mul_add_div hp, Nat.div_eq_of_lt (Nat.mod_lt _ hp), Nat.add_zero, Nat.mul_comm _ (2 ^ w),
      Nat.mul_add_div hq, Nat.div_eq_of_lt (Nat.mod_lt _ hq), Nat.add_zero]
  obtain ⟨d, rfl⟩ := Nat.exists_eq_add_of_le h
  unfold bits
  rw [pow_add 2 (lo + w) d, ← Nat.div_div_eq_div_mul, ← Nat.div_div_eq_div_mul, key]

/-- A field below the replaced one reads as before. -/
theorem bits_putBits_below (v x : Nat) {lo w lo' w' : Nat} (h : lo' + w' ≤ lo) :
    bits (putBits v lo w x) lo' w' = bits v lo' w' := by
  have aux (u : Nat) : bits u lo' w' = u % 2 ^ lo % 2 ^ (lo' + w') / 2 ^ lo' := by
    have hd : 2 ^ (lo' + w') ∣ 2 ^ lo := pow_dvd_pow 2 h
    rw [Nat.mod_mod_of_dvd _ hd, pow_add, Nat.mod_mul_right_div_self]; rfl
  rw [aux, aux]
  have : putBits v lo w x % 2 ^ lo = v % 2 ^ lo := by
    rw [putBits_eq, Nat.add_comm, Nat.add_mul_mod_self_right, Nat.mod_mod]
  rw [this]

/-- Two fields that do not meet: replacing one keeps the other. -/
theorem bits_putBits_other (v x : Nat) {lo w lo' w' : Nat} (h : lo + w ≤ lo' ∨ lo' + w' ≤ lo) :
    bits (putBits v lo w x) lo' w' = bits v lo' w' := by
  rcases h with h | h
  · exact bits_putBits_above v x h
  · exact bits_putBits_below v x h

/-- Replacing a field inside the low `n` bits keeps a number below 2^n. -/
theorem putBits_lt {v lo w n : Nat} (x : Nat) (hv : v < 2 ^ n) (h : lo + w ≤ n) : putBits v lo w x < 2 ^ n := by
  obtain ⟨d, rfl⟩ := Nat.exists_eq_add_of_le h
  rw [putBits_eq]
  have h1 : v / 2 ^ (lo + w) < 2 ^ d := by
    rw [Nat.div_lt_iff_lt_mul (by positivity)]; rwa [pow_add, Nat.mul_comm] at hv
  have h2 : x % 2 ^ w < 2 ^ w := Nat.mod_lt _ (by positivity)
  have h3 : v % 2 ^ lo < 2 ^ lo := Nat.mod_lt _ (by positivity)
  have h4 : v / 2 ^ (lo + w) * 2 ^ w + x % 2 ^ w + 1 ≤ 2 ^ d * 2 ^ w := by
    have := Nat.mul_le_mul_right (2 ^ w) h1
    rw [Nat.succ_mul] at this; omega
  calc (v / 2 ^ (lo + w) * 2 ^ w + x % 2 ^ w) * 2 ^ lo + v % 2 ^ lo
      < (v / 2 ^ (lo + w) * 2 ^ w + x % 2 ^ w + 1) * 2 ^ lo := by rw [add_mul _ 1]; omega
    _ ≤ 2 ^ d * 2 ^ w * 2 ^ lo := Nat.mul_le_mul_right _ h4
    _ = 2 ^ (lo + w + d) := by ring

theorem bits_of_lt {v w : Nat} (h : v < 2 ^ w) : bits v 0 w = v := by simp [bits, Nat.mod_eq_of_lt h]

@[simp] theorem b2n_true : b2n true = 1 := rfl
@[simp] theorem b2n_false : b2n false = 0 := rfl

/-! ### Bytes -/

@[simp] theorem length_toBytes (n v : Nat) : (toBytes n v).length = n := by
  induction n generalizing v with
  | zero => rfl
  | succ n ih => simp [toBytes, ih]

/-- The number whose bytes are the low `n` bytes of `v`. -/
@[simp] theorem ofBytes_toBytes (n v : Nat) : ofBytes (toBytes n v) = v % 256 ^ n := by
  induction n generalizing v with
  | zero => simp [toBytes, ofBytes, Nat.mod_one]
  | succ n ih =>
    rw [toBytes, ofBytes, ih, BitVec.toNat_ofNat]
    rw [pow_succ' 256, Nat.mod_mul]

theorem ofBytes_lt (l : List Byte) : ofBytes l < 256 ^ l.length := by
  induction l with
  | nil => simp [ofBytes]
  | cons b r ih =>
    have hb : b.toNat < 256 := b.isLt
    simp only [ofBytes, List.length_cons, pow_succ']
    omega

end Sys2Proof.Machine
end

