-- ==== Sys2Proof/Laws/Maps.lean ====
section
/-! SUPPORT. Laws of sparse maps: what a key reads as after `set`, `erase` and `dropKeys`, and that `set`, `erase` and
`dropKeys` keep the canonical form. -/

namespace Sys2Proof.Machine.AMap

variable {α : Type}

@[simp] theorem get_nil (k : Nat) (d : α) : get ([] : AMap α) k d = d := rfl

theorem get_erase_same (m : AMap α) (k : Nat) (d : α) : get (erase m k) k d = d := by
  induction m with
  | nil => rfl
  | cons e r ih =>
    obtain ⟨a, v⟩ := e
    by_cases h : a = k <;> simp [erase, get, h, ih]

theorem get_erase_other (m : AMap α) {k j : Nat} (d : α) (h : j ≠ k) : get (erase m k) j d = get m j d := by
  induction m with
  | nil => rfl
  | cons e r ih =>
    obtain ⟨a, v⟩ := e
    by_cases hk : a = k
    · subst hk; simp [erase, get, ih, Ne.symm h]
    · simp only [erase, hk, ↓reduceIte, get, ih]

theorem get_ins_same (m : AMap α) (k : Nat) (v d : α) : get (ins (erase m k) k v) k d = v := by
  induction m with
  | nil => simp [erase, ins, get]
  | cons e r ih =>
    obtain ⟨a, x⟩ := e
    by_cases hk : a = k
    · simp only [erase, hk, ↓reduceIte]; exact ih
    · simp only [erase, hk, ↓reduceIte, ins]
      by_cases hl : k < a <;> simp [get, hl, hk, ih]

theorem get_ins_other (m : AMap α) {k j : Nat} (v d : α) (h : j ≠ k) : get (ins m k v) j d = get m j d := by
  induction m with
  | nil => simp [ins, get, Ne.symm h]
  | cons e r ih =>
    obtain ⟨a, x⟩ := e
    by_cases hl : k < a
    · simp [ins, hl, get, Ne.symm h]
    · simp only [ins, hl, ↓reduceIte, get, ih]

/-- The key that was set reads as what it was set to. -/
@[simp] theorem get_set_same [DecidableEq α] (m : AMap α) (k : Nat) (v d : α) : get (set m k v d) k d = v := by
  unfold set; split
  · next h => rw [get_erase_same, h]
  · exact get_ins_same m k v d

/-- Every other key reads as before. -/
theorem get_set_other [DecidableEq α] (m : AMap α) {k j : Nat} (v d d' : α) (h : j ≠ k) :
    get (set m k v d) j d' = get m j d' := by
  unfold set; split
  · exact get_erase_other m d' h
  · rw [get_ins_other _ v d' h, get_erase_other m d' h]

theorem get_dropKeys (m : AMap α) (p : Nat → Bool) (k : Nat) (d : α) :
    get (dropKeys m p) k d = if p k then d else get m k d := by
  induction m with
  | nil => simp [dropKeys]
  | cons e r ih =>
    obtain ⟨a, v⟩ := e
    simp only [dropKeys] at ih
    by_cases hp : p a
    · simp only [dropKeys, List.filter_cons, hp, Bool.not_true, Bool.false_eq_true, ↓reduceIte, ih, get]
      by_cases hk : a = k
      · subst hk; simp [hp]
      · simp [hk]
    · simp only [dropKeys, List.filter_cons, hp, Bool.not_false, ↓reduceIte, ih, get]
      by_cases hk : a = k
      · subst hk; simp [hp]
      · simp [hk]

/-! ### The canonical form -/

/-- The keys rise strictly, said pairwise. -/
theorem sorted_iff (m : AMap α) : sorted m = true ↔ m.Pairwise (fun a b => a.1 < b.1) := by
  induction m with
  | nil => simp [sorted]
  | cons e r ih =>
    cases r with
    | nil => simp [sorted]
    | cons f t =>
      obtain ⟨a, x⟩ := e; obtain ⟨b, y⟩ := f
      simp only [sorted, Bool.and_eq_true, decide_eq_true_eq, ih, List.pairwise_cons]
      constructor
      · rintro ⟨h, h1, h2⟩
        refine ⟨?_, h1, h2⟩
        intro e he
        rcases List.mem_cons.mp he with rfl | he
        · exact h
        · exact Nat.lt_trans h (h1 e he)
      · rintro ⟨h, h1, h2⟩
        exact ⟨h _ (List.mem_cons_self ..), h1, h2⟩

theorem erase_eq_filter (m : AMap α) (k : Nat) : erase m k = m.filter (fun e => decide (e.1 ≠ k)) := by
  induction m with
  | nil => rfl
  | cons e r ih => obtain ⟨a, v⟩ := e; by_cases h : a = k <;> simp [erase, h, ih]

theorem mem_ins {m : AMap α} {k : Nat} {v : α} {e : Nat × α} (h : e ∈ ins m k v) : e = (k, v) ∨ e ∈ m := by
  induction m with
  | nil => simpa [ins] using h
  | cons f r ih =>
    obtain ⟨a, x⟩ := f
    unfold ins at h
    split at h
    · simpa using h
    · rcases List.mem_cons.mp h with rfl | h
      · exact .inr (List.mem_cons_self ..)
      · rcases ih h with h | h
        · exact .inl h
        · exact .inr (List.mem_cons_of_mem _ h)

theorem pairwise_ins (m : AMap α) (k : Nat) (v : α) (hm : m.Pairwise (fun a b => a.1 < b.1))
    (hk : ∀ e ∈ m, e.1 ≠ k) : (ins m k v).Pairwise (fun a b => a.1 < b.1) := by
  induction m with
  | nil => simp [ins]
  | cons f r ih =>
    obtain ⟨a, x⟩ := f
    simp only [List.pairwise_cons] at hm
    unfold ins; split
    · next hl =>
      refine List.pairwise_cons.mpr ⟨?_, List.pairwise_cons.mpr ⟨hm.1, hm.2⟩⟩
      intro e he
      rcases List.mem_cons.mp he with rfl | he
      · exact hl
      · exact Nat.lt_trans hl (hm.1 e he)
    · next hl =>
      refine List.pairwise_cons.mpr ⟨?_, ih hm.2 (fun e he => hk e (List.mem_cons_of_mem _ he))⟩
      intro e he
      rcases mem_ins he with rfl | he
      · have := hk (a, x) (List.mem_cons_self ..)
        simp only at this ⊢; omega
      · exact hm.1 e he

/-- The canonical form, said pairwise. -/
theorem wf_iff [DecidableEq α] (m : AMap α) (d : Nat → α) :
    wf m d = true ↔ m.Pairwise (fun a b => a.1 < b.1) ∧ ∀ e ∈ m, e.2 ≠ d e.1 := by
  simp [wf, sorted_iff]

@[simp] theorem wf_nil [DecidableEq α] (d : Nat → α) : wf ([] : AMap α) d = true := rfl

/-- Keeping some entries keeps the canonical form. -/
theorem wf_filter [DecidableEq α] {m : AMap α} {d : Nat → α} (p : Nat × α → Bool) (h : wf m d = true) :
    wf (m.filter p) d = true := by
  rw [wf_iff] at h ⊢
  exact ⟨h.1.filter p, fun e he => h.2 e ((List.mem_filter.mp he).1)⟩

theorem wf_dropKeys [DecidableEq α] {m : AMap α} {d : Nat → α} (p : Nat → Bool) (h : wf m d = true) :
    wf (dropKeys m p) d = true := wf_filter _ h

theorem wf_erase [DecidableEq α] {m : AMap α} {d : Nat → α} (k : Nat) (h : wf m d = true) :
    wf (erase m k) d = true := by rw [erase_eq_filter]; exact wf_filter _ h

/-- Setting a key keeps the canonical form. -/
theorem wf_set [DecidableEq α] {m : AMap α} {d : Nat → α} (k : Nat) (v : α) (h : wf m d = true) :
    wf (set m k v (d k)) d = true := by
  unfold set; split
  · exact wf_erase k h
  · next hv =>
    have he := wf_erase k h
    rw [wf_iff] at he ⊢
    refine ⟨pairwise_ins _ k v he.1 ?_, ?_⟩
    · intro e hm; rw [erase_eq_filter] at hm; simpa using ((List.mem_filter.mp hm).2)
    · intro e hm
      rcases mem_ins hm with rfl | hm
      · exact hv
      · exact he.2 e hm

end Sys2Proof.Machine.AMap
end

