-- ==== Sys2Proof/Laws/State.lean ====
section
/-! SUPPORT. Laws of State: what each field is after each named update, what a register, a field of a register, a byte
and a thread read as after each of them. -/

namespace Sys2Proof.Machine

/-! ### Fields after updates -/

@[simp] theorem State.setReg_mem (s : State) (k v : Nat) : (s.setReg k v).mem = s.mem := rfl
@[simp] theorem State.setReg_ecc (s : State) (k v : Nat) : (s.setReg k v).ecc = s.ecc := rfl
@[simp] theorem State.setReg_now (s : State) (k v : Nat) : (s.setReg k v).now = s.now := rfl
@[simp] theorem State.setReg_stc (s : State) (k v : Nat) : (s.setReg k v).stc = s.stc := rfl
@[simp] theorem State.setReg_free (s : State) (k v : Nat) : (s.setReg k v).free = s.free := rfl
@[simp] theorem State.setReg_held (s : State) (k v : Nat) : (s.setReg k v).held = s.held := rfl
@[simp] theorem State.setReg_resp (s : State) (k v : Nat) : (s.setReg k v).resp = s.resp := rfl
@[simp] theorem State.setReg_out (s : State) (k v : Nat) : (s.setReg k v).out = s.out := rfl
@[simp] theorem State.setReg_fired (s : State) (k v : Nat) : (s.setReg k v).fired = s.fired := rfl
@[simp] theorem State.setReg_tasks (s : State) (k v : Nat) : (s.setReg k v).tasks = s.tasks := rfl
@[simp] theorem State.setReg_rings (s : State) (k v : Nat) : (s.setReg k v).rings = s.rings := rfl
@[simp] theorem State.setReg_pool (s : State) (k v : Nat) : (s.setReg k v).pool = s.pool := rfl
@[simp] theorem State.setReg_threads (s : State) (k v : Nat) : (s.setReg k v).threads = s.threads := rfl
@[simp] theorem State.setReg_dirty (s : State) (k v : Nat) : (s.setReg k v).dirty = s.dirty := rfl
@[simp] theorem State.setReg_outst (s : State) (k v : Nat) : (s.setReg k v).outst = s.outst := rfl
@[simp] theorem State.setReg_brz (s : State) (k v : Nat) : (s.setReg k v).brz = s.brz := rfl
@[simp] theorem State.setReg_flash (s : State) (k v : Nat) : (s.setReg k v).flash = s.flash := rfl
@[simp] theorem State.setReg_tim (s : State) (k v : Nat) : (s.setReg k v).tim = s.tim := rfl
@[simp] theorem State.setReg_lull (s : State) (k v : Nat) : (s.setReg k v).lull = s.lull := rfl
@[simp] theorem State.setReg_hse (s : State) (k v : Nat) : (s.setReg k v).hse = s.hse := rfl
@[simp] theorem State.setReg_cst (s : State) (k v : Nat) : (s.setReg k v).cst = s.cst := rfl
@[simp] theorem State.setReg_heads (s : State) (k v : Nat) : (s.setReg k v).heads = s.heads := rfl
@[simp] theorem State.setReg_cmp (s : State) (k v : Nat) : (s.setReg k v).cmp = s.cmp := rfl
@[simp] theorem State.setReg_sql (s : State) (k v : Nat) : (s.setReg k v).sql = s.sql := rfl
@[simp] theorem State.setReg_gst (s : State) (k v : Nat) : (s.setReg k v).gst = s.gst := rfl
@[simp] theorem State.setReg_pins (s : State) (k v : Nat) : (s.setReg k v).pins = s.pins := rfl
@[simp] theorem State.setReg_twd (s : State) (k v : Nat) : (s.setReg k v).twd = s.twd := rfl
@[simp] theorem State.setReg_gal (s : State) (k v : Nat) : (s.setReg k v).gal = s.gal := rfl
@[simp] theorem State.setReg_ports (s : State) (k v : Nat) : (s.setReg k v).ports = s.ports := rfl
@[simp] theorem State.setReg_sec (s : State) (k v : Nat) : (s.setReg k v).sec = s.sec := rfl
@[simp] theorem State.setReg_pwr (s : State) (k v : Nat) : (s.setReg k v).pwr = s.pwr := rfl
@[simp] theorem State.setReg_cxlTaint (s : State) (k v : Nat) : (s.setReg k v).cxlTaint = s.cxlTaint := rfl
@[simp] theorem State.setReg_cxlFresh (s : State) (k v : Nat) : (s.setReg k v).cxlFresh = s.cxlFresh := rfl
@[simp] theorem State.setReg_ctsHits (s : State) (k v : Nat) : (s.setReg k v).ctsHits = s.ctsHits := rfl
@[simp] theorem State.setReg_pending (s : State) (k v : Nat) : (s.setReg k v).pending = s.pending := rfl
@[simp] theorem State.setReg_clk (s : State) (k v : Nat) : (s.setReg k v).clk = s.clk := rfl
@[simp] theorem State.setReg_clk0 (s : State) (k v : Nat) : (s.setReg k v).clk0 = s.clk0 := rfl
@[simp] theorem State.setReg_busy (s : State) (k v : Nat) : (s.setReg k v).busy = s.busy := rfl
@[simp] theorem State.setReg_hops (s : State) (k v : Nat) : (s.setReg k v).hops = s.hops := rfl
@[simp] theorem State.setReg_here (s : State) (k v : Nat) : (s.setReg k v).here = s.here := rfl
@[simp] theorem State.setReg_pads (s : State) (k v : Nat) : (s.setReg k v).pads = s.pads := rfl
@[simp] theorem State.setReg_valHits (s : State) (k v : Nat) : (s.setReg k v).valHits = s.valHits := rfl
@[simp] theorem State.setReg_violAt (s : State) (k v : Nat) : (s.setReg k v).violAt = s.violAt := rfl
@[simp] theorem State.setReg_posted (s : State) (k v : Nat) : (s.setReg k v).posted = s.posted := rfl

@[simp] theorem State.setFld_mem (s : State) (f : Fld) (x : Nat) : (s.setFld f x).mem = s.mem := rfl
@[simp] theorem State.setFld_ecc (s : State) (f : Fld) (x : Nat) : (s.setFld f x).ecc = s.ecc := rfl
@[simp] theorem State.setFld_now (s : State) (f : Fld) (x : Nat) : (s.setFld f x).now = s.now := rfl
@[simp] theorem State.setFld_stc (s : State) (f : Fld) (x : Nat) : (s.setFld f x).stc = s.stc := rfl
@[simp] theorem State.setFld_free (s : State) (f : Fld) (x : Nat) : (s.setFld f x).free = s.free := rfl
@[simp] theorem State.setFld_held (s : State) (f : Fld) (x : Nat) : (s.setFld f x).held = s.held := rfl
@[simp] theorem State.setFld_resp (s : State) (f : Fld) (x : Nat) : (s.setFld f x).resp = s.resp := rfl
@[simp] theorem State.setFld_out (s : State) (f : Fld) (x : Nat) : (s.setFld f x).out = s.out := rfl
@[simp] theorem State.setFld_fired (s : State) (f : Fld) (x : Nat) : (s.setFld f x).fired = s.fired := rfl
@[simp] theorem State.setFld_tasks (s : State) (f : Fld) (x : Nat) : (s.setFld f x).tasks = s.tasks := rfl
@[simp] theorem State.setFld_rings (s : State) (f : Fld) (x : Nat) : (s.setFld f x).rings = s.rings := rfl
@[simp] theorem State.setFld_pool (s : State) (f : Fld) (x : Nat) : (s.setFld f x).pool = s.pool := rfl
@[simp] theorem State.setFld_threads (s : State) (f : Fld) (x : Nat) : (s.setFld f x).threads = s.threads := rfl
@[simp] theorem State.setFld_dirty (s : State) (f : Fld) (x : Nat) : (s.setFld f x).dirty = s.dirty := rfl
@[simp] theorem State.setFld_outst (s : State) (f : Fld) (x : Nat) : (s.setFld f x).outst = s.outst := rfl
@[simp] theorem State.setFld_brz (s : State) (f : Fld) (x : Nat) : (s.setFld f x).brz = s.brz := rfl
@[simp] theorem State.setFld_flash (s : State) (f : Fld) (x : Nat) : (s.setFld f x).flash = s.flash := rfl
@[simp] theorem State.setFld_tim (s : State) (f : Fld) (x : Nat) : (s.setFld f x).tim = s.tim := rfl
@[simp] theorem State.setFld_lull (s : State) (f : Fld) (x : Nat) : (s.setFld f x).lull = s.lull := rfl
@[simp] theorem State.setFld_hse (s : State) (f : Fld) (x : Nat) : (s.setFld f x).hse = s.hse := rfl
@[simp] theorem State.setFld_cst (s : State) (f : Fld) (x : Nat) : (s.setFld f x).cst = s.cst := rfl
@[simp] theorem State.setFld_heads (s : State) (f : Fld) (x : Nat) : (s.setFld f x).heads = s.heads := rfl
@[simp] theorem State.setFld_cmp (s : State) (f : Fld) (x : Nat) : (s.setFld f x).cmp = s.cmp := rfl
@[simp] theorem State.setFld_sql (s : State) (f : Fld) (x : Nat) : (s.setFld f x).sql = s.sql := rfl
@[simp] theorem State.setFld_gst (s : State) (f : Fld) (x : Nat) : (s.setFld f x).gst = s.gst := rfl
@[simp] theorem State.setFld_pins (s : State) (f : Fld) (x : Nat) : (s.setFld f x).pins = s.pins := rfl
@[simp] theorem State.setFld_twd (s : State) (f : Fld) (x : Nat) : (s.setFld f x).twd = s.twd := rfl
@[simp] theorem State.setFld_gal (s : State) (f : Fld) (x : Nat) : (s.setFld f x).gal = s.gal := rfl
@[simp] theorem State.setFld_ports (s : State) (f : Fld) (x : Nat) : (s.setFld f x).ports = s.ports := rfl
@[simp] theorem State.setFld_sec (s : State) (f : Fld) (x : Nat) : (s.setFld f x).sec = s.sec := rfl
@[simp] theorem State.setFld_pwr (s : State) (f : Fld) (x : Nat) : (s.setFld f x).pwr = s.pwr := rfl
@[simp] theorem State.setFld_cxlTaint (s : State) (f : Fld) (x : Nat) : (s.setFld f x).cxlTaint = s.cxlTaint := rfl
@[simp] theorem State.setFld_cxlFresh (s : State) (f : Fld) (x : Nat) : (s.setFld f x).cxlFresh = s.cxlFresh := rfl
@[simp] theorem State.setFld_ctsHits (s : State) (f : Fld) (x : Nat) : (s.setFld f x).ctsHits = s.ctsHits := rfl
@[simp] theorem State.setFld_pending (s : State) (f : Fld) (x : Nat) : (s.setFld f x).pending = s.pending := rfl
@[simp] theorem State.setFld_clk (s : State) (f : Fld) (x : Nat) : (s.setFld f x).clk = s.clk := rfl
@[simp] theorem State.setFld_clk0 (s : State) (f : Fld) (x : Nat) : (s.setFld f x).clk0 = s.clk0 := rfl
@[simp] theorem State.setFld_busy (s : State) (f : Fld) (x : Nat) : (s.setFld f x).busy = s.busy := rfl
@[simp] theorem State.setFld_hops (s : State) (f : Fld) (x : Nat) : (s.setFld f x).hops = s.hops := rfl
@[simp] theorem State.setFld_here (s : State) (f : Fld) (x : Nat) : (s.setFld f x).here = s.here := rfl
@[simp] theorem State.setFld_pads (s : State) (f : Fld) (x : Nat) : (s.setFld f x).pads = s.pads := rfl
@[simp] theorem State.setFld_valHits (s : State) (f : Fld) (x : Nat) : (s.setFld f x).valHits = s.valHits := rfl
@[simp] theorem State.setFld_violAt (s : State) (f : Fld) (x : Nat) : (s.setFld f x).violAt = s.violAt := rfl
@[simp] theorem State.setFld_posted (s : State) (f : Fld) (x : Nat) : (s.setFld f x).posted = s.posted := rfl

@[simp] theorem State.resetRegs_mem (s : State) (p : Nat → Bool) : (s.resetRegs p).mem = s.mem := rfl
@[simp] theorem State.resetRegs_ecc (s : State) (p : Nat → Bool) : (s.resetRegs p).ecc = s.ecc := rfl
@[simp] theorem State.resetRegs_now (s : State) (p : Nat → Bool) : (s.resetRegs p).now = s.now := rfl
@[simp] theorem State.resetRegs_stc (s : State) (p : Nat → Bool) : (s.resetRegs p).stc = s.stc := rfl
@[simp] theorem State.resetRegs_free (s : State) (p : Nat → Bool) : (s.resetRegs p).free = s.free := rfl
@[simp] theorem State.resetRegs_held (s : State) (p : Nat → Bool) : (s.resetRegs p).held = s.held := rfl
@[simp] theorem State.resetRegs_resp (s : State) (p : Nat → Bool) : (s.resetRegs p).resp = s.resp := rfl
@[simp] theorem State.resetRegs_out (s : State) (p : Nat → Bool) : (s.resetRegs p).out = s.out := rfl
@[simp] theorem State.resetRegs_fired (s : State) (p : Nat → Bool) : (s.resetRegs p).fired = s.fired := rfl
@[simp] theorem State.resetRegs_tasks (s : State) (p : Nat → Bool) : (s.resetRegs p).tasks = s.tasks := rfl
@[simp] theorem State.resetRegs_rings (s : State) (p : Nat → Bool) : (s.resetRegs p).rings = s.rings := rfl
@[simp] theorem State.resetRegs_pool (s : State) (p : Nat → Bool) : (s.resetRegs p).pool = s.pool := rfl
@[simp] theorem State.resetRegs_threads (s : State) (p : Nat → Bool) : (s.resetRegs p).threads = s.threads := rfl
@[simp] theorem State.resetRegs_dirty (s : State) (p : Nat → Bool) : (s.resetRegs p).dirty = s.dirty := rfl
@[simp] theorem State.resetRegs_outst (s : State) (p : Nat → Bool) : (s.resetRegs p).outst = s.outst := rfl
@[simp] theorem State.resetRegs_brz (s : State) (p : Nat → Bool) : (s.resetRegs p).brz = s.brz := rfl
@[simp] theorem State.resetRegs_flash (s : State) (p : Nat → Bool) : (s.resetRegs p).flash = s.flash := rfl
@[simp] theorem State.resetRegs_tim (s : State) (p : Nat → Bool) : (s.resetRegs p).tim = s.tim := rfl
@[simp] theorem State.resetRegs_lull (s : State) (p : Nat → Bool) : (s.resetRegs p).lull = s.lull := rfl
@[simp] theorem State.resetRegs_hse (s : State) (p : Nat → Bool) : (s.resetRegs p).hse = s.hse := rfl
@[simp] theorem State.resetRegs_cst (s : State) (p : Nat → Bool) : (s.resetRegs p).cst = s.cst := rfl
@[simp] theorem State.resetRegs_heads (s : State) (p : Nat → Bool) : (s.resetRegs p).heads = s.heads := rfl
@[simp] theorem State.resetRegs_cmp (s : State) (p : Nat → Bool) : (s.resetRegs p).cmp = s.cmp := rfl
@[simp] theorem State.resetRegs_sql (s : State) (p : Nat → Bool) : (s.resetRegs p).sql = s.sql := rfl
@[simp] theorem State.resetRegs_gst (s : State) (p : Nat → Bool) : (s.resetRegs p).gst = s.gst := rfl
@[simp] theorem State.resetRegs_pins (s : State) (p : Nat → Bool) : (s.resetRegs p).pins = s.pins := rfl
@[simp] theorem State.resetRegs_twd (s : State) (p : Nat → Bool) : (s.resetRegs p).twd = s.twd := rfl
@[simp] theorem State.resetRegs_gal (s : State) (p : Nat → Bool) : (s.resetRegs p).gal = s.gal := rfl
@[simp] theorem State.resetRegs_ports (s : State) (p : Nat → Bool) : (s.resetRegs p).ports = s.ports := rfl
@[simp] theorem State.resetRegs_sec (s : State) (p : Nat → Bool) : (s.resetRegs p).sec = s.sec := rfl
@[simp] theorem State.resetRegs_pwr (s : State) (p : Nat → Bool) : (s.resetRegs p).pwr = s.pwr := rfl
@[simp] theorem State.resetRegs_cxlTaint (s : State) (p : Nat → Bool) : (s.resetRegs p).cxlTaint = s.cxlTaint := rfl
@[simp] theorem State.resetRegs_cxlFresh (s : State) (p : Nat → Bool) : (s.resetRegs p).cxlFresh = s.cxlFresh := rfl
@[simp] theorem State.resetRegs_ctsHits (s : State) (p : Nat → Bool) : (s.resetRegs p).ctsHits = s.ctsHits := rfl
@[simp] theorem State.resetRegs_pending (s : State) (p : Nat → Bool) : (s.resetRegs p).pending = s.pending := rfl
@[simp] theorem State.resetRegs_clk (s : State) (p : Nat → Bool) : (s.resetRegs p).clk = s.clk := rfl
@[simp] theorem State.resetRegs_clk0 (s : State) (p : Nat → Bool) : (s.resetRegs p).clk0 = s.clk0 := rfl
@[simp] theorem State.resetRegs_busy (s : State) (p : Nat → Bool) : (s.resetRegs p).busy = s.busy := rfl
@[simp] theorem State.resetRegs_hops (s : State) (p : Nat → Bool) : (s.resetRegs p).hops = s.hops := rfl
@[simp] theorem State.resetRegs_here (s : State) (p : Nat → Bool) : (s.resetRegs p).here = s.here := rfl
@[simp] theorem State.resetRegs_pads (s : State) (p : Nat → Bool) : (s.resetRegs p).pads = s.pads := rfl
@[simp] theorem State.resetRegs_valHits (s : State) (p : Nat → Bool) : (s.resetRegs p).valHits = s.valHits := rfl
@[simp] theorem State.resetRegs_violAt (s : State) (p : Nat → Bool) : (s.resetRegs p).violAt = s.violAt := rfl
@[simp] theorem State.resetRegs_posted (s : State) (p : Nat → Bool) : (s.resetRegs p).posted = s.posted := rfl

@[simp] theorem State.poke_regs (s : State) (a : Nat) (bs : List Byte) : (s.poke a bs).regs = s.regs := rfl
@[simp] theorem State.poke_ecc (s : State) (a : Nat) (bs : List Byte) : (s.poke a bs).ecc = s.ecc := rfl
@[simp] theorem State.poke_now (s : State) (a : Nat) (bs : List Byte) : (s.poke a bs).now = s.now := rfl
@[simp] theorem State.poke_stc (s : State) (a : Nat) (bs : List Byte) : (s.poke a bs).stc = s.stc := rfl
@[simp] theorem State.poke_free (s : State) (a : Nat) (bs : List Byte) : (s.poke a bs).free = s.free := rfl
@[simp] theorem State.poke_held (s : State) (a : Nat) (bs : List Byte) : (s.poke a bs).held = s.held := rfl
@[simp] theorem State.poke_resp (s : State) (a : Nat) (bs : List Byte) : (s.poke a bs).resp = s.resp := rfl
@[simp] theorem State.poke_out (s : State) (a : Nat) (bs : List Byte) : (s.poke a bs).out = s.out := rfl
@[simp] theorem State.poke_fired (s : State) (a : Nat) (bs : List Byte) : (s.poke a bs).fired = s.fired := rfl
@[simp] theorem State.poke_tasks (s : State) (a : Nat) (bs : List Byte) : (s.poke a bs).tasks = s.tasks := rfl
@[simp] theorem State.poke_rings (s : State) (a : Nat) (bs : List Byte) : (s.poke a bs).rings = s.rings := rfl
@[simp] theorem State.poke_pool (s : State) (a : Nat) (bs : List Byte) : (s.poke a bs).pool = s.pool := rfl
@[simp] theorem State.poke_threads (s : State) (a : Nat) (bs : List Byte) : (s.poke a bs).threads = s.threads := rfl
@[simp] theorem State.poke_dirty (s : State) (a : Nat) (bs : List Byte) : (s.poke a bs).dirty = s.dirty := rfl
@[simp] theorem State.poke_outst (s : State) (a : Nat) (bs : List Byte) : (s.poke a bs).outst = s.outst := rfl
@[simp] theorem State.poke_brz (s : State) (a : Nat) (bs : List Byte) : (s.poke a bs).brz = s.brz := rfl
@[simp] theorem State.poke_flash (s : State) (a : Nat) (bs : List Byte) : (s.poke a bs).flash = s.flash := rfl
@[simp] theorem State.poke_tim (s : State) (a : Nat) (bs : List Byte) : (s.poke a bs).tim = s.tim := rfl
@[simp] theorem State.poke_lull (s : State) (a : Nat) (bs : List Byte) : (s.poke a bs).lull = s.lull := rfl
@[simp] theorem State.poke_hse (s : State) (a : Nat) (bs : List Byte) : (s.poke a bs).hse = s.hse := rfl
@[simp] theorem State.poke_cst (s : State) (a : Nat) (bs : List Byte) : (s.poke a bs).cst = s.cst := rfl
@[simp] theorem State.poke_heads (s : State) (a : Nat) (bs : List Byte) : (s.poke a bs).heads = s.heads := rfl
@[simp] theorem State.poke_cmp (s : State) (a : Nat) (bs : List Byte) : (s.poke a bs).cmp = s.cmp := rfl
@[simp] theorem State.poke_sql (s : State) (a : Nat) (bs : List Byte) : (s.poke a bs).sql = s.sql := rfl
@[simp] theorem State.poke_gst (s : State) (a : Nat) (bs : List Byte) : (s.poke a bs).gst = s.gst := rfl
@[simp] theorem State.poke_pins (s : State) (a : Nat) (bs : List Byte) : (s.poke a bs).pins = s.pins := rfl
@[simp] theorem State.poke_twd (s : State) (a : Nat) (bs : List Byte) : (s.poke a bs).twd = s.twd := rfl
@[simp] theorem State.poke_gal (s : State) (a : Nat) (bs : List Byte) : (s.poke a bs).gal = s.gal := rfl
@[simp] theorem State.poke_ports (s : State) (a : Nat) (bs : List Byte) : (s.poke a bs).ports = s.ports := rfl
@[simp] theorem State.poke_sec (s : State) (a : Nat) (bs : List Byte) : (s.poke a bs).sec = s.sec := rfl
@[simp] theorem State.poke_pwr (s : State) (a : Nat) (bs : List Byte) : (s.poke a bs).pwr = s.pwr := rfl
@[simp] theorem State.poke_cxlTaint (s : State) (a : Nat) (bs : List Byte) : (s.poke a bs).cxlTaint = s.cxlTaint := rfl
@[simp] theorem State.poke_cxlFresh (s : State) (a : Nat) (bs : List Byte) : (s.poke a bs).cxlFresh = s.cxlFresh := rfl
@[simp] theorem State.poke_ctsHits (s : State) (a : Nat) (bs : List Byte) : (s.poke a bs).ctsHits = s.ctsHits := rfl
@[simp] theorem State.poke_pending (s : State) (a : Nat) (bs : List Byte) : (s.poke a bs).pending = s.pending := rfl
@[simp] theorem State.poke_clk (s : State) (a : Nat) (bs : List Byte) : (s.poke a bs).clk = s.clk := rfl
@[simp] theorem State.poke_clk0 (s : State) (a : Nat) (bs : List Byte) : (s.poke a bs).clk0 = s.clk0 := rfl
@[simp] theorem State.poke_busy (s : State) (a : Nat) (bs : List Byte) : (s.poke a bs).busy = s.busy := rfl
@[simp] theorem State.poke_hops (s : State) (a : Nat) (bs : List Byte) : (s.poke a bs).hops = s.hops := rfl
@[simp] theorem State.poke_here (s : State) (a : Nat) (bs : List Byte) : (s.poke a bs).here = s.here := rfl
@[simp] theorem State.poke_pads (s : State) (a : Nat) (bs : List Byte) : (s.poke a bs).pads = s.pads := rfl
@[simp] theorem State.poke_valHits (s : State) (a : Nat) (bs : List Byte) : (s.poke a bs).valHits = s.valHits := rfl
@[simp] theorem State.poke_violAt (s : State) (a : Nat) (bs : List Byte) : (s.poke a bs).violAt = s.violAt := rfl
@[simp] theorem State.poke_posted (s : State) (a : Nat) (bs : List Byte) : (s.poke a bs).posted = s.posted := rfl

@[simp] theorem State.zero_regs (s : State) (a n : Nat) : (s.zero a n).regs = s.regs := rfl
@[simp] theorem State.zero_ecc (s : State) (a n : Nat) : (s.zero a n).ecc = s.ecc := rfl
@[simp] theorem State.zero_now (s : State) (a n : Nat) : (s.zero a n).now = s.now := rfl
@[simp] theorem State.zero_stc (s : State) (a n : Nat) : (s.zero a n).stc = s.stc := rfl
@[simp] theorem State.zero_free (s : State) (a n : Nat) : (s.zero a n).free = s.free := rfl
@[simp] theorem State.zero_held (s : State) (a n : Nat) : (s.zero a n).held = s.held := rfl
@[simp] theorem State.zero_resp (s : State) (a n : Nat) : (s.zero a n).resp = s.resp := rfl
@[simp] theorem State.zero_out (s : State) (a n : Nat) : (s.zero a n).out = s.out := rfl
@[simp] theorem State.zero_fired (s : State) (a n : Nat) : (s.zero a n).fired = s.fired := rfl
@[simp] theorem State.zero_tasks (s : State) (a n : Nat) : (s.zero a n).tasks = s.tasks := rfl
@[simp] theorem State.zero_rings (s : State) (a n : Nat) : (s.zero a n).rings = s.rings := rfl
@[simp] theorem State.zero_pool (s : State) (a n : Nat) : (s.zero a n).pool = s.pool := rfl
@[simp] theorem State.zero_threads (s : State) (a n : Nat) : (s.zero a n).threads = s.threads := rfl
@[simp] theorem State.zero_dirty (s : State) (a n : Nat) : (s.zero a n).dirty = s.dirty := rfl
@[simp] theorem State.zero_outst (s : State) (a n : Nat) : (s.zero a n).outst = s.outst := rfl
@[simp] theorem State.zero_brz (s : State) (a n : Nat) : (s.zero a n).brz = s.brz := rfl
@[simp] theorem State.zero_flash (s : State) (a n : Nat) : (s.zero a n).flash = s.flash := rfl
@[simp] theorem State.zero_tim (s : State) (a n : Nat) : (s.zero a n).tim = s.tim := rfl
@[simp] theorem State.zero_lull (s : State) (a n : Nat) : (s.zero a n).lull = s.lull := rfl
@[simp] theorem State.zero_hse (s : State) (a n : Nat) : (s.zero a n).hse = s.hse := rfl
@[simp] theorem State.zero_cst (s : State) (a n : Nat) : (s.zero a n).cst = s.cst := rfl
@[simp] theorem State.zero_heads (s : State) (a n : Nat) : (s.zero a n).heads = s.heads := rfl
@[simp] theorem State.zero_cmp (s : State) (a n : Nat) : (s.zero a n).cmp = s.cmp := rfl
@[simp] theorem State.zero_sql (s : State) (a n : Nat) : (s.zero a n).sql = s.sql := rfl
@[simp] theorem State.zero_gst (s : State) (a n : Nat) : (s.zero a n).gst = s.gst := rfl
@[simp] theorem State.zero_pins (s : State) (a n : Nat) : (s.zero a n).pins = s.pins := rfl
@[simp] theorem State.zero_twd (s : State) (a n : Nat) : (s.zero a n).twd = s.twd := rfl
@[simp] theorem State.zero_gal (s : State) (a n : Nat) : (s.zero a n).gal = s.gal := rfl
@[simp] theorem State.zero_ports (s : State) (a n : Nat) : (s.zero a n).ports = s.ports := rfl
@[simp] theorem State.zero_sec (s : State) (a n : Nat) : (s.zero a n).sec = s.sec := rfl
@[simp] theorem State.zero_pwr (s : State) (a n : Nat) : (s.zero a n).pwr = s.pwr := rfl
@[simp] theorem State.zero_cxlTaint (s : State) (a n : Nat) : (s.zero a n).cxlTaint = s.cxlTaint := rfl
@[simp] theorem State.zero_cxlFresh (s : State) (a n : Nat) : (s.zero a n).cxlFresh = s.cxlFresh := rfl
@[simp] theorem State.zero_ctsHits (s : State) (a n : Nat) : (s.zero a n).ctsHits = s.ctsHits := rfl
@[simp] theorem State.zero_pending (s : State) (a n : Nat) : (s.zero a n).pending = s.pending := rfl
@[simp] theorem State.zero_clk (s : State) (a n : Nat) : (s.zero a n).clk = s.clk := rfl
@[simp] theorem State.zero_clk0 (s : State) (a n : Nat) : (s.zero a n).clk0 = s.clk0 := rfl
@[simp] theorem State.zero_busy (s : State) (a n : Nat) : (s.zero a n).busy = s.busy := rfl
@[simp] theorem State.zero_hops (s : State) (a n : Nat) : (s.zero a n).hops = s.hops := rfl
@[simp] theorem State.zero_here (s : State) (a n : Nat) : (s.zero a n).here = s.here := rfl
@[simp] theorem State.zero_pads (s : State) (a n : Nat) : (s.zero a n).pads = s.pads := rfl
@[simp] theorem State.zero_valHits (s : State) (a n : Nat) : (s.zero a n).valHits = s.valHits := rfl
@[simp] theorem State.zero_violAt (s : State) (a n : Nat) : (s.zero a n).violAt = s.violAt := rfl
@[simp] theorem State.zero_posted (s : State) (a n : Nat) : (s.zero a n).posted = s.posted := rfl

@[simp] theorem State.skipFree_regs (s : State) (n : Nat) : (s.skipFree n).regs = s.regs := rfl
@[simp] theorem State.skipFree_mem (s : State) (n : Nat) : (s.skipFree n).mem = s.mem := rfl
@[simp] theorem State.skipFree_ecc (s : State) (n : Nat) : (s.skipFree n).ecc = s.ecc := rfl
@[simp] theorem State.skipFree_now (s : State) (n : Nat) : (s.skipFree n).now = s.now := rfl
@[simp] theorem State.skipFree_stc (s : State) (n : Nat) : (s.skipFree n).stc = s.stc := rfl
@[simp] theorem State.skipFree_held (s : State) (n : Nat) : (s.skipFree n).held = s.held := rfl
@[simp] theorem State.skipFree_resp (s : State) (n : Nat) : (s.skipFree n).resp = s.resp := rfl
@[simp] theorem State.skipFree_out (s : State) (n : Nat) : (s.skipFree n).out = s.out := rfl
@[simp] theorem State.skipFree_fired (s : State) (n : Nat) : (s.skipFree n).fired = s.fired := rfl
@[simp] theorem State.skipFree_tasks (s : State) (n : Nat) : (s.skipFree n).tasks = s.tasks := rfl
@[simp] theorem State.skipFree_rings (s : State) (n : Nat) : (s.skipFree n).rings = s.rings := rfl
@[simp] theorem State.skipFree_pool (s : State) (n : Nat) : (s.skipFree n).pool = s.pool := rfl
@[simp] theorem State.skipFree_threads (s : State) (n : Nat) : (s.skipFree n).threads = s.threads := rfl
@[simp] theorem State.skipFree_dirty (s : State) (n : Nat) : (s.skipFree n).dirty = s.dirty := rfl
@[simp] theorem State.skipFree_outst (s : State) (n : Nat) : (s.skipFree n).outst = s.outst := rfl
@[simp] theorem State.skipFree_brz (s : State) (n : Nat) : (s.skipFree n).brz = s.brz := rfl
@[simp] theorem State.skipFree_flash (s : State) (n : Nat) : (s.skipFree n).flash = s.flash := rfl
@[simp] theorem State.skipFree_tim (s : State) (n : Nat) : (s.skipFree n).tim = s.tim := rfl
@[simp] theorem State.skipFree_lull (s : State) (n : Nat) : (s.skipFree n).lull = s.lull := rfl
@[simp] theorem State.skipFree_hse (s : State) (n : Nat) : (s.skipFree n).hse = s.hse := rfl
@[simp] theorem State.skipFree_cst (s : State) (n : Nat) : (s.skipFree n).cst = s.cst := rfl
@[simp] theorem State.skipFree_heads (s : State) (n : Nat) : (s.skipFree n).heads = s.heads := rfl
@[simp] theorem State.skipFree_cmp (s : State) (n : Nat) : (s.skipFree n).cmp = s.cmp := rfl
@[simp] theorem State.skipFree_sql (s : State) (n : Nat) : (s.skipFree n).sql = s.sql := rfl
@[simp] theorem State.skipFree_gst (s : State) (n : Nat) : (s.skipFree n).gst = s.gst := rfl
@[simp] theorem State.skipFree_pins (s : State) (n : Nat) : (s.skipFree n).pins = s.pins := rfl
@[simp] theorem State.skipFree_twd (s : State) (n : Nat) : (s.skipFree n).twd = s.twd := rfl
@[simp] theorem State.skipFree_gal (s : State) (n : Nat) : (s.skipFree n).gal = s.gal := rfl
@[simp] theorem State.skipFree_ports (s : State) (n : Nat) : (s.skipFree n).ports = s.ports := rfl
@[simp] theorem State.skipFree_sec (s : State) (n : Nat) : (s.skipFree n).sec = s.sec := rfl
@[simp] theorem State.skipFree_pwr (s : State) (n : Nat) : (s.skipFree n).pwr = s.pwr := rfl
@[simp] theorem State.skipFree_cxlTaint (s : State) (n : Nat) : (s.skipFree n).cxlTaint = s.cxlTaint := rfl
@[simp] theorem State.skipFree_cxlFresh (s : State) (n : Nat) : (s.skipFree n).cxlFresh = s.cxlFresh := rfl
@[simp] theorem State.skipFree_ctsHits (s : State) (n : Nat) : (s.skipFree n).ctsHits = s.ctsHits := rfl
@[simp] theorem State.skipFree_pending (s : State) (n : Nat) : (s.skipFree n).pending = s.pending := rfl
@[simp] theorem State.skipFree_clk (s : State) (n : Nat) : (s.skipFree n).clk = s.clk := rfl
@[simp] theorem State.skipFree_clk0 (s : State) (n : Nat) : (s.skipFree n).clk0 = s.clk0 := rfl
@[simp] theorem State.skipFree_busy (s : State) (n : Nat) : (s.skipFree n).busy = s.busy := rfl
@[simp] theorem State.skipFree_hops (s : State) (n : Nat) : (s.skipFree n).hops = s.hops := rfl
@[simp] theorem State.skipFree_here (s : State) (n : Nat) : (s.skipFree n).here = s.here := rfl
@[simp] theorem State.skipFree_pads (s : State) (n : Nat) : (s.skipFree n).pads = s.pads := rfl
@[simp] theorem State.skipFree_valHits (s : State) (n : Nat) : (s.skipFree n).valHits = s.valHits := rfl
@[simp] theorem State.skipFree_violAt (s : State) (n : Nat) : (s.skipFree n).violAt = s.violAt := rfl
@[simp] theorem State.skipFree_posted (s : State) (n : Nat) : (s.skipFree n).posted = s.posted := rfl

@[simp] theorem State.emit_regs (s : State) (o : Out) : (s.emit o).regs = s.regs := rfl
@[simp] theorem State.emit_mem (s : State) (o : Out) : (s.emit o).mem = s.mem := rfl
@[simp] theorem State.emit_ecc (s : State) (o : Out) : (s.emit o).ecc = s.ecc := rfl
@[simp] theorem State.emit_now (s : State) (o : Out) : (s.emit o).now = s.now := rfl
@[simp] theorem State.emit_stc (s : State) (o : Out) : (s.emit o).stc = s.stc := rfl
@[simp] theorem State.emit_free (s : State) (o : Out) : (s.emit o).free = s.free := rfl
@[simp] theorem State.emit_held (s : State) (o : Out) : (s.emit o).held = s.held := rfl
@[simp] theorem State.emit_resp (s : State) (o : Out) : (s.emit o).resp = s.resp := rfl
@[simp] theorem State.emit_fired (s : State) (o : Out) : (s.emit o).fired = s.fired := rfl
@[simp] theorem State.emit_tasks (s : State) (o : Out) : (s.emit o).tasks = s.tasks := rfl
@[simp] theorem State.emit_rings (s : State) (o : Out) : (s.emit o).rings = s.rings := rfl
@[simp] theorem State.emit_pool (s : State) (o : Out) : (s.emit o).pool = s.pool := rfl
@[simp] theorem State.emit_threads (s : State) (o : Out) : (s.emit o).threads = s.threads := rfl
@[simp] theorem State.emit_dirty (s : State) (o : Out) : (s.emit o).dirty = s.dirty := rfl
@[simp] theorem State.emit_outst (s : State) (o : Out) : (s.emit o).outst = s.outst := rfl
@[simp] theorem State.emit_brz (s : State) (o : Out) : (s.emit o).brz = s.brz := rfl
@[simp] theorem State.emit_flash (s : State) (o : Out) : (s.emit o).flash = s.flash := rfl
@[simp] theorem State.emit_tim (s : State) (o : Out) : (s.emit o).tim = s.tim := rfl
@[simp] theorem State.emit_lull (s : State) (o : Out) : (s.emit o).lull = s.lull := rfl
@[simp] theorem State.emit_hse (s : State) (o : Out) : (s.emit o).hse = s.hse := rfl
@[simp] theorem State.emit_cst (s : State) (o : Out) : (s.emit o).cst = s.cst := rfl
@[simp] theorem State.emit_heads (s : State) (o : Out) : (s.emit o).heads = s.heads := rfl
@[simp] theorem State.emit_cmp (s : State) (o : Out) : (s.emit o).cmp = s.cmp := rfl
@[simp] theorem State.emit_sql (s : State) (o : Out) : (s.emit o).sql = s.sql := rfl
@[simp] theorem State.emit_gst (s : State) (o : Out) : (s.emit o).gst = s.gst := rfl
@[simp] theorem State.emit_pins (s : State) (o : Out) : (s.emit o).pins = s.pins := rfl
@[simp] theorem State.emit_twd (s : State) (o : Out) : (s.emit o).twd = s.twd := rfl
@[simp] theorem State.emit_gal (s : State) (o : Out) : (s.emit o).gal = s.gal := rfl
@[simp] theorem State.emit_ports (s : State) (o : Out) : (s.emit o).ports = s.ports := rfl
@[simp] theorem State.emit_sec (s : State) (o : Out) : (s.emit o).sec = s.sec := rfl
@[simp] theorem State.emit_pwr (s : State) (o : Out) : (s.emit o).pwr = s.pwr := rfl
@[simp] theorem State.emit_cxlTaint (s : State) (o : Out) : (s.emit o).cxlTaint = s.cxlTaint := rfl
@[simp] theorem State.emit_cxlFresh (s : State) (o : Out) : (s.emit o).cxlFresh = s.cxlFresh := rfl
@[simp] theorem State.emit_ctsHits (s : State) (o : Out) : (s.emit o).ctsHits = s.ctsHits := rfl
@[simp] theorem State.emit_pending (s : State) (o : Out) : (s.emit o).pending = s.pending := rfl
@[simp] theorem State.emit_clk (s : State) (o : Out) : (s.emit o).clk = s.clk := rfl
@[simp] theorem State.emit_clk0 (s : State) (o : Out) : (s.emit o).clk0 = s.clk0 := rfl
@[simp] theorem State.emit_busy (s : State) (o : Out) : (s.emit o).busy = s.busy := rfl
@[simp] theorem State.emit_hops (s : State) (o : Out) : (s.emit o).hops = s.hops := rfl
@[simp] theorem State.emit_here (s : State) (o : Out) : (s.emit o).here = s.here := rfl
@[simp] theorem State.emit_pads (s : State) (o : Out) : (s.emit o).pads = s.pads := rfl
@[simp] theorem State.emit_valHits (s : State) (o : Out) : (s.emit o).valHits = s.valHits := rfl
@[simp] theorem State.emit_violAt (s : State) (o : Out) : (s.emit o).violAt = s.violAt := rfl
@[simp] theorem State.emit_posted (s : State) (o : Out) : (s.emit o).posted = s.posted := rfl

@[simp] theorem State.answer_regs (s : State) (st : Status) (bs : List Byte) : (s.answer st bs).regs = s.regs := rfl
@[simp] theorem State.answer_mem (s : State) (st : Status) (bs : List Byte) : (s.answer st bs).mem = s.mem := rfl
@[simp] theorem State.answer_ecc (s : State) (st : Status) (bs : List Byte) : (s.answer st bs).ecc = s.ecc := rfl
@[simp] theorem State.answer_now (s : State) (st : Status) (bs : List Byte) : (s.answer st bs).now = s.now := rfl
@[simp] theorem State.answer_stc (s : State) (st : Status) (bs : List Byte) : (s.answer st bs).stc = s.stc := rfl
@[simp] theorem State.answer_free (s : State) (st : Status) (bs : List Byte) : (s.answer st bs).free = s.free := rfl
@[simp] theorem State.answer_held (s : State) (st : Status) (bs : List Byte) : (s.answer st bs).held = s.held := rfl
@[simp] theorem State.answer_out (s : State) (st : Status) (bs : List Byte) : (s.answer st bs).out = s.out := rfl
@[simp] theorem State.answer_fired (s : State) (st : Status) (bs : List Byte) : (s.answer st bs).fired = s.fired := rfl
@[simp] theorem State.answer_tasks (s : State) (st : Status) (bs : List Byte) : (s.answer st bs).tasks = s.tasks := rfl
@[simp] theorem State.answer_rings (s : State) (st : Status) (bs : List Byte) : (s.answer st bs).rings = s.rings := rfl
@[simp] theorem State.answer_pool (s : State) (st : Status) (bs : List Byte) : (s.answer st bs).pool = s.pool := rfl
@[simp] theorem State.answer_threads (s : State) (st : Status) (bs : List Byte) : (s.answer st bs).threads = s.threads := rfl
@[simp] theorem State.answer_dirty (s : State) (st : Status) (bs : List Byte) : (s.answer st bs).dirty = s.dirty := rfl
@[simp] theorem State.answer_outst (s : State) (st : Status) (bs : List Byte) : (s.answer st bs).outst = s.outst := rfl
@[simp] theorem State.answer_brz (s : State) (st : Status) (bs : List Byte) : (s.answer st bs).brz = s.brz := rfl
@[simp] theorem State.answer_flash (s : State) (st : Status) (bs : List Byte) : (s.answer st bs).flash = s.flash := rfl
@[simp] theorem State.answer_tim (s : State) (st : Status) (bs : List Byte) : (s.answer st bs).tim = s.tim := rfl
@[simp] theorem State.answer_lull (s : State) (st : Status) (bs : List Byte) : (s.answer st bs).lull = s.lull := rfl
@[simp] theorem State.answer_hse (s : State) (st : Status) (bs : List Byte) : (s.answer st bs).hse = s.hse := rfl
@[simp] theorem State.answer_cst (s : State) (st : Status) (bs : List Byte) : (s.answer st bs).cst = s.cst := rfl
@[simp] theorem State.answer_heads (s : State) (st : Status) (bs : List Byte) : (s.answer st bs).heads = s.heads := rfl
@[simp] theorem State.answer_cmp (s : State) (st : Status) (bs : List Byte) : (s.answer st bs).cmp = s.cmp := rfl
@[simp] theorem State.answer_sql (s : State) (st : Status) (bs : List Byte) : (s.answer st bs).sql = s.sql := rfl
@[simp] theorem State.answer_gst (s : State) (st : Status) (bs : List Byte) : (s.answer st bs).gst = s.gst := rfl
@[simp] theorem State.answer_pins (s : State) (st : Status) (bs : List Byte) : (s.answer st bs).pins = s.pins := rfl
@[simp] theorem State.answer_twd (s : State) (st : Status) (bs : List Byte) : (s.answer st bs).twd = s.twd := rfl
@[simp] theorem State.answer_gal (s : State) (st : Status) (bs : List Byte) : (s.answer st bs).gal = s.gal := rfl
@[simp] theorem State.answer_ports (s : State) (st : Status) (bs : List Byte) : (s.answer st bs).ports = s.ports := rfl
@[simp] theorem State.answer_sec (s : State) (st : Status) (bs : List Byte) : (s.answer st bs).sec = s.sec := rfl
@[simp] theorem State.answer_pwr (s : State) (st : Status) (bs : List Byte) : (s.answer st bs).pwr = s.pwr := rfl
@[simp] theorem State.answer_cxlTaint (s : State) (st : Status) (bs : List Byte) : (s.answer st bs).cxlTaint = s.cxlTaint := rfl
@[simp] theorem State.answer_cxlFresh (s : State) (st : Status) (bs : List Byte) : (s.answer st bs).cxlFresh = s.cxlFresh := rfl
@[simp] theorem State.answer_ctsHits (s : State) (st : Status) (bs : List Byte) : (s.answer st bs).ctsHits = s.ctsHits := rfl
@[simp] theorem State.answer_pending (s : State) (st : Status) (bs : List Byte) : (s.answer st bs).pending = s.pending := rfl
@[simp] theorem State.answer_clk (s : State) (st : Status) (bs : List Byte) : (s.answer st bs).clk = s.clk := rfl
@[simp] theorem State.answer_clk0 (s : State) (st : Status) (bs : List Byte) : (s.answer st bs).clk0 = s.clk0 := rfl
@[simp] theorem State.answer_busy (s : State) (st : Status) (bs : List Byte) : (s.answer st bs).busy = s.busy := rfl
@[simp] theorem State.answer_hops (s : State) (st : Status) (bs : List Byte) : (s.answer st bs).hops = s.hops := rfl
@[simp] theorem State.answer_here (s : State) (st : Status) (bs : List Byte) : (s.answer st bs).here = s.here := rfl
@[simp] theorem State.answer_pads (s : State) (st : Status) (bs : List Byte) : (s.answer st bs).pads = s.pads := rfl
@[simp] theorem State.answer_valHits (s : State) (st : Status) (bs : List Byte) : (s.answer st bs).valHits = s.valHits := rfl
@[simp] theorem State.answer_violAt (s : State) (st : Status) (bs : List Byte) : (s.answer st bs).violAt = s.violAt := rfl
@[simp] theorem State.answer_posted (s : State) (st : Status) (bs : List Byte) : (s.answer st bs).posted = s.posted := rfl

@[simp] theorem State.fire_regs (s : State) (src : Nat) : (s.fire src).regs = s.regs := rfl
@[simp] theorem State.fire_mem (s : State) (src : Nat) : (s.fire src).mem = s.mem := rfl
@[simp] theorem State.fire_ecc (s : State) (src : Nat) : (s.fire src).ecc = s.ecc := rfl
@[simp] theorem State.fire_now (s : State) (src : Nat) : (s.fire src).now = s.now := rfl
@[simp] theorem State.fire_stc (s : State) (src : Nat) : (s.fire src).stc = s.stc := rfl
@[simp] theorem State.fire_free (s : State) (src : Nat) : (s.fire src).free = s.free := rfl
@[simp] theorem State.fire_held (s : State) (src : Nat) : (s.fire src).held = s.held := rfl
@[simp] theorem State.fire_resp (s : State) (src : Nat) : (s.fire src).resp = s.resp := rfl
@[simp] theorem State.fire_out (s : State) (src : Nat) : (s.fire src).out = s.out := rfl
@[simp] theorem State.fire_tasks (s : State) (src : Nat) : (s.fire src).tasks = s.tasks := rfl
@[simp] theorem State.fire_rings (s : State) (src : Nat) : (s.fire src).rings = s.rings := rfl
@[simp] theorem State.fire_pool (s : State) (src : Nat) : (s.fire src).pool = s.pool := rfl
@[simp] theorem State.fire_threads (s : State) (src : Nat) : (s.fire src).threads = s.threads := rfl
@[simp] theorem State.fire_dirty (s : State) (src : Nat) : (s.fire src).dirty = s.dirty := rfl
@[simp] theorem State.fire_outst (s : State) (src : Nat) : (s.fire src).outst = s.outst := rfl
@[simp] theorem State.fire_brz (s : State) (src : Nat) : (s.fire src).brz = s.brz := rfl
@[simp] theorem State.fire_flash (s : State) (src : Nat) : (s.fire src).flash = s.flash := rfl
@[simp] theorem State.fire_tim (s : State) (src : Nat) : (s.fire src).tim = s.tim := rfl
@[simp] theorem State.fire_lull (s : State) (src : Nat) : (s.fire src).lull = s.lull := rfl
@[simp] theorem State.fire_hse (s : State) (src : Nat) : (s.fire src).hse = s.hse := rfl
@[simp] theorem State.fire_cst (s : State) (src : Nat) : (s.fire src).cst = s.cst := rfl
@[simp] theorem State.fire_heads (s : State) (src : Nat) : (s.fire src).heads = s.heads := rfl
@[simp] theorem State.fire_cmp (s : State) (src : Nat) : (s.fire src).cmp = s.cmp := rfl
@[simp] theorem State.fire_sql (s : State) (src : Nat) : (s.fire src).sql = s.sql := rfl
@[simp] theorem State.fire_gst (s : State) (src : Nat) : (s.fire src).gst = s.gst := rfl
@[simp] theorem State.fire_pins (s : State) (src : Nat) : (s.fire src).pins = s.pins := rfl
@[simp] theorem State.fire_twd (s : State) (src : Nat) : (s.fire src).twd = s.twd := rfl
@[simp] theorem State.fire_gal (s : State) (src : Nat) : (s.fire src).gal = s.gal := rfl
@[simp] theorem State.fire_ports (s : State) (src : Nat) : (s.fire src).ports = s.ports := rfl
@[simp] theorem State.fire_sec (s : State) (src : Nat) : (s.fire src).sec = s.sec := rfl
@[simp] theorem State.fire_pwr (s : State) (src : Nat) : (s.fire src).pwr = s.pwr := rfl
@[simp] theorem State.fire_cxlTaint (s : State) (src : Nat) : (s.fire src).cxlTaint = s.cxlTaint := rfl
@[simp] theorem State.fire_cxlFresh (s : State) (src : Nat) : (s.fire src).cxlFresh = s.cxlFresh := rfl
@[simp] theorem State.fire_ctsHits (s : State) (src : Nat) : (s.fire src).ctsHits = s.ctsHits := rfl
@[simp] theorem State.fire_pending (s : State) (src : Nat) : (s.fire src).pending = s.pending := rfl
@[simp] theorem State.fire_clk (s : State) (src : Nat) : (s.fire src).clk = s.clk := rfl
@[simp] theorem State.fire_clk0 (s : State) (src : Nat) : (s.fire src).clk0 = s.clk0 := rfl
@[simp] theorem State.fire_busy (s : State) (src : Nat) : (s.fire src).busy = s.busy := rfl
@[simp] theorem State.fire_hops (s : State) (src : Nat) : (s.fire src).hops = s.hops := rfl
@[simp] theorem State.fire_here (s : State) (src : Nat) : (s.fire src).here = s.here := rfl
@[simp] theorem State.fire_pads (s : State) (src : Nat) : (s.fire src).pads = s.pads := rfl
@[simp] theorem State.fire_valHits (s : State) (src : Nat) : (s.fire src).valHits = s.valHits := rfl
@[simp] theorem State.fire_violAt (s : State) (src : Nat) : (s.fire src).violAt = s.violAt := rfl
@[simp] theorem State.fire_posted (s : State) (src : Nat) : (s.fire src).posted = s.posted := rfl

@[simp] theorem State.setTh_regs (s : State) (t : Nat) (x : Thread) : (s.setTh t x).regs = s.regs := rfl
@[simp] theorem State.setTh_mem (s : State) (t : Nat) (x : Thread) : (s.setTh t x).mem = s.mem := rfl
@[simp] theorem State.setTh_ecc (s : State) (t : Nat) (x : Thread) : (s.setTh t x).ecc = s.ecc := rfl
@[simp] theorem State.setTh_now (s : State) (t : Nat) (x : Thread) : (s.setTh t x).now = s.now := rfl
@[simp] theorem State.setTh_stc (s : State) (t : Nat) (x : Thread) : (s.setTh t x).stc = s.stc := rfl
@[simp] theorem State.setTh_free (s : State) (t : Nat) (x : Thread) : (s.setTh t x).free = s.free := rfl
@[simp] theorem State.setTh_held (s : State) (t : Nat) (x : Thread) : (s.setTh t x).held = s.held := rfl
@[simp] theorem State.setTh_resp (s : State) (t : Nat) (x : Thread) : (s.setTh t x).resp = s.resp := rfl
@[simp] theorem State.setTh_out (s : State) (t : Nat) (x : Thread) : (s.setTh t x).out = s.out := rfl
@[simp] theorem State.setTh_fired (s : State) (t : Nat) (x : Thread) : (s.setTh t x).fired = s.fired := rfl
@[simp] theorem State.setTh_tasks (s : State) (t : Nat) (x : Thread) : (s.setTh t x).tasks = s.tasks := rfl
@[simp] theorem State.setTh_rings (s : State) (t : Nat) (x : Thread) : (s.setTh t x).rings = s.rings := rfl
@[simp] theorem State.setTh_pool (s : State) (t : Nat) (x : Thread) : (s.setTh t x).pool = s.pool := rfl
@[simp] theorem State.setTh_dirty (s : State) (t : Nat) (x : Thread) : (s.setTh t x).dirty = s.dirty := rfl
@[simp] theorem State.setTh_outst (s : State) (t : Nat) (x : Thread) : (s.setTh t x).outst = s.outst := rfl
@[simp] theorem State.setTh_brz (s : State) (t : Nat) (x : Thread) : (s.setTh t x).brz = s.brz := rfl
@[simp] theorem State.setTh_flash (s : State) (t : Nat) (x : Thread) : (s.setTh t x).flash = s.flash := rfl
@[simp] theorem State.setTh_tim (s : State) (t : Nat) (x : Thread) : (s.setTh t x).tim = s.tim := rfl
@[simp] theorem State.setTh_lull (s : State) (t : Nat) (x : Thread) : (s.setTh t x).lull = s.lull := rfl
@[simp] theorem State.setTh_hse (s : State) (t : Nat) (x : Thread) : (s.setTh t x).hse = s.hse := rfl
@[simp] theorem State.setTh_cst (s : State) (t : Nat) (x : Thread) : (s.setTh t x).cst = s.cst := rfl
@[simp] theorem State.setTh_heads (s : State) (t : Nat) (x : Thread) : (s.setTh t x).heads = s.heads := rfl
@[simp] theorem State.setTh_cmp (s : State) (t : Nat) (x : Thread) : (s.setTh t x).cmp = s.cmp := rfl
@[simp] theorem State.setTh_sql (s : State) (t : Nat) (x : Thread) : (s.setTh t x).sql = s.sql := rfl
@[simp] theorem State.setTh_gst (s : State) (t : Nat) (x : Thread) : (s.setTh t x).gst = s.gst := rfl
@[simp] theorem State.setTh_pins (s : State) (t : Nat) (x : Thread) : (s.setTh t x).pins = s.pins := rfl
@[simp] theorem State.setTh_twd (s : State) (t : Nat) (x : Thread) : (s.setTh t x).twd = s.twd := rfl
@[simp] theorem State.setTh_gal (s : State) (t : Nat) (x : Thread) : (s.setTh t x).gal = s.gal := rfl
@[simp] theorem State.setTh_ports (s : State) (t : Nat) (x : Thread) : (s.setTh t x).ports = s.ports := rfl
@[simp] theorem State.setTh_sec (s : State) (t : Nat) (x : Thread) : (s.setTh t x).sec = s.sec := rfl
@[simp] theorem State.setTh_pwr (s : State) (t : Nat) (x : Thread) : (s.setTh t x).pwr = s.pwr := rfl
@[simp] theorem State.setTh_cxlTaint (s : State) (t : Nat) (x : Thread) : (s.setTh t x).cxlTaint = s.cxlTaint := rfl
@[simp] theorem State.setTh_cxlFresh (s : State) (t : Nat) (x : Thread) : (s.setTh t x).cxlFresh = s.cxlFresh := rfl
@[simp] theorem State.setTh_ctsHits (s : State) (t : Nat) (x : Thread) : (s.setTh t x).ctsHits = s.ctsHits := rfl
@[simp] theorem State.setTh_pending (s : State) (t : Nat) (x : Thread) : (s.setTh t x).pending = s.pending := rfl
@[simp] theorem State.setTh_clk (s : State) (t : Nat) (x : Thread) : (s.setTh t x).clk = s.clk := rfl
@[simp] theorem State.setTh_clk0 (s : State) (t : Nat) (x : Thread) : (s.setTh t x).clk0 = s.clk0 := rfl
@[simp] theorem State.setTh_busy (s : State) (t : Nat) (x : Thread) : (s.setTh t x).busy = s.busy := rfl
@[simp] theorem State.setTh_hops (s : State) (t : Nat) (x : Thread) : (s.setTh t x).hops = s.hops := rfl
@[simp] theorem State.setTh_here (s : State) (t : Nat) (x : Thread) : (s.setTh t x).here = s.here := rfl
@[simp] theorem State.setTh_pads (s : State) (t : Nat) (x : Thread) : (s.setTh t x).pads = s.pads := rfl
@[simp] theorem State.setTh_valHits (s : State) (t : Nat) (x : Thread) : (s.setTh t x).valHits = s.valHits := rfl
@[simp] theorem State.setTh_violAt (s : State) (t : Nat) (x : Thread) : (s.setTh t x).violAt = s.violAt := rfl
@[simp] theorem State.setTh_posted (s : State) (t : Nat) (x : Thread) : (s.setTh t x).posted = s.posted := rfl

@[simp] theorem State.answer_resp (s : State) (st : Status) (bs : List Byte) : (s.answer st bs).resp = ⟨st, bs⟩ := rfl
@[simp] theorem State.skipFree_free (s : State) (n : Nat) : (s.skipFree n).free = s.free + n := rfl
@[simp] theorem State.emit_out (s : State) (o : Out) : (s.emit o).out = s.out ++ [o] := rfl

/-! ### Registers -/

theorem State.reg_lt (s : State) (k : Nat) : s.reg k < 2 ^ 64 := BitVec.isLt _

theorem State.reg_of_regs {s t : State} (h : s.regs = t.regs) (k : Nat) : s.reg k = t.reg k := by
  simp only [State.reg, h]

/-- The register that was set reads as its value. -/
@[simp] theorem State.reg_setReg_same (s : State) (k v : Nat) : (s.setReg k v).reg k = v % 2 ^ 64 := by
  simp [State.reg, State.setReg, setRegs]

/-- Every other register reads as before. -/
theorem State.reg_setReg_other (s : State) {k j : Nat} (v : Nat) (h : j ≠ k) : (s.setReg k v).reg j = s.reg j := by
  simp [State.reg, State.setReg, setRegs, AMap.get_set_other _ _ _ _ h]

theorem State.reg_setFld_other (s : State) {f : Fld} {j : Nat} (x : Nat) (h : j ≠ f.key) :
    (s.setFld f x).reg j = s.reg j := s.reg_setReg_other _ h

/-- A register after one of its fields was set. -/
theorem State.reg_setFld_same (s : State) (f : Fld) (x : Nat) (h : f.lo + f.w ≤ 64) :
    (s.setFld f x).reg f.key = putBits (s.reg f.key) f.lo f.w x := by
  rw [State.setFld, State.reg_setReg_same, Nat.mod_eq_of_lt (putBits_lt x (s.reg_lt _) h)]

/-- The field that was set reads as what it was given. -/
theorem State.fld_setFld_same (s : State) (f : Fld) (x : Nat) (h : f.lo + f.w ≤ 64) :
    (s.setFld f x).fld f = x % 2 ^ f.w := by
  rw [State.fld, s.reg_setFld_same f x h, bits_putBits_same]

/-- A field of another register reads as before. -/
theorem State.fld_setFld_key (s : State) {f g : Fld} (x : Nat) (h : g.key ≠ f.key) :
    (s.setFld f x).fld g = s.fld g := by rw [State.fld, s.reg_setFld_other x h]; rfl

/-- A field that does not meet the one that was set reads as before. -/
theorem State.fld_setFld_apart (s : State) {f g : Fld} (x : Nat) (hf : f.lo + f.w ≤ 64)
    (h : f.lo + f.w ≤ g.lo ∨ g.lo + g.w ≤ f.lo) : (s.setFld f x).fld g = s.fld g := by
  by_cases hk : g.key = f.key
  · rw [State.fld, hk, s.reg_setFld_same f x hf, bits_putBits_other _ _ h, State.fld, hk]
  · exact s.fld_setFld_key x hk

theorem State.fld_setReg_other (s : State) {g : Fld} {k : Nat} (v : Nat) (h : g.key ≠ k) :
    (s.setReg k v).fld g = s.fld g := by rw [State.fld, s.reg_setReg_other v h]; rfl

theorem State.reg_resetRegs (s : State) (p : Nat → Bool) (k : Nat) :
    (s.resetRegs p).reg k = if p k then regReset k % 2 ^ 64 else s.reg k := by
  simp only [State.reg, State.resetRegs, AMap.get_dropKeys]
  split <;> simp

@[simp] theorem State.reg_poke (s : State) (a : Nat) (bs : List Byte) (j : Nat) : (s.poke a bs).reg j = s.reg j := rfl
@[simp] theorem State.fld_poke (s : State) (a : Nat) (bs : List Byte) (g : Fld) : (s.poke a bs).fld g = s.fld g := rfl
@[simp] theorem State.flag_poke (s : State) (a : Nat) (bs : List Byte) (g : Fld) : (s.poke a bs).flag g = s.flag g := rfl
@[simp] theorem State.reg_zero (s : State) (a n : Nat) (j : Nat) : (s.zero a n).reg j = s.reg j := rfl
@[simp] theorem State.fld_zero (s : State) (a n : Nat) (g : Fld) : (s.zero a n).fld g = s.fld g := rfl
@[simp] theorem State.flag_zero (s : State) (a n : Nat) (g : Fld) : (s.zero a n).flag g = s.flag g := rfl
@[simp] theorem State.reg_skipFree (s : State) (n : Nat) (j : Nat) : (s.skipFree n).reg j = s.reg j := rfl
@[simp] theorem State.fld_skipFree (s : State) (n : Nat) (g : Fld) : (s.skipFree n).fld g = s.fld g := rfl
@[simp] theorem State.flag_skipFree (s : State) (n : Nat) (g : Fld) : (s.skipFree n).flag g = s.flag g := rfl
@[simp] theorem State.reg_emit (s : State) (o : Out) (j : Nat) : (s.emit o).reg j = s.reg j := rfl
@[simp] theorem State.fld_emit (s : State) (o : Out) (g : Fld) : (s.emit o).fld g = s.fld g := rfl
@[simp] theorem State.flag_emit (s : State) (o : Out) (g : Fld) : (s.emit o).flag g = s.flag g := rfl
@[simp] theorem State.reg_answer (s : State) (st : Status) (bs : List Byte) (j : Nat) : (s.answer st bs).reg j = s.reg j := rfl
@[simp] theorem State.fld_answer (s : State) (st : Status) (bs : List Byte) (g : Fld) : (s.answer st bs).fld g = s.fld g := rfl
@[simp] theorem State.flag_answer (s : State) (st : Status) (bs : List Byte) (g : Fld) : (s.answer st bs).flag g = s.flag g := rfl
@[simp] theorem State.reg_fire (s : State) (src : Nat) (j : Nat) : (s.fire src).reg j = s.reg j := rfl
@[simp] theorem State.fld_fire (s : State) (src : Nat) (g : Fld) : (s.fire src).fld g = s.fld g := rfl
@[simp] theorem State.flag_fire (s : State) (src : Nat) (g : Fld) : (s.fire src).flag g = s.flag g := rfl
@[simp] theorem State.reg_setTh (s : State) (t : Nat) (x : Thread) (j : Nat) : (s.setTh t x).reg j = s.reg j := rfl
@[simp] theorem State.fld_setTh (s : State) (t : Nat) (x : Thread) (g : Fld) : (s.setTh t x).fld g = s.fld g := rfl
@[simp] theorem State.flag_setTh (s : State) (t : Nat) (x : Thread) (g : Fld) : (s.setTh t x).flag g = s.flag g := rfl

/-! ### Memory bytes -/

@[simp] theorem State.byte_setReg (s : State) (k v : Nat) (j : Nat) : (s.setReg k v).byte j = s.byte j := rfl
@[simp] theorem State.byte_setFld (s : State) (f : Fld) (x : Nat) (j : Nat) : (s.setFld f x).byte j = s.byte j := rfl
@[simp] theorem State.byte_resetRegs (s : State) (p : Nat → Bool) (j : Nat) : (s.resetRegs p).byte j = s.byte j := rfl
@[simp] theorem State.byte_skipFree (s : State) (n : Nat) (j : Nat) : (s.skipFree n).byte j = s.byte j := rfl
@[simp] theorem State.byte_emit (s : State) (o : Out) (j : Nat) : (s.emit o).byte j = s.byte j := rfl
@[simp] theorem State.byte_answer (s : State) (st : Status) (bs : List Byte) (j : Nat) : (s.answer st bs).byte j = s.byte j := rfl
@[simp] theorem State.byte_fire (s : State) (src : Nat) (j : Nat) : (s.fire src).byte j = s.byte j := rfl
@[simp] theorem State.byte_setTh (s : State) (t : Nat) (x : Thread) (j : Nat) : (s.setTh t x).byte j = s.byte j := rfl

theorem putBytes_get (m : AMap Byte) (a j : Nat) (bs : List Byte) :
    AMap.get (putBytes m a bs) j 0 = if a ≤ j ∧ j < a + bs.length then bs.getD (j - a) 0 else AMap.get m j 0 := by
  induction bs generalizing m a with
  | nil => simp only [putBytes, List.length_nil, Nat.add_zero]; rw [if_neg (by omega)]
  | cons b r ih =>
    rw [putBytes, ih]
    by_cases h : j = a
    · subst h; simp
    · rw [AMap.get_set_other _ _ _ _ h]
      by_cases h1 : a + 1 ≤ j ∧ j < a + 1 + r.length
      · have h2 : a ≤ j ∧ j < a + (b :: r).length := by simp only [List.length_cons]; omega
        have h3 : j - a = (j - (a + 1)) + 1 := by omega
        rw [if_pos h1, if_pos h2, h3, List.getD_cons_succ]
      · have h2 : ¬ (a ≤ j ∧ j < a + (b :: r).length) := by simp only [List.length_cons]; omega
        rw [if_neg h1, if_neg h2]

/-- A stored byte reads as what was stored, every other byte as before. -/
theorem State.byte_poke (s : State) (a : Nat) (bs : List Byte) (j : Nat) :
    (s.poke a bs).byte j = if a ≤ j ∧ j < a + bs.length then bs.getD (j - a) 0 else s.byte j := putBytes_get ..

theorem State.byte_poke_outside (s : State) {a j : Nat} {bs : List Byte} (h : ¬ (a ≤ j ∧ j < a + bs.length)) :
    (s.poke a bs).byte j = s.byte j := by rw [s.byte_poke, if_neg h]

theorem State.byte_zero (s : State) (a n j : Nat) :
    (s.zero a n).byte j = if a ≤ j ∧ j < a + n then 0 else s.byte j := by
  simp only [State.byte, State.zero, AMap.get_dropKeys, Bool.and_eq_true, decide_eq_true_eq]

/-- The bytes just stored read back. -/
theorem State.bytes_poke (s : State) (a : Nat) (bs : List Byte) : (s.poke a bs).bytes a bs.length = bs := by
  have key : ∀ (n i : Nat), i + n = bs.length → (s.poke a bs).bytes (a + i) n = bs.drop i := by
    intro n
    induction n with
    | zero => intro i h; simp only [State.bytes]; rw [List.drop_eq_nil_of_le]; omega
    | succ n ih =>
      intro i h
      have hi : i < bs.length := by omega
      rw [State.bytes, Nat.add_assoc, ih (i + 1) (by omega), s.byte_poke, if_pos ⟨by omega, by omega⟩]
      rw [Nat.add_sub_cancel_left, List.getD_eq_getElem _ _ hi, List.drop_eq_getElem_cons hi]
  simpa using key bs.length 0 (by omega)

/-- A number just stored reads back. -/
theorem State.num_poke (s : State) (a n v : Nat) : (s.poke a (toBytes n v)).num a n = v % 256 ^ n := by
  have h := s.bytes_poke a (toBytes n v)
  rw [length_toBytes] at h
  rw [State.num, h, ofBytes_toBytes]

theorem putBytes_wf {m : AMap Byte} (a : Nat) (bs : List Byte) (h : AMap.wf m (fun _ => 0) = true) :
    AMap.wf (putBytes m a bs) (fun _ => 0) = true := by
  induction bs generalizing m a with
  | nil => exact h
  | cons b r ih => exact ih (a + 1) (AMap.wf_set (d := fun _ => 0) a b h)

theorem fold_set_wf {m : AMap Byte} (l : List (Nat × Byte)) (h : AMap.wf m (fun _ => 0) = true) :
    AMap.wf (l.foldl (fun m (e : Nat × Byte) => AMap.set m e.1 e.2 0) m) (fun _ => 0) = true := by
  induction l generalizing m with
  | nil => exact h
  | cons e r ih => exact ih (AMap.wf_set (d := fun _ => 0) e.1 e.2 h)

theorem fold_set_at_wf {m : AMap Byte} (f : Nat → Nat) (l : List (Nat × Byte)) (h : AMap.wf m (fun _ => 0) = true) :
    AMap.wf (l.foldl (fun m (e : Nat × Byte) => AMap.set m (f e.1) e.2 0) m) (fun _ => 0) = true := by
  induction l generalizing m with
  | nil => exact h
  | cons e r ih => exact ih (AMap.wf_set (d := fun _ => 0) (f e.1) e.2 h)

/-! ### Threads -/

/-- The thread that was replaced reads as its replacement. -/
@[simp] theorem State.th_setTh_same (s : State) (t : Nat) (x : Thread) : (s.setTh t x).th t = x := by
  simp [State.th, State.setTh]

theorem State.th_setTh_other (s : State) {t u : Nat} (x : Thread) (h : u ≠ t) : (s.setTh t x).th u = s.th u := by
  simp [State.th, State.setTh, AMap.get_set_other _ _ _ _ h]

@[simp] theorem State.th_setReg (s : State) (k v : Nat) (t : Nat) : (s.setReg k v).th t = s.th t := rfl
@[simp] theorem State.th_setFld (s : State) (f : Fld) (x : Nat) (t : Nat) : (s.setFld f x).th t = s.th t := rfl
@[simp] theorem State.th_resetRegs (s : State) (p : Nat → Bool) (t : Nat) : (s.resetRegs p).th t = s.th t := rfl
@[simp] theorem State.th_poke (s : State) (a : Nat) (bs : List Byte) (t : Nat) : (s.poke a bs).th t = s.th t := rfl
@[simp] theorem State.th_zero (s : State) (a n : Nat) (t : Nat) : (s.zero a n).th t = s.th t := rfl
@[simp] theorem State.th_skipFree (s : State) (n : Nat) (t : Nat) : (s.skipFree n).th t = s.th t := rfl
@[simp] theorem State.th_emit (s : State) (o : Out) (t : Nat) : (s.emit o).th t = s.th t := rfl
@[simp] theorem State.th_answer (s : State) (st : Status) (bs : List Byte) (t : Nat) : (s.answer st bs).th t = s.th t := rfl
@[simp] theorem State.th_fire (s : State) (src : Nat) (t : Nat) : (s.fire src).th t = s.th t := rfl

/-- The register that was set reads as its value. -/
@[simp] theorem Thread.gpr_setGpr_same (x : Thread) (r v : Nat) : (x.setGpr r v).gpr r = v % 2 ^ 64 := by
  simp [Thread.gpr, Thread.setGpr]

theorem Thread.gpr_setGpr_other (x : Thread) {r q : Nat} (v : Nat) (h : q ≠ r) : (x.setGpr r v).gpr q = x.gpr q := by
  simp [Thread.gpr, Thread.setGpr, AMap.get_set_other _ _ _ _ h]

theorem Thread.gpr_lt (x : Thread) (r : Nat) : x.gpr r < 2 ^ 64 := BitVec.isLt _

@[simp] theorem Thread.sr_setSr_same (x : Thread) (n v : Nat) : (x.setSr n v).sr n = v % 2 ^ 64 := by
  simp [Thread.sr, Thread.setSr]

theorem Thread.sr_setSr_other (x : Thread) {n m : Nat} (v : Nat) (h : m ≠ n) : (x.setSr n v).sr m = x.sr m := by
  simp [Thread.sr, Thread.setSr, AMap.get_set_other _ _ _ _ h]

@[simp] theorem Thread.gpr_setSr (x : Thread) (n v r : Nat) : (x.setSr n v).gpr r = x.gpr r := rfl
@[simp] theorem Thread.sr_setGpr (x : Thread) (n v r : Nat) : (x.setGpr n v).sr r = x.sr r := rfl
@[simp] theorem Thread.pc_setGpr (x : Thread) (n v : Nat) : (x.setGpr n v).pc = x.pc := rfl
@[simp] theorem Thread.pc_setSr (x : Thread) (n v : Nat) : (x.setSr n v).pc = x.pc := rfl
@[simp] theorem Thread.load_setGpr (x : Thread) (n v : Nat) : (x.setGpr n v).load = x.load := rfl
@[simp] theorem Thread.load_setSr (x : Thread) (n v : Nat) : (x.setSr n v).load = x.load := rfl

end Sys2Proof.Machine
end

