-- ==== Sys2Proof/Laws/Writes.lean ====
section
/-! SUPPORT. Laws of register writes: what a write leaves in each bit and each field of a register, and what a command that
writes a register amounts to. -/

namespace Sys2Proof.Machine

/-- Taking away the bits of `x` that `a` has clears them. -/
theorem testBit_clear (a x i : Nat) : (a - Nat.land a x).testBit i = (a.testBit i && !x.testBit i) := by
  have hdiv (a x : Nat) : Nat.land a x / 2 = Nat.land (a / 2) (x / 2) := Nat.and_div_two
  have hmod (a x : Nat) : Nat.land a x % 2 = a % 2 * (x % 2) := by
    rw [show Nat.land a x % 2 = (a % 2) &&& (x % 2) from Nat.and_mod_two_pow (n := 1)]
    rcases Nat.mod_two_eq_zero_or_one a with h | h <;> rcases Nat.mod_two_eq_zero_or_one x with g | g <;>
      rw [h, g] <;> rfl
  have hle (a x : Nat) : Nat.land a x ≤ a := Nat.and_le_left
  induction i generalizing a x with
  | zero =>
    have h1 := hmod a x
    have h2 := hdiv a x
    have h3 := hle a x
    rw [Nat.testBit_zero, Nat.testBit_zero, Nat.testBit_zero]
    generalize Nat.land a x = z at *
    rcases Nat.mod_two_eq_zero_or_one a with h | h <;> rcases Nat.mod_two_eq_zero_or_one x with g | g <;>
      simp only [h, g] at h1 ⊢ <;> simp <;> omega
  | succ n ih =>
    rw [Nat.testBit_succ, Nat.testBit_succ, Nat.testBit_succ, ← ih]
    congr 1
    have h1 := hmod a x
    have h2 := hdiv a x
    have h3 := hle a x
    have h4 := hle (a / 2) (x / 2)
    have h5 : a % 2 * (x % 2) ≤ a % 2 := by
      rcases Nat.mod_two_eq_zero_or_one x with g | g <;> simp [g]
    omega

theorem testBit_bits (v lo w i : Nat) : (bits v lo w).testBit i = (decide (i < w) && v.testBit (lo + i)) := by
  unfold bits
  rw [Nat.testBit_mod_two_pow, Nat.testBit_div_two_pow, Nat.add_comm]

/-- Two numbers have the same field when they have its bits in common. -/
theorem bits_congr {u v lo w : Nat} (h : ∀ i, i < w → u.testBit (lo + i) = v.testBit (lo + i)) :
    bits u lo w = bits v lo w := by
  apply Nat.eq_of_testBit_eq; intro i
  rw [testBit_bits, testBit_bits]
  by_cases hi : i < w
  · simp [h i hi]
  · simp [hi]

/-- One bit of a register after a write (R7). -/
theorem RegW.testBit_merged (w : RegW) (old i : Nat) :
    (w.merged old).testBit i =
      (((old.testBit i && !(w.row.rw.testBit i && w.m.testBit i)) &&
          !(w.v.testBit i && w.m.testBit i && w.row.w1c.testBit i)) ||
        (w.v.testBit i && (w.row.rw.testBit i && w.m.testBit i)) ||
        (w.v.testBit i && w.m.testBit i && w.row.w1s.testBit i)) := by
  have l (a b j : Nat) : (Nat.land a b).testBit j = (a.testBit j && b.testBit j) := Nat.testBit_and ..
  have o (a b j : Nat) : (Nat.lor a b).testBit j = (a.testBit j || b.testBit j) := Nat.testBit_or ..
  simp only [RegW.merged, o, testBit_clear, l]

/-- A field of type RW or RWL takes what the write holds. -/
theorem RegW.merged_fld_rw {w : RegW} {lo n : Nat} (old : Nat)
    (h : ∀ i, i < n → w.row.rw.testBit (lo + i) = true ∧ w.m.testBit (lo + i) = true) :
    bits (w.merged old) lo n = bits w.v lo n := by
  apply bits_congr; intro i hi
  rw [RegW.testBit_merged, (h i hi).1, (h i hi).2]
  cases w.v.testBit (lo + i) <;> simp

/-- A field that no part of the write touches keeps what it held. -/
theorem RegW.merged_fld_kept {w : RegW} {lo n : Nat} (old : Nat)
    (h : ∀ i, i < n → w.m.testBit (lo + i) = false ∨
      (w.row.rw.testBit (lo + i) = false ∧ w.row.w1c.testBit (lo + i) = false ∧ w.row.w1s.testBit (lo + i) = false)) :
    bits (w.merged old) lo n = bits old lo n := by
  apply bits_congr; intro i hi
  rw [RegW.testBit_merged]
  rcases h i hi with h | ⟨h1, h2, h3⟩
  · simp [h]
  · simp [h1, h2, h3]

/-- What a register holds after a write stays within 64 bits. -/
theorem RegW.merged_lt {w : RegW} {old : Nat} (ho : old < 2 ^ 64) (hrw : w.row.rw < 2 ^ 64) (hs : w.row.w1s < 2 ^ 64) :
    w.merged old < 2 ^ 64 := by
  apply Nat.lt_pow_two_of_testBit; intro i hi
  rw [RegW.testBit_merged, Nat.testBit_lt_two_pow (lt_of_lt_of_le ho (Nat.pow_le_pow_right (by decide) hi)),
    Nat.testBit_lt_two_pow (lt_of_lt_of_le hrw (Nat.pow_le_pow_right (by decide) hi)),
    Nat.testBit_lt_two_pow (lt_of_lt_of_le hs (Nat.pow_le_pow_right (by decide) hi))]
  simp

/-- The write of a whole value to a register of the map. -/
theorem fullW_eq {k : Nat} {r : RegRow} {b : Nat} (h : regAt k = some (r, b)) (v : Nat) :
    fullW k v = ⟨r, b, 2 ^ (8 * r.bytes) - 1, v⟩ := by simp only [fullW, h]

/-- A powered block means a device out of reset. -/
theorem State.blockOn_out {s : State} {b : Nat} (h : s.blockOn b = true) : s.held = false := by
  cases hh : s.held with
  | false => rfl
  | true => simp [State.blockOn, hh] at h

/-- A command that writes a register of a powered block is that register's write, and its answer. -/
theorem State.regCmd_of {s : State} {k : Nat} {r : RegRow} {b : Nat} (q : Req) (v : Nat) (hr : regAt k = some (r, b))
    (hs : s.held = false) :
    s.regCmd q k v = (s.writeReg q ⟨r, b, 2 ^ (8 * r.bytes) - 1, v⟩).s.answer
      (s.writeReg q ⟨r, b, 2 ^ (8 * r.bytes) - 1, v⟩).st := by
  simp only [State.regCmd, hs, fullW_eq hr]
  rfl

/-- A plain write seen at the register it writes. -/
theorem State.reg_plainWrite_same (s : State) (w : RegW) (hrw : w.row.rw < 2 ^ 64) (hs : w.row.w1s < 2 ^ 64) :
    (s.plainWrite w).reg w.k = w.merged (s.reg w.k) := by
  rw [State.plainWrite, State.reg_setReg_same, Nat.mod_eq_of_lt (RegW.merged_lt (s.reg_lt _) hrw hs)]

theorem State.reg_plainWrite_other (s : State) {w : RegW} {j : Nat} (h : j ≠ w.k) :
    (s.plainWrite w).reg j = s.reg j := s.reg_setReg_other _ h

/-! ### Which block takes a write (R17, R27) -/

theorem State.writeReg_sys {s : State} {w : RegW} (q : Req) (hb : s.blockOn 0x00 = true) (hk : blockOf w.k = 0x00) :
    s.writeReg q w = sysWrite s q w := by simp [State.writeReg, hk, hb]

theorem State.writeReg_clk {s : State} {w : RegW} (q : Req) (hb : s.blockOn 0x01 = true) (hk : blockOf w.k = 0x01) :
    s.writeReg q w = clkWrite s q w := by simp [State.writeReg, hk, hb]

theorem State.writeReg_pwr {s : State} {w : RegW} (q : Req) (hb : s.blockOn 0x02 = true) (hk : blockOf w.k = 0x02) :
    s.writeReg q w = pwrWrite s q w := by simp [State.writeReg, hk, hb]

theorem State.writeReg_sec {s : State} {w : RegW} (q : Req) (hb : s.blockOn 0x03 = true) (hk : blockOf w.k = 0x03) :
    s.writeReg q w = secWrite s q w := by simp [State.writeReg, hk, hb]

theorem State.writeReg_lul {s : State} {w : RegW} (q : Req) (hb : s.blockOn 0x05 = true) (hk : blockOf w.k = 0x05) :
    s.writeReg q w = lulWrite s q w := by simp [State.writeReg, hk, hb]

theorem State.writeReg_brz {s : State} {w : RegW} (q : Req) (hb : s.blockOn 0x06 = true) (hk : blockOf w.k = 0x06) :
    s.writeReg q w = brzWrite s q w := by simp [State.writeReg, hk, hb]

theorem State.writeReg_gpio {s : State} {w : RegW} (q : Req) (hb : s.blockOn 0x07 = true) (hk : blockOf w.k = 0x07) :
    s.writeReg q w = gpioWrite s q w := by simp [State.writeReg, hk, hb]

theorem State.writeReg_tim {s : State} {w : RegW} (q : Req) (hb : s.blockOn 0x08 = true) (hk : blockOf w.k = 0x08) :
    s.writeReg q w = timWrite s q w := by simp [State.writeReg, hk, hb]

theorem State.writeReg_gst {s : State} {w : RegW} (q : Req) (hb : s.blockOn 0x09 = true) (hk : blockOf w.k = 0x09) :
    s.writeReg q w = gstWrite s q w := by simp [State.writeReg, hk, hb]

theorem State.writeReg_twd {s : State} {w : RegW} (q : Req) (hb : s.blockOn 0x0A = true) (hk : blockOf w.k = 0x0A) :
    s.writeReg q w = twdWrite s q w := by simp [State.writeReg, hk, hb]

theorem State.writeReg_sql {s : State} {w : RegW} (q : Req) (hb : s.blockOn 0x0B = true) (hk : blockOf w.k = 0x0B) :
    s.writeReg q w = sqlWrite s q w := by simp [State.writeReg, hk, hb]

theorem State.writeReg_cmp {s : State} {w : RegW} (q : Req) (hb : s.blockOn 0x0C = true) (hk : blockOf w.k = 0x0C) :
    s.writeReg q w = cmpWrite s q w := by simp [State.writeReg, hk, hb]

theorem State.writeReg_gal {s : State} {w : RegW} (q : Req) (hb : s.blockOn 0x18 = true) (hk : blockOf w.k = 0x18) :
    s.writeReg q w = galWrite s q w := by simp [State.writeReg, hk, hb]

theorem State.writeReg_hse {s : State} {w : RegW} (q : Req) (hb : s.blockOn 0x19 = true) (hk : blockOf w.k = 0x19) :
    s.writeReg q w = hseWrite s q w := by simp [State.writeReg, hk, hb]

theorem State.writeReg_poolReg {s : State} {w : RegW} (q : Req) (hb : s.blockOn 0x1A = true) (hk : blockOf w.k = 0x1A) :
    s.writeReg q w = poolRegWrite s q w := by simp [State.writeReg, hk, hb]

theorem State.writeReg_cst {s : State} {w : RegW} (q : Req) (hb : s.blockOn 0x1B = true) (hk : blockOf w.k = 0x1B) :
    s.writeReg q w = cstWrite s q w := by simp [State.writeReg, hk, hb]

theorem State.writeReg_xspi {s : State} {w : RegW} (q : Req) (hb : s.blockOn 0x2C = true) (hk : blockOf w.k = 0x2C) :
    s.writeReg q w = xspiWrite s q w := by simp [State.writeReg, hk, hb]

theorem State.writeReg_bmi {s : State} {w : RegW} (q : Req) (hb : s.blockOn 0x2D = true) (hk : blockOf w.k = 0x2D) :
    s.writeReg q w = bmiWrite s q w := by simp [State.writeReg, hk, hb]

theorem State.writeReg_dbgu {s : State} {w : RegW} (q : Req) (hb : s.blockOn 0x2E = true) (hk : blockOf w.k = 0x2E) :
    s.writeReg q w = dbguWrite s q w := by simp [State.writeReg, hk, hb]

theorem State.writeReg_core {s : State} {w : RegW} (q : Req) (hb : s.blockOn 0x30 = true) (hk : blockOf w.k = 0x30) :
    s.writeReg q w = coreWrite s q w := by simp [State.writeReg, hk, hb]

theorem State.writeReg_head {s : State} {w : RegW} {n : Nat} (q : Req) (hb : s.blockOn n = true) (hk : blockOf w.k = n)
    (h1 : 0x10 ≤ n) (h2 : n ≤ 0x15) : s.writeReg q w = headWrite s w := by
  obtain rfl | rfl | rfl | rfl | rfl | rfl : n = 0x10 ∨ n = 0x11 ∨ n = 0x12 ∨ n = 0x13 ∨ n = 0x14 ∨ n = 0x15 := by omega
  all_goals simp [State.writeReg, hk, hb]

theorem State.writeReg_cxl {s : State} {w : RegW} {n : Nat} (q : Req) (hb : s.blockOn n = true) (hk : blockOf w.k = n)
    (h1 : 0x20 ≤ n) (h2 : n ≤ 0x21) : s.writeReg q w = cxlRegWrite s q (n - 0x20) w := by
  obtain rfl | rfl : n = 0x20 ∨ n = 0x21 := by omega
  all_goals simp [State.writeReg, hk, hb]

theorem State.writeReg_ats {s : State} {w : RegW} {n : Nat} (q : Req) (hb : s.blockOn n = true) (hk : blockOf w.k = n)
    (h1 : 0x24 ≤ n) (h2 : n ≤ 0x27) : s.writeReg q w = atsWrite s q (n - 0x24) w := by
  obtain rfl | rfl | rfl | rfl : n = 0x24 ∨ n = 0x25 ∨ n = 0x26 ∨ n = 0x27 := by omega
  all_goals simp [State.writeReg, hk, hb]

theorem State.writeReg_eth {s : State} {w : RegW} {n : Nat} (q : Req) (hb : s.blockOn n = true) (hk : blockOf w.k = n)
    (h1 : 0x28 ≤ n) (h2 : n ≤ 0x29) : s.writeReg q w = ethWrite s q (n - 0x28) w := by
  obtain rfl | rfl : n = 0x28 ∨ n = 0x29 := by omega
  all_goals simp [State.writeReg, hk, hb]

end Sys2Proof.Machine
end

