-- ==== Sys2Proof/Laws/Events.lean ====
section
/-! SUPPORT. Laws of what is signalled: the pulses of an event depend on the channels' SRC fields alone. -/

namespace Sys2Proof.Machine

theorem AMap.filterMap_erase {α β : Type} (m : AMap α) (k : Nat) (f : Nat × α → Option β) (h : ∀ v, f (k, v) = none) :
    (AMap.erase m k).filterMap f = m.filterMap f := by
  induction m with
  | nil => rfl
  | cons e r ih =>
    obtain ⟨a, v⟩ := e
    by_cases hk : a = k
    · subst hk; simp [AMap.erase, ih, h]
    · simp only [AMap.erase, hk, if_false, List.filterMap_cons, ih]

theorem AMap.filterMap_ins {α β : Type} (m : AMap α) (k : Nat) (x : α) (f : Nat × α → Option β) (h : ∀ v, f (k, v) = none) :
    (AMap.ins m k x).filterMap f = m.filterMap f := by
  induction m with
  | nil => simp [AMap.ins, h]
  | cons e r ih =>
    obtain ⟨a, v⟩ := e
    by_cases hk : k < a
    · simp [AMap.ins, hk, h]
    · simp only [AMap.ins, hk, if_false, List.filterMap_cons, ih]

theorem AMap.filterMap_set {α β : Type} [DecidableEq α] (m : AMap α) (k : Nat) (x d : α) (f : Nat × α → Option β)
    (h : ∀ v, f (k, v) = none) : (AMap.set m k x d).filterMap f = m.filterMap f := by
  unfold AMap.set; split
  · exact AMap.filterMap_erase m k f h
  · rw [AMap.filterMap_ins _ _ _ _ h, AMap.filterMap_erase m k f h]

/-- A register other than a channel's set-up does not change who listens. -/
theorem State.listeners_setReg (s : State) (k v src : Nat) (h : k < R.BRZ_CH_CFG 0 ∨ R.BRZ_CH_CFG 256 ≤ k ∨ (k - R.BRZ_CH_CFG 0) % 16 ≠ 0) :
    (s.setReg k v).listeners src = s.listeners src := by
  refine AMap.filterMap_set _ _ _ _ _ (fun x => ?_)
  rw [if_neg]
  rintro ⟨h1, h2, h3, -⟩
  simp only at h1 h2 h3
  omega

theorem State.pulses_setReg (s : State) (k v src : Nat) (h : k < R.BRZ_CH_CFG 0 ∨ R.BRZ_CH_CFG 256 ≤ k ∨ (k - R.BRZ_CH_CFG 0) % 16 ≠ 0) :
    (s.setReg k v).pulses src = s.pulses src := by
  unfold State.pulses; rw [State.listeners_setReg s k v src h]

theorem State.listeners_setFld (s : State) (f : Fld) (v src : Nat) 
    (h : f.key < R.BRZ_CH_CFG 0 ∨ R.BRZ_CH_CFG 256 ≤ f.key ∨ (f.key - R.BRZ_CH_CFG 0) % 16 ≠ 0) :
    (s.setFld f v).listeners src = s.listeners src := State.listeners_setReg s _ _ src h

theorem State.pulses_setFld (s : State) (f : Fld) (v src : Nat) 
    (h : f.key < R.BRZ_CH_CFG 0 ∨ R.BRZ_CH_CFG 256 ≤ f.key ∨ (f.key - R.BRZ_CH_CFG 0) % 16 ≠ 0) :
    (s.setFld f v).pulses src = s.pulses src := State.pulses_setReg s _ _ src h

theorem State.pulses_of_regs {s t : State} (h : t.regs = s.regs) (src : Nat) : t.pulses src = s.pulses src := by
  unfold State.pulses State.listeners; rw [h]

@[simp] theorem State.fire_fired (s : State) (src : Nat) : (s.fire src).fired = s.fired ++ s.pulses src := rfl

end Sys2Proof.Machine
end

