-- ==== Sys2Proof/Laws/Reads.lean ====
section
/-! SUPPORT. Laws of reads: what a read of plain memory, and a thread's fetch, leave unchanged. -/

namespace Sys2Proof.Machine

/-- Beside the error registers of the pool and the CXL ports, the SEC-DED states, the remap queue, the free values read
and the pulses under way, `t` is `s`. -/
structure Quiet (s t : State) : Prop where
  rest : t = { s with regs := t.regs, ecc := t.ecc, free := t.free, fired := t.fired, pool := t.pool }
  regs : ∀ k, blockOf k ≠ 0x1A → blockOf k ≠ 0x20 → blockOf k ≠ 0x21 → t.reg k = s.reg k

theorem Quiet.refl (s : State) : Quiet s s := ⟨rfl, fun _ _ _ _ => rfl⟩

theorem Quiet.trans {s t u : State} (h : Quiet s t) (g : Quiet t u) : Quiet s u := by
  refine ⟨?_, fun k a b c => (g.regs k a b c).trans (h.regs k a b c)⟩
  rw [g.rest]
  conv_lhs => rw [h.rest]

theorem Quiet.mem {s t : State} (h : Quiet s t) : t.mem = s.mem := by rw [h.rest]
theorem Quiet.threads {s t : State} (h : Quiet s t) : t.threads = s.threads := by rw [h.rest]
theorem Quiet.th {s t : State} (h : Quiet s t) (n : Nat) : t.th n = s.th n := by rw [State.th, State.th, h.threads]

theorem quiet_setReg (s : State) {k : Nat} (v : Nat) (h : blockOf k = 0x1A ∨ blockOf k = 0x20 ∨ blockOf k = 0x21) :
    Quiet s (s.setReg k v) :=
  ⟨rfl, fun j a b c => State.reg_setReg_other s v (by rintro rfl; omega)⟩

theorem quiet_setFld (s : State) {f : Fld} (v : Nat) (h : blockOf f.key = 0x1A ∨ blockOf f.key = 0x20 ∨ blockOf f.key = 0x21) :
    Quiet s (s.setFld f v) := quiet_setReg _ _ h

theorem quiet_fire (s : State) (n : Nat) : Quiet s (s.fire n) := ⟨rfl, fun _ _ _ _ => rfl⟩
theorem quiet_skipFree (s : State) (n : Nat) : Quiet s (s.skipFree n) := ⟨rfl, fun _ _ _ _ => rfl⟩
theorem quiet_setEcc (s : State) (a : Nat) (e : Ecc) : Quiet s (s.setEcc a e) := ⟨rfl, fun _ _ _ _ => rfl⟩

theorem quiet_refuse_pool (s : State) (q : Req) (wr : Bool) (b : Nat) : Quiet s (s.refuse q wr (.pool b)) :=
  ((quiet_setFld s _ (.inl rfl)).trans (quiet_setReg _ _ (.inl rfl))).trans (quiet_fire _ _)

theorem quiet_offAcc (s : State) (n : Nat) : Quiet s (offAcc s false n).s := quiet_skipFree s n

theorem quiet_remapTrigger (s : State) (b : Nat) : Quiet s (s.remapTrigger b) := by
  unfold State.remapTrigger
  split
  · exact Quiet.refl s
  · exact ⟨rfl, fun _ _ _ _ => rfl⟩

theorem quiet_noteUe (s : State) (a k : Nat) : Quiet s (s.noteUe a k) :=
  ((quiet_setFld s _ (.inl rfl)).trans (quiet_setReg _ _ (.inl rfl))).trans (quiet_fire _ _)

theorem bank_state_block {b : Nat} (h : b < 512) : blockOf (F.POOL_BANK_STATE_CE_COUNT b).key = 0x1A := by
  simp only [blockOf, R.POOL_BANK_STATE]
  omega

theorem quiet_noteCe (s : State) {a : Nat} (h : eccBank a < 512) : Quiet s (s.noteCe a) := by
  simp only [State.noteCe]
  split
  · exact quiet_setEcc s a .clean
  · split
    · exact ((quiet_setEcc s a .clean).trans (quiet_setFld _ _ (.inl (bank_state_block h)))).trans (quiet_remapTrigger _ _)
    · exact (quiet_setEcc s a .clean).trans (quiet_setFld _ _ (.inl (bank_state_block h)))

theorem quiet_eccRead (s : State) {a : Nat} (h : eccBank a < 512) : Quiet s (s.eccRead a).2 := by
  unfold State.eccRead
  split
  · exact Quiet.refl s
  · exact quiet_noteCe s h
  · exact (quiet_noteUe s a 1).trans (quiet_remapTrigger _ _)
  · exact quiet_noteUe s a 2

theorem quiet_eccReads (s : State) (a n : Nat) (h : ∀ i < n, eccBank (a + 8 * i) < 512) : Quiet s (s.eccReads a n).2 := by
  induction n with
  | zero => exact Quiet.refl s
  | succ n ih =>
    exact (ih (fun i hi => h i (by omega))).trans (quiet_eccRead _ (h n (by omega)))

theorem eccBank_pool {o n i : Nat} (h : o + n ≤ poolSize) (hi : i < wordsOf (poolBase + o) n) :
    eccBank ((poolBase + o) / 8 * 8 + 8 * i) < 512 := by
  simp only [wordsOf, poolBase, poolSize] at *
  unfold eccBank
  simp only [vaultBase, poolBase, bankSize]
  split at hi
  · omega
  · split
    · omega
    · omega

theorem eccBank_vault (o i : Nat) : eccBank ((vaultBase + o) / 8 * 8 + 8 * i) < 512 := by
  unfold eccBank
  simp only [vaultBase, poolBase, bankSize]
  split
  · omega
  · omega

theorem quiet_poolFetch (s : State) {o n : Nat} (h : o + n ≤ poolSize) : Quiet s (s.poolFetch o n).s := by
  simp only [State.poolFetch]
  split
  · exact quiet_offAcc s n
  · split
    · exact Quiet.refl s
    · cases s.ecc.isEmpty
      · have := quiet_eccReads s ((poolBase + o) / 8 * 8) (wordsOf (poolBase + o) n) (fun i hi => eccBank_pool h hi)
        simp only [Bool.false_eq_true, if_false]
        split <;> exact this
      · exact Quiet.refl s

theorem quiet_poolRead (s : State) (q : Req) {o n : Nat} (h : o + n ≤ poolSize) : Quiet s (s.poolRead q o n).s := by
  simp only [State.poolRead]
  split
  · exact quiet_refuse_pool s q false _
  · exact quiet_poolFetch s h

theorem quiet_rotRead (s : State) (q : Req) {o n : Nat} (h : o + 1 ≤ poolSize) : Quiet s (s.rotRead q o n).s := by
  have := quiet_poolRead s q (o := o / 8 * 8) (n := 8) (by simp only [poolSize] at *; omega)
  simp only [State.rotRead, Acc.rotated]
  split <;> exact this

theorem quiet_vaultRead (s : State) (q : Req) (o n : Nat) : Quiet s (s.vaultRead q o n).s := by
  simp only [State.vaultRead]
  split
  · exact quiet_refuse_pool s q false _
  · split
    · exact quiet_offAcc s n
    · split
      · exact Quiet.refl s
      · cases s.ecc.isEmpty
        · have := quiet_eccReads s ((vaultBase + o) / 8 * 8) (wordsOf (vaultBase + o) n) (fun i _ => eccBank_vault o i)
          simp only [Bool.false_eq_true, if_false]
          split <;> exact this
        · exact Quiet.refl s

theorem quiet_ctsRead (s : State) (o n : Nat) : Quiet s (s.ctsRead o n).s := by
  simp only [State.ctsRead]
  split
  · exact Quiet.refl s
  · exact quiet_offAcc s n

theorem cxl_block {p : Nat} (h : p < 2) (x : Nat) (hx : x < 0x10000) :
    blockOf (0x200000 + x + 0x10000 * p) = 0x20 ∨ blockOf (0x200000 + x + 0x10000 * p) = 0x21 := by
  simp only [blockOf]; omega

theorem quiet_cxlCount (s : State) {p : Nat} (h : p < 2) : Quiet s (s.cxlCount p) := by
  unfold State.cxlCount
  split
  · refine quiet_setFld s _ (.inr ?_)
    simp only [cnt32, R.CXL_ERR_COUNT, blockOf]; omega
  · exact Quiet.refl s

theorem cxlPort_lt {s : State} {o p : Nat} (h : s.cxlPort o = some p) : p < 2 := by
  simp only [State.cxlPort] at h
  split at h
  · split at h
    · split at h
      · cases h; simp only [bits]; omega
      · cases h
    · cases h
  · split at h
    · cases h; omega
    · split at h
      · cases h; omega
      · cases h

theorem quiet_cxlErr (s : State) (o : Nat) : Quiet s (s.cxlErr o).s := by
  simp only [State.cxlErr, errAcc]
  apply quiet_cxlCount
  repeat' split
  all_goals first | omega | (simp only [bits]; omega)

theorem quiet_cxlPoison (s : State) {p : Nat} (h : p < 2) : Quiet s (s.cxlPoison p) := by
  refine (quiet_setFld s _ (.inr ?_)).trans (quiet_cxlCount _ h)
  simp only [R.CXL_STATUS, blockOf]; omega

theorem quiet_cxlRead (s : State) (o n : Nat) : Quiet s (s.cxlRead o n).s := by
  simp only [State.cxlRead]
  split
  · exact quiet_cxlErr s o
  · rename_i p hp
    split
    · exact quiet_cxlPoison s (cxlPort_lt hp)
    · split
      · exact quiet_skipFree s n
      · exact Quiet.refl s

theorem within_some {a n b z o : Nat} (h : within a n b z = some o) : o + n ≤ z := by
  unfold within at h
  split at h
  · cases h; omega
  · cases h

/-- The bounds that a region of pool bytes comes with. -/
theorem regionOf_bound {a n : Nat} : (∀ o, regionOf a n = some (.pool o) → o + n ≤ poolSize) ∧
    (∀ o, regionOf a n = some (.rot o) → o < poolSize) ∧
    (∀ d o, regionOf a n = some (.peer d o) → o + n ≤ poolSize) := by
  unfold regionOf
  cases h1 : within a n romBase romSize
  · cases h2 : within a n poolBase poolSize
    · by_cases h3 : rotBase ≤ a ∧ a < rotBase + poolSize
      · refine ⟨fun o h => ?_, fun o h => ?_, fun d o h => ?_⟩ <;> simp [h3] at h <;> omega
      · cases h4 : within a n ctsBase ctsSize
        · cases h5 : within a n vaultBase vaultSize
          · cases h6 : within a n cxlCfgBase 0x10000000 <;> cases h7 : within a n cxlBase 0x10000000000
            all_goals
              simp only [if_neg h3]
              refine ⟨fun o h => ?_, fun o h => ?_, fun d o h => ?_⟩ <;> (repeat' split at h) <;>
                first | (cases h; done) | (cases h; assumption) | (cases h; omega)
          · refine ⟨fun o h => ?_, fun o h => ?_, fun d o h => ?_⟩ <;> simp [h3] at h
        · refine ⟨fun o h => ?_, fun o h => ?_, fun d o h => ?_⟩ <;> simp [h3] at h
    · have := within_some h2
      refine ⟨fun o h => ?_, fun o h => ?_, fun d o h => ?_⟩ <;> simp at h
      omega
  · refine ⟨fun o h => ?_, fun o h => ?_, fun d o h => ?_⟩ <;> simp at h

/-- What a read of plain memory leaves unchanged. -/
theorem quiet_memRead (s : State) (q : Req) {a n : Nat} (hn : 0 < n) (hp : s.plainAt a n = true) :
    Quiet s (s.memRead q a n).s := by
  simp only [State.memRead]
  split
  · exact Quiet.refl s
  · rename_i o h; exact quiet_poolRead s q (regionOf_bound.1 o h)
  · rename_i o h; exact quiet_rotRead s q (regionOf_bound.2.1 o h)
  · exact quiet_ctsRead s _ n
  · exact quiet_vaultRead s q _ n
  · rename_i d o h
    have hd : d = s.pos := by simpa [h, State.plainAt] using hp
    rw [if_pos hd]
    exact quiet_poolRead s q (regionOf_bound.2.2 d o h)
  · exact quiet_cxlRead s _ n
  · rename_i o h; simp [h, State.plainAt] at hp
  · rename_i o h; simp [h, State.plainAt] at hp
  · exact Quiet.refl s

/-- What a thread's fetch leaves unchanged. -/
theorem quiet_kFetch {s s' : State} {t n : Nat} (h : s.kFetch t = .word s' n) : Quiet s s' := by
  simp only [State.kFetch] at h
  split at h
  · cases h
  · split at h
    · cases h
    · rename_i hp
      have q := quiet_memRead s (s.kReq t) (a := ((s.th t).seg 0).b + (s.th t).pc.toNat) (n := 4) (by decide) (by simpa using hp)
      split at h <;> cases h <;> exact q

end Sys2Proof.Machine
end

