-- ==== Sys2Proof/Laws/Knarn.lean ====
section
/-! SUPPORT. Laws of Knarn threads: what a fetched instruction does, the status bits, and integer results. -/

namespace Sys2Proof.Machine

/-- An instruction that is fetched has its effect on the machine after the fetch. -/
theorem Fetches.kInstr {s s' : State} {t : Fin 64} {w : BitVec 32} {p : KPat} (h : Fetches s t w p s')
    (f : State → Nat → KOut) : s.kInstr t w p f = (f s' w.toNat).finish t := by
  simp [State.kInstr, State.kRun, h.ready, h.is, h.legal, h.word]

theorem Fetches.quiet {s s' : State} {t : Fin 64} {w : BitVec 32} {p : KPat} (h : Fetches s t w p s') : Quiet s s' :=
  quiet_kFetch h.word

/-- The thread still runs after its fetch. -/
theorem Fetches.runs {s s' : State} {t : Fin 64} {w : BitVec 32} {p : KPat} (h : Fetches s t w p s') :
    s'.thState t = 1 := by
  have r := h.ready
  simp only [State.kReady, Bool.and_eq_true, decide_eq_true_eq] at r
  have hb : blockOf (F.CORE_TH_CTRL_STATE t).key = 0x30 := by
    have := t.isLt
    show (0x301000 + 0x40 * t.val) / 0x10000 = 0x30
    omega
  rw [State.thState, State.fld, h.quiet.regs _ (by rw [hb]; decide) (by rw [hb]; decide) (by rw [hb]; decide)]
  exact r.1.1.1.1

theorem bit_eq_bits (v i : Nat) : bit v i = decide (bits v i 1 = 1) := by
  simp only [bit, bits, Nat.pow_one]
  rcases Nat.mod_two_eq_zero_or_one (v / 2 ^ i) with h | h <;> simp [h]

theorem Thread.sr_lt (x : Thread) (n : Nat) : x.sr n < 2 ^ 64 := BitVec.isLt _

theorem Thread.sr_setSt (x : Thread) {i : Nat} (b : Bool) (h : i < 64) :
    (x.setSt i b).sr Sr.ST = putBits (x.sr Sr.ST) i 1 (b2n b) := by
  rw [Thread.setSt, Thread.sr_setSr_same, Nat.mod_eq_of_lt (putBits_lt _ (x.sr_lt _) (by omega))]

@[simp] theorem Thread.st_setSt_same (x : Thread) {i : Nat} (b : Bool) (h : i < 64) : (x.setSt i b).st i = b := by
  rw [Thread.st, Thread.sr_setSt _ _ h, bit_eq_bits, bits_putBits_same]
  cases b <;> rfl

theorem Thread.st_setSt_other (x : Thread) {i j : Nat} (b : Bool) (h : i < 64) (hj : j ≠ i) :
    (x.setSt i b).st j = x.st j := by
  rw [Thread.st, Thread.sr_setSt _ _ h, bit_eq_bits, bits_putBits_other _ _ (by omega), ← bit_eq_bits, Thread.st]

/-- The status bits after an integer operation (R249). -/
theorem Thread.st_putFlags (x : Thread) (r : Alu) (i : Nat) :
    (x.putFlags r).st i = if i = St.C then r.c.getD (x.st St.C) else if i = St.V then x.st St.V || r.ov
      else if i = St.DZ then x.st St.DZ || r.dz else x.st i := by
  have e (y : Thread) (k : Nat) (hk : k < 64) (b : Bool) : (y.setSt k b).st i = if i = k then b else y.st i := by
    split
    · subst i; exact y.st_setSt_same b hk
    · exact y.st_setSt_other b hk ‹_›
  obtain ⟨v, c, ov, dz⟩ := r
  unfold Thread.putFlags
  cases c <;> cases ov <;> cases dz <;>
    simp only [Bool.false_eq_true, if_true, if_false, e _ _ (show St.C < 64 by decide), e _ _ (show St.V < 64 by decide),
      e _ _ (show St.DZ < 64 by decide), Option.getD, Bool.or_true, Bool.or_false]
  all_goals (repeat' split) <;> simp_all

theorem Thread.sr_putFlags (x : Thread) (r : Alu) {n : Nat} (h : n ≠ Sr.ST) : (x.putFlags r).sr n = x.sr n := by
  obtain ⟨v, c, ov, dz⟩ := r
  unfold Thread.putFlags
  cases c <;> cases ov <;> cases dz <;> simp [Thread.setSt, Thread.sr_setSr_other _ _ h]

theorem Thread.putFlags_rest (x : Thread) (r : Alu) : x.putFlags r = { x with sys := (x.putFlags r).sys } := by
  obtain ⟨v, c, ov, dz⟩ := r
  unfold Thread.putFlags
  cases c <;> cases ov <;> cases dz <;> rfl

theorem AMap.erase_ins {α : Type} (m : AMap α) (k : Nat) (v : α) : AMap.erase (AMap.ins m k v) k = AMap.erase m k := by
  induction m with
  | nil => simp [AMap.ins, AMap.erase]
  | cons e r ih =>
    obtain ⟨a, x⟩ := e
    simp only [AMap.ins]
    split
    · simp [AMap.erase]
    · simp only [AMap.erase, ih]

theorem AMap.erase_erase {α : Type} (m : AMap α) (k : Nat) : AMap.erase (AMap.erase m k) k = AMap.erase m k := by
  simp [AMap.erase_eq_filter]

@[simp] theorem AMap.set_set {α : Type} [DecidableEq α] (m : AMap α) (k : Nat) (v x d : α) :
    AMap.set (AMap.set m k v d) k x d = AMap.set m k x d := by
  have h : AMap.erase (AMap.set m k v d) k = AMap.erase m k := by
    unfold AMap.set
    split <;> simp [AMap.erase_ins, AMap.erase_erase]
  rw [AMap.set, h, AMap.set]

@[simp] theorem State.setTh_setTh (s : State) (t : Nat) (x y : Thread) : (s.setTh t x).setTh t y = s.setTh t y := by
  simp only [State.setTh, AMap.set_set]

theorem State.thState_setTh (s : State) (t u : Nat) (x : Thread) : (s.setTh t x).thState u = s.thState u := rfl

/-- An instruction of a running thread that changes only its thread. -/
theorem KOut.finish_modTh {s : State} {t : Nat} (f : Thread → Thread) (ht : s.thState t ≠ 0)
    (hp : (f (s.th t)).pc = (s.th t).pc) :
    (KOut.done (s.modTh t f)).finish t = s.setTh t { f (s.th t) with pc := (s.th t).pc + 4 } := by
  have e : BitVec.ofNat 64 ((s.th t).pc.toNat + 4) = (s.th t).pc + 4 := by
    apply BitVec.eq_of_toNat_eq; simp
  rw [KOut.finish, State.modTh, State.thState_setTh, if_neg ht, State.retire, State.setPc, State.modTh, State.th_setTh_same,
    State.setTh_setTh, hp, e]

/-- What an integer operation does when it does not trap. -/
theorem Computes.of_kAlu {s : State} {t : Fin 64} {rd : Nat} {r : Alu} (ht : s.thState t = 1) (hv : r.v < 2 ^ 64)
    (hd : r.dz = true → (s.th t).st St.DZE = false) :
    Computes (.next ((s.kAlu t rd r).finish t)) s t rd r.v (r.c.getD ((s.th t).st St.C)) ((s.th t).st St.V || r.ov)
      ((s.th t).st St.DZ || r.dz) := by
  have hd' : (r.dz && (s.th t).st St.DZE) = false := by
    cases h : r.dz
    · rfl
    · simp [hd h]
  have hp := (s.th t).putFlags_rest r
  refine ⟨_, rfl, ?_⟩
  rw [State.kAlu, hd', if_neg (by decide), KOut.finish_modTh _ (by omega) (by rw [Thread.pc_setGpr, hp]), State.th_setTh_same]
  refine ⟨rfl, ?_, ?_, ?_, ?_⟩
  · rw [hp]; rfl
  · intro q
    show Thread.gpr (((s.th t).putFlags r).setGpr rd r.v) q = _
    split
    · subst q; rw [Thread.gpr_setGpr_same, Nat.mod_eq_of_lt hv]
    · rw [Thread.gpr_setGpr_other _ _ ‹_›, hp]; rfl
  · exact Thread.st_putFlags _ r
  · exact fun n hn => Thread.sr_putFlags _ r hn


theorem Fetches.int {s s' : State} {t : Fin 64} {w : BitVec 32} {p : KPat} (h : Fetches s t w p s') {rd : Nat}
    {f : State → Nat → KOut} {r : Alu} (hf : f s' w.toNat = s'.kAlu t rd r) (hv : r.v < 2 ^ 64)
    (hd : r.dz = true → (s'.th t).st St.DZE = false) {v : Nat} {c ov dz : Bool} (ev : r.v = v)
    (ec : r.c.getD ((s'.th t).st St.C) = c) (eo : ((s'.th t).st St.V || r.ov) = ov)
    (ez : ((s'.th t).st St.DZ || r.dz) = dz) :
    Computes (.next (s.kInstr t w p f)) s' t rd v c ov dz := by
  subst ev ec eo ez
  rw [h.kInstr, hf]
  exact Computes.of_kAlu h.runs hv hd

/-- The same for an operation that leaves ST. -/
theorem Fetches.plain {s s' : State} {t : Fin 64} {w : BitVec 32} {p : KPat} (h : Fetches s t w p s') {rd : Nat}
    {f : State → Nat → KOut} {z v : Nat} (hf : f s' w.toNat = s'.kAlu t rd (plainAlu z)) (ev : z % 2 ^ 64 = v) :
    Computes (.next (s.kInstr t w p f)) s' t rd v ((s'.th t).st St.C) ((s'.th t).st St.V) ((s'.th t).st St.DZ) :=
  h.int hf (Nat.mod_lt _ (by decide)) (by simp [plainAlu]) ev rfl (by simp [plainAlu]) (by simp [plainAlu])

theorem addFlags_c (a b c : Nat) : (addFlags a b c).c = some (decide (2 ^ 64 ≤ a + b + c)) := rfl

theorem addFlags_ov {a b c : Nat} (ha : a < 2 ^ 64) (hb : b < 2 ^ 64) (hc : c ≤ 1) :
    (addFlags a b c).ov = overflows (s64 a + s64 b + c) := by
  simp only [addFlags, overflows, bit, s64, sext, Nat.mod_eq_of_lt ha, Nat.mod_eq_of_lt hb]
  rw [Bool.eq_iff_iff]
  simp only [Bool.and_eq_true, beq_iff_eq, bne_iff_ne, decide_eq_true_eq]
  norm_num
  split_ifs <;> (try omega)

theorem s64_not (b : Nat) (hb : b < 2 ^ 64) : s64 (not64 b) = - s64 b - 1 := by
  simp only [s64, sext, not64]; split_ifs <;> omega

theorem s64_wrap {x : Int} (h : -2 ^ 63 ≤ x ∧ x < 2 ^ 63) : s64 (wrap 64 x) = x := by
  simp only [s64, sext, wrap]; norm_num at *; split_ifs <;> omega

theorem sext16 (n : Nat) : -2 ^ 63 ≤ sext 16 n ∧ sext 16 n < 2 ^ 63 := by
  simp only [sext]; norm_num; split_ifs <;> omega

theorem s64_range (n : Nat) : -2 ^ 63 ≤ s64 n ∧ s64 n < 2 ^ 63 := by
  simp only [s64, sext]; norm_num; split_ifs <;> omega

theorem wrap_lt (w : Nat) (x : Int) : wrap w x < 2 ^ w := by
  have : (0 : Int) < ((2 ^ w : Nat) : Int) := by positivity
  simp only [wrap]
  have h1 := Int.emod_nonneg x this.ne'
  have h2 := Int.emod_lt_of_pos x this
  omega


end Sys2Proof.Machine
end

