-- ==== Sys2Proof/Laws/Pool.lean ====
section
/-! SUPPORT. Laws of the pool: what a read and a write of bytes in open banks do. -/

namespace Sys2Proof.Machine

theorem regionOf_pool {o n : Nat} (h : o + n ≤ poolSize) : regionOf (poolBase + o) n = some (.pool o) := by
  have e : poolBase + o - poolBase = o := Nat.add_sub_cancel_left _ _
  simp only [poolSize] at h
  simp only [regionOf, within, e]
  rw [if_neg (by simp only [romBase, romSize, poolBase]; omega), if_pos (by simp only [poolBase, poolSize]; omega)]

/-- The pool checks that an open access passes. -/
theorem PoolOpen.checks {s : State} {q : Req} {wr : Bool} {o n : Nat} (h : PoolOpen s q wr o n) :
    s.bankRefuses q wr o n = none ∧
    (banksAt o n).any (fun b => !s.bankTakes b) = false ∧
    (banksAt o n).any (fun b => decide (s.fld (F.POOL_BANK_STATE_STATE b) = 3)) = false := by
  have hb := h.banks
  refine ⟨?_, ?_, ?_⟩
  · rw [State.bankRefuses, List.find?_eq_none]; intro b hm; simp [(hb b hm).1]
  · rw [List.any_eq_false]; intro b hm; simp [(hb b hm).2.1]
  · rw [List.any_eq_false]; intro b hm; simp [(hb b hm).2.2]

/-- A read of open pool bytes gives them and changes nothing. -/
theorem PoolOpen.memRead {s : State} {q : Req} {o n : Nat} (h : PoolOpen s q false o n) :
    s.memRead q (poolBase + o) n = ⟨.ok, s.bytes (poolBase + o) n, s⟩ := by
  obtain ⟨f1, f2, f3⟩ := h.checks
  simp only [State.memRead, regionOf_pool h.inPool, State.poolRead, State.poolFetch, f1, f2, f3, h.clean, List.isEmpty_nil, if_true,
    Bool.false_eq_true, if_false]

/-- A write of open pool bytes stores them. -/
theorem PoolOpen.memWrite {s : State} {q : Req} {o : Nat} {bs : List Byte} (h : PoolOpen s q true o bs.length) :
    s.memWrite q (poolBase + o) bs = ⟨.ok, [], (s.poke (poolBase + o) bs).cleanLines (poolBase + o) bs.length⟩ := by
  obtain ⟨f1, f2, f3⟩ := h.checks
  simp only [State.memWrite, regionOf_pool h.inPool, State.poolWrite, f1, f2, f3, h.clean, h.still, List.isEmpty_nil,
    Option.isNone_none, and_self, if_true, Bool.false_eq_true, if_false]

theorem PoolOpen.congr {s u : State} {q : Req} {wr : Bool} {o n : Nat} (h : PoolOpen s q wr o n) (hr : u.regs = s.regs)
    (hp : u.pool = s.pool) (he : u.ecc = s.ecc) (hh : u.held = s.held) : PoolOpen u q wr o n := by
  have r (k : Nat) : u.reg k = s.reg k := State.reg_of_regs hr k
  refine ⟨h.inPool, fun b hm => ?_, he ▸ h.clean, hp ▸ h.still⟩
  have := h.banks b hm
  have e1 : u.bankAdmits q wr b = s.bankAdmits q wr b := by
    have o1 : u.ownInForce b = s.ownInForce b := by unfold State.ownInForce; rw [hp, r]
    have o2 : u.grantInForce b = s.grantInForce b := by unfold State.grantInForce; rw [hp, r]
    have o3 : u.pos = s.pos := by unfold State.pos State.fld; rw [r]
    unfold State.bankAdmits; rw [o1, o2, o3]
  have e2 : u.bankTakes b = s.bankTakes b := by unfold State.bankTakes State.domTakes State.fld; rw [r, hh]
  rw [e1, e2, State.fld, r]
  exact this
end Sys2Proof.Machine
end

