-- ==== Sys2Proof/Laws/RegKeys.lean ====
section
/-! SUPPORT. The register map at the registers that commands write: the row of each, and that its key is its base. -/

set_option maxRecDepth 20000
-- One theorem after another: in parallel their stacks pass the memory limit.
set_option Elab.async false

namespace Sys2Proof.Machine

theorem regAt_ATS_CTRL (a : Fin 4) : regAt (R.ATS_CTRL a) =
    some (⟨0x240000, [(4, 0x10000)], 4, 0x100000, 0xffff01, 0, 0, 2⟩, R.ATS_CTRL a) := by
  revert a; decide +kernel
theorem regAt_BMI_CMD (a : Fin 2) : regAt (R.BMI_CMD a) =
    some (⟨0x2d0004, [(2, 0x100)], 4, 0, 0x1f1f007f, 0, 0, 0x80000000⟩, R.BMI_CMD a) := by
  revert a; decide +kernel
theorem regAt_BRZ_FIRE : regAt R.BRZ_FIRE = some (⟨0x062000, [], 4, 0, 0, 0, 0, 0xff⟩, R.BRZ_FIRE) := rfl
theorem regAt_CLK_CORE (a : Fin 8) : regAt (R.CLK_CORE a) =
    some (⟨0x010000, [(8, 0x4)], 4, 0x200020, 0x7f, 0, 0, 0⟩, R.CLK_CORE a) := by
  revert a; decide +kernel
theorem regAt_CLK_PIX (a : Fin 6) : regAt (R.CLK_PIX a) =
    some (⟨0x010100, [(6, 0x4)], 4, 0x11558, 0x800fffff, 0, 0, 0⟩, R.CLK_PIX a) := by
  revert a; decide +kernel
theorem regAt_CLK_STATUS : regAt R.CLK_STATUS = some (⟨0x010200, [], 4, 0, 0, 0, 0, 0⟩, R.CLK_STATUS) := rfl
theorem regAt_CMP_FC_CFG : regAt R.CMP_FC_CFG = some (⟨0x0c0000, [], 4, 0, 0x80ff01ff, 0, 0, 0⟩, R.CMP_FC_CFG) := rfl
theorem regAt_CORE_CL_CTRL (a : Fin 8) : regAt (R.CORE_CL_CTRL a) =
    some (⟨0x300000, [(8, 0x10)], 4, 0, 0, 0, 0, 1⟩, R.CORE_CL_CTRL a) := by
  revert a; decide +kernel
theorem regAt_CORE_TH_CTRL (a : Fin 64) : regAt (R.CORE_TH_CTRL a) =
    some (⟨0x301000, [(64, 0x40)], 4, 4, 4, 8, 0, 3⟩, R.CORE_TH_CTRL a) := by
  revert a; decide +kernel
theorem regAt_CST_BCAST_CMD : regAt R.CST_BCAST_CMD = some (⟨0x1b0218, [], 4, 0, 0x1fc, 0, 0, 1⟩, R.CST_BCAST_CMD) := rfl
theorem regAt_CST_GROUP_CMD : regAt R.CST_GROUP_CMD = some (⟨0x1b0008, [], 4, 0, 0, 0, 0, 3⟩, R.CST_GROUP_CMD) := rfl
theorem regAt_CST_RESET_CMD : regAt R.CST_RESET_CMD = some (⟨0x1b0604, [], 4, 0, 0x30, 0, 0, 1⟩, R.CST_RESET_CMD) := rfl
theorem regAt_CST_RESET_GRANT : regAt R.CST_RESET_GRANT = some (⟨0x1b0600, [], 4, 0, 0x30f, 0, 0x10000, 0⟩, R.CST_RESET_GRANT) := rfl
theorem regAt_CST_SNAP_ARM : regAt R.CST_SNAP_ARM = some (⟨0x1b0500, [], 4, 0, 0, 0, 0xff, 0⟩, R.CST_SNAP_ARM) := rfl
theorem regAt_CXL_CTRL (a : Fin 2) : regAt (R.CXL_CTRL a) =
    some (⟨0x200000, [(2, 0x10000)], 4, 1, 0xf, 0, 0, 0⟩, R.CXL_CTRL a) := by
  revert a; decide +kernel
theorem regAt_DBGU_DATA : regAt R.DBGU_DATA = some (⟨0x2e0004, [], 4, 0, 0xff, 0, 0, 0⟩, R.DBGU_DATA) := rfl
theorem regAt_ETH_CTRL (a : Fin 2) : regAt (R.ETH_CTRL a) =
    some (⟨0x280000, [(2, 0x10000)], 4, 0, 0xf, 0, 0, 0⟩, R.ETH_CTRL a) := by
  revert a; decide +kernel
theorem regAt_ETH_MDIO (a : Fin 2) : regAt (R.ETH_MDIO a) =
    some (⟨0x280040, [(2, 0x10000)], 4, 0, 0x7ffcffff, 0, 0, 0x80000000⟩, R.ETH_MDIO a) := by
  revert a; decide +kernel
theorem regAt_GAL_BQ_B0 (a : Fin 256) : regAt (R.GAL_BQ_B0 a) =
    some (⟨0x184000, [(256, 0x20)], 4, 0x40000000, 0xffffffff, 0, 0, 0⟩, R.GAL_BQ_B0 a) := by
  revert a; decide +kernel
theorem regAt_GAL_BQ_CTL (a : Fin 256) : regAt (R.GAL_BQ_CTL a) =
    some (⟨0x184014, [(256, 0x20)], 4, 1, 1, 0, 0, 2⟩, R.GAL_BQ_CTL a) := by
  revert a; decide +kernel
theorem regAt_GAL_CTRL : regAt R.GAL_CTRL = some (⟨0x180000, [], 4, 0, 5, 0, 0, 0⟩, R.GAL_CTRL) := rfl
theorem regAt_GAL_STR_CFG (a : Fin 16) : regAt (R.GAL_STR_CFG a) =
    some (⟨0x186008, [(16, 0x20)], 4, 0xf840, 0x3ff8f1, 8, 0, 4⟩, R.GAL_STR_CFG a) := by
  revert a; decide +kernel
theorem regAt_GAL_TONE_CTRL (a : Fin 32) : regAt (R.GAL_TONE_CTRL a) =
    some (⟨0x18021c, [(32, 0x40)], 4, 0, 0, 0, 0, 3⟩, R.GAL_TONE_CTRL a) := by
  revert a; decide +kernel
theorem regAt_GPIO_OUT_LO (a : Fin 8) : regAt (R.GPIO_OUT_LO a) =
    some (⟨0x071000, [(8, 0x8)], 4, 0, 0xffff, 0, 0, 0xffff0000⟩, R.GPIO_OUT_LO a) := by
  revert a; decide +kernel
theorem regAt_GPIO_PIN_CFG (a : Fin 256) : regAt (R.GPIO_PIN_CFG a) =
    some (⟨0x070000, [(256, 0x4)], 4, 0x180, 0xbcf, 0, 0, 0⟩, R.GPIO_PIN_CFG a) := by
  revert a; decide +kernel
theorem regAt_GPIO_PIN_LOCK (a : Fin 256) : regAt (R.GPIO_PIN_LOCK a) =
    some (⟨0x070c00, [(256, 0x4)], 4, 0, 0, 0, 0, 0xffff⟩, R.GPIO_PIN_LOCK a) := by
  revert a; decide +kernel
theorem regAt_GST_ENG_CTRL (a : Fin 64) : regAt (R.GST_ENG_CTRL a) =
    some (⟨0x091200, [(16, 0x400), (4, 0x80)], 4, 0, 1, 0, 0, 0xe⟩, R.GST_ENG_CTRL a) := by
  revert a; decide +kernel
theorem regAt_GST_PROG (a : Fin 16) (b : Fin 64) : regAt (R.GST_PROG a b) =
    some (⟨0x091100, [(16, 0x400), (64, 0x4)], 4, 0, 0xffffffff, 0, 0, 0⟩, R.GST_PROG a b) := by
  revert a b; decide +kernel
theorem regAt_GST_START : regAt R.GST_START = some (⟨0x090000, [], 8, 0, 0, 0, 0, 0xffffffffffffffff⟩, R.GST_START) := rfl
theorem regAt_GST_STOP : regAt R.GST_STOP = some (⟨0x090008, [], 8, 0, 0, 0, 0, 0xffffffffffffffff⟩, R.GST_STOP) := rfl
theorem regAt_HEAD_AUX_CMD (a : Fin 6) : regAt (R.HEAD_AUX_CMD a) =
    some (⟨0x104010, [(6, 0x10000)], 4, 0x90000000, 0xfffffff2, 0, 0, 1⟩, R.HEAD_AUX_CMD a) := by
  revert a; decide +kernel
theorem regAt_HEAD_CTRL (a : Fin 6) : regAt (R.HEAD_CTRL a) =
    some (⟨0x100000, [(6, 0x10000)], 4, 0, 1, 0, 0, 2⟩, R.HEAD_CTRL a) := by
  revert a; decide +kernel
theorem regAt_HEAD_DP_CMD (a : Fin 6) : regAt (R.HEAD_DP_CMD a) =
    some (⟨0x104004, [(6, 0x10000)], 4, 0, 0, 0, 0, 1⟩, R.HEAD_DP_CMD a) := by
  revert a; decide +kernel
theorem regAt_HEAD_SF_LEARN (a : Fin 6) : regAt (R.HEAD_SF_LEARN a) =
    some (⟨0x103144, [(6, 0x10000)], 4, 0, 0, 0, 0xffff, 0⟩, R.HEAD_SF_LEARN a) := by
  revert a; decide +kernel
theorem regAt_HSE_ADOPT : regAt R.HSE_ADOPT = some (⟨0x190400, [], 4, 0, 0xc, 0, 0, 1⟩, R.HSE_ADOPT) := rfl
theorem regAt_HSE_BASE_ADDR : regAt R.HSE_BASE_ADDR = some (⟨0x190200, [], 8, 0, 0xfffffff8000, 0, 0, 0⟩, R.HSE_BASE_ADDR) := rfl
theorem regAt_HSE_BASE_CMD : regAt R.HSE_BASE_CMD = some (⟨0x190208, [], 4, 0, 0xc, 0, 0, 3⟩, R.HSE_BASE_CMD) := rfl
theorem regAt_HSE_CTRL : regAt R.HSE_CTRL = some (⟨0x190000, [], 4, 2, 3, 0, 0, 4⟩, R.HSE_CTRL) := rfl
theorem regAt_HSE_MODEL_ARM : regAt R.HSE_MODEL_ARM = some (⟨0x19081c, [], 4, 0, 0, 0, 0, 3⟩, R.HSE_MODEL_ARM) := rfl
theorem regAt_HSE_MODEL_CMD : regAt R.HSE_MODEL_CMD = some (⟨0x190814, [], 4, 0, 0x7c, 0, 0, 3⟩, R.HSE_MODEL_CMD) := rfl
theorem regAt_HSE_MODEL_NEXT : regAt R.HSE_MODEL_NEXT = some (⟨0x190810, [], 4, 0, 0x1ff, 0, 0, 0⟩, R.HSE_MODEL_NEXT) := rfl
theorem regAt_HSE_PARAM_CMD : regAt R.HSE_PARAM_CMD = some (⟨0x190020, [], 4, 0, 0, 0, 0, 1⟩, R.HSE_PARAM_CMD) := rfl
theorem regAt_HSE_ST_CMD : regAt R.HSE_ST_CMD = some (⟨0x190308, [], 4, 0, 0, 0, 0, 1⟩, R.HSE_ST_CMD) := rfl
theorem regAt_HSE_SWP_CFG (a : Fin 4) : regAt (R.HSE_SWP_CFG a) =
    some (⟨0x190108, [(4, 0x20)], 4, 0xf840, 0x3ff8f1, 8, 0, 4⟩, R.HSE_SWP_CFG a) := by
  revert a; decide +kernel
theorem regAt_HSE_SWP_DB (a : Fin 4) : regAt (R.HSE_SWP_DB a) =
    some (⟨0x190110, [(4, 0x20)], 4, 0, 0xffff, 0, 0, 0⟩, R.HSE_SWP_DB a) := by
  revert a; decide +kernel
theorem regAt_LUL_EVT_MAP (a : Fin 64) : regAt (R.LUL_EVT_MAP a) =
    some (⟨0x050800, [(64, 0x4)], 4, 0, 0x13f, 0, 0, 0⟩, R.LUL_EVT_MAP a) := by
  revert a; decide +kernel
theorem regAt_LUL_Q_CFG (a : Fin 64) : regAt (R.LUL_Q_CFG a) =
    some (⟨0x050008, [(64, 0x20)], 4, 0xf840, 0x73ff8f0, 0, 0, 0x8000000⟩, R.LUL_Q_CFG a) := by
  revert a; decide +kernel
theorem regAt_LUL_Q_CONS (a : Fin 64) : regAt (R.LUL_Q_CONS a) =
    some (⟨0x050014, [(64, 0x20)], 4, 0, 0xffff, 0, 0, 0⟩, R.LUL_Q_CONS a) := by
  revert a; decide +kernel
theorem regAt_POOL_BANK_GRANT (a : Fin 288) : regAt (R.POOL_BANK_GRANT a) =
    some (⟨0x1a0004, [(288, 0x8)], 4, 0, 0xffffff00, 0, 0, 0⟩, R.POOL_BANK_GRANT a) := by
  revert a; decide +kernel
theorem regAt_POOL_BANK_OWN (a : Fin 288) : regAt (R.POOL_BANK_OWN a) =
    some (⟨0x1a0000, [(288, 0x8)], 4, 0x3ff, 0x1f, 0, 0, 0⟩, R.POOL_BANK_OWN a) := by
  revert a; decide +kernel
theorem regAt_PWR_DOM_CTRL (a : Fin 150) : regAt (R.PWR_DOM_CTRL a) =
    some (⟨0x020000, [(150, 0x4)], 4, 0, 1, 0, 0, 0⟩, R.PWR_DOM_CTRL a) := by
  revert a; decide +kernel
theorem regAt_PWR_RESET : regAt R.PWR_RESET = some (⟨0x022004, [], 4, 0, 0, 0, 0, 0xffff⟩, R.PWR_RESET) := rfl
theorem regAt_PWR_SERVICE : regAt R.PWR_SERVICE = some (⟨0x022000, [], 4, 0, 0, 0, 1, 0⟩, R.PWR_SERVICE) := rfl
theorem regAt_PWR_TAMPER_LOG_CTL : regAt R.PWR_TAMPER_LOG_CTL = some (⟨0x02f804, [], 4, 0, 0, 0, 0, 0x80000000⟩, R.PWR_TAMPER_LOG_CTL) := rfl
theorem regAt_SEC_SCRAP : regAt R.SEC_SCRAP = some (⟨0x030040, [], 4, 0, 0, 0, 0, 0xffff⟩, R.SEC_SCRAP) := rfl
theorem regAt_SQL_RING_CFG (a : Fin 4) : regAt (R.SQL_RING_CFG a) =
    some (⟨0x0b0108, [(4, 0x20)], 4, 0xf840, 0x3ff8f1, 8, 0, 4⟩, R.SQL_RING_CFG a) := by
  revert a; decide +kernel
theorem regAt_SYS_TIME_CMD : regAt R.SYS_TIME_CMD = some (⟨0x000110, [], 4, 0, 0, 0, 0, 1⟩, R.SYS_TIME_CMD) := rfl
theorem regAt_TIM_CTRL (a : Fin 32) : regAt (R.TIM_CTRL a) =
    some (⟨0x080004, [(32, 0x20)], 4, 0, 0x10, 0, 0, 7⟩, R.TIM_CTRL a) := by
  revert a; decide +kernel
theorem regAt_TWD_CH_CFG (a : Fin 32) : regAt (R.TWD_CH_CFG a) =
    some (⟨0x0a0008, [(32, 0x20)], 4, 0xf840, 0x3ff8f1, 8, 0, 4⟩, R.TWD_CH_CFG a) := by
  revert a; decide +kernel
theorem regAt_TWD_CH_CTRL (a : Fin 32) : regAt (R.TWD_CH_CTRL a) =
    some (⟨0x0a0018, [(32, 0x20)], 4, 0, 0, 0, 0, 3⟩, R.TWD_CH_CTRL a) := by
  revert a; decide +kernel
theorem regAt_TWD_ERR_INFO : regAt R.TWD_ERR_INFO = some (⟨0x0a0810, [], 4, 0, 0xffff0000, 0, 0, 0⟩, R.TWD_ERR_INFO) := rfl
theorem regAt_XSPI_CMD : regAt R.XSPI_CMD = some (⟨0x2c0004, [], 4, 0, 0x41ffffff, 0, 0, 0x80000000⟩, R.XSPI_CMD) := rfl

end Sys2Proof.Machine
end

