-- ==== Sys2Proof/WellFormed.lean ====
section
/-! DEFINITION. Which commands are well formed: an access has 1 to 64 bytes inside one aligned 64, a Knarn word is of the
row's pattern, an operand that is a number stays in the range that its row gives it. -/

namespace Sys2Proof

open Sys2Proof.Machine

/-- An access of `n` bytes at offset `o`: not empty, and inside one aligned 64 bytes (R20). -/
def accOk (o n : Nat) : Bool := decide (1 ≤ n) && decide (o % 64 + n ≤ 64)

/-- The data of a request of kind `k` for `n` bytes: none for a read, `n` bytes for a write, wB and wD for an atomic
operation of R253, which takes 8 bytes. -/
def reqOk (k : ReqKind) (n : Nat) (data : List Byte) : Bool :=
  match k with
  | .read => data.isEmpty
  | .write => data.length == n
  | .atomic op => decide (op ≤ 5) && n == 8 && data.length == 16

/-- The data of a configuration or MMIO access, which is never atomic (R253). -/
def cfgOk (k : ReqKind) (n : Nat) (data : List Byte) : Bool :=
  match k with
  | .read => data.isEmpty
  | .write => data.length == n
  | .atomic _ => false

/-- `w` is a legal word of pattern `p`. -/
def wordOk (p : KPat) (w : BitVec 32) : Bool := p.is w.toNat && !kIllegal w.toNat

/-- The command is well formed. -/
def Instr.wellFormed : Instr → Bool
  | .registerWrite _ o bs => accOk o bs.length && decide (o < 0x10000000)
  | .doorbellWrite _ _ _ => true
  | .ringEnable _ _ _ => true
  | .ringStop _ => true
  | .poolAccess _ o _ write n bs upset meet => accOk o.toNat (if write then bs.length else n) && decide (upset ≤ 2) &&
    (match meet with
      | some m => decide (m.word ≤ 8)
      | none => true)
  | .scrubRead upset _ => decide (upset ≤ 2)
  | .remapStart => true
  | .spareCopy => true
  | .spareTakeover => true
  | .bankOwnershipWrite _ _ _ _ => true
  | .handover _ => true
  | .nadirAccess _ o upset read bs => accOk o (read.getD bs.length) && decide (o < vaultSize) && decide (upset ≤ 2)
  | .nadirWipeEnd => true
  | .ctsAccess _ o write n bs => accOk o (if write then bs.length else n) && decide (o < ctsSize)
  | .hseModelNextWrite _ _ => true
  | .validate _ _ => true
  | .validationEnd => true
  | .release _ _ => true
  | .arm _ _ => true
  | .disarm _ _ => true
  | .hseEnable _ _ => true
  | .hseRestart _ _ => true
  | .tickReachesHse => true
  | .liveCycle => true
  | .publication _ => true
  | .paramCommit _ => true
  | .sweepJobStart => true
  | .sweepCandidate _ => true
  | .sweepJobEnd => true
  | .sweepCancel _ _ _ => true
  | .capture _ _ => true
  | .clear _ _ => true
  | .baseAddrWrite _ _ => true
  | .selftestStart _ => true
  | .selftestCandidate _ => true
  | .adoptArm _ _ => true
  | .adoptedStateArrive _ => true
  | .form _ => true
  | .leave _ => true
  | .hello _ _ _ _ _ => true
  | .formTimeout => true
  | .timeToken _ _ _ => true
  | .peerLost _ => true
  | .groupTick => true
  | .digestReceive _ _ _ => true
  | .voteClose => true
  | .barrierArrival _ _ => true
  | .barrierTimeout _ => true
  | .mailboxBroadcast _ _ => true
  | .mailboxReceive _ _ _ => true
  | .epochStore _ _ => true
  | .epochStoreReceive _ _ _ _ data => decide (data.length = 4 ∨ data.length = 8)
  | .snapshotCopy _ => true
  | .snapshotArm _ _ => true
  | .snapshotDataReceive _ _ _ _ _ _ => true
  | .resetRequestSend _ _ => true
  | .resetRequestReceive _ => true
  | .resetGrantWrite _ _ => true
  | .headEnable _ _ _ => true
  | .headDisable _ _ _ => true
  | .scanStop _ => true
  | .commit _ _ _ => true
  | .vblankStart _ => true
  | .frameStart _ => true
  | .lineFetch _ => true
  | .train _ _ => true
  | .trainEnd _ answers => answers.all (fun a => decide (a.length = 6))
  | .auxGo _ _ _ => true
  | .auxReply _ kind _ data => decide (kind ≤ 2) && decide (data.length ≤ 16)
  | .hpdIrq _ => true
  | .hpdUnplug _ => true
  | .hpdPlug _ => true
  | .meridianFrameStart _ => true
  | .merWait _ => true
  | .merWaitReached _ => true
  | .merMove _ => true
  | .merMoveb _ => true
  | .merSkip _ => true
  | .merJump _ => true
  | .merEvent _ => true
  | .merSync _ => true
  | .merSyncPulse _ => true
  | .merEnd _ => true
  | .lineCompose _ => true
  | .lineCommit _ drained => decide (drained ≤ 8)
  | .lineLate _ => true
  | .flattenTile => true
  | .fcEn _ _ => true
  | .wbCaptureStart _ => true
  | .wbComplete _ => true
  | .regionCheck _ _ => true
  | .learn _ _ _ => true
  | .alarmCheck _ => true
  | .squallListStart => true
  | .sqlNop => true
  | .sqlCopy => true
  | .sqlFill => true
  | .sqlBlend => true
  | .sqlExpand => true
  | .sqlConvert => true
  | .squallListEnd => true
  | .squallCancel _ _ _ => true
  | .add _ w => wordOk (kFn 0 0x01) w
  | .sub _ w => wordOk (kFn 0 0x02) w
  | .adc _ w => wordOk (kFn 0 0x03) w
  | .sbc _ w => wordOk (kFn 0 0x04) w
  | .neg _ w => wordOk (kFn 0 0x05) w
  | .adds _ w => wordOk (kFn 0 0x06) w
  | .subs _ w => wordOk (kFn 0 0x07) w
  | .addus _ w => wordOk (kFn 0 0x08) w
  | .subus _ w => wordOk (kFn 0 0x09) w
  | .and _ w => wordOk (kFn 0 0x0A) w
  | .or _ w => wordOk (kFn 0 0x0B) w
  | .xor _ w => wordOk (kFn 0 0x0C) w
  | .andn _ w => wordOk (kFn 0 0x0D) w
  | .sll _ w => wordOk (kFn 0 0x10) w
  | .srl _ w => wordOk (kFn 0 0x11) w
  | .sra _ w => wordOk (kFn 0 0x12) w
  | .mul _ w => wordOk (kFn 0 0x18) w
  | .mulh _ w => wordOk (kFn 0 0x19) w
  | .mulhu _ w => wordOk (kFn 0 0x1A) w
  | .div _ w => wordOk (kFn 0 0x1C) w
  | .divu _ w => wordOk (kFn 0 0x1D) w
  | .rem _ w => wordOk (kFn 0 0x1E) w
  | .remu _ w => wordOk (kFn 0 0x1F) w
  | .slt _ w => wordOk (kFn 0 0x20) w
  | .sltu _ w => wordOk (kFn 0 0x21) w
  | .min _ w => wordOk (kFn 0 0x22) w
  | .max _ w => wordOk (kFn 0 0x23) w
  | .minu _ w => wordOk (kFn 0 0x24) w
  | .maxu _ w => wordOk (kFn 0 0x25) w
  | .clz _ w => wordOk (kFn 0 0x28) w
  | .ctz _ w => wordOk (kFn 0 0x29) w
  | .popc _ w => wordOk (kFn 0 0x2A) w
  | .sextb _ w => wordOk (kFn 0 0x2B) w
  | .sexth _ w => wordOk (kFn 0 0x2C) w
  | .sextw _ w => wordOk (kFn 0 0x2D) w
  | .zextw _ w => wordOk (kFn 0 0x2E) w
  | .addi _ w => wordOk (kOp 0x01) w
  | .andi _ w => wordOk (kOp 0x02) w
  | .ori _ w => wordOk (kOp 0x03) w
  | .xori _ w => wordOk (kOp 0x04) w
  | .slti _ w => wordOk (kOp 0x05) w
  | .sltiu _ w => wordOk (kOp 0x06) w
  | .slli _ w => wordOk (kOp 0x07) w
  | .srli _ w => wordOk (kOp 0x08) w
  | .srai _ w => wordOk (kOp 0x09) w
  | .imms _ w => wordOk (kOpK 0x0A) w
  | .immi _ w => wordOk (kOpK 0x0B) w
  | .addpc _ w => wordOk (kOp 0x0C) w
  | .ldb _ w => wordOk (kOp 0x10) w
  | .ldbu _ w => wordOk (kOp 0x11) w
  | .ldh _ w => wordOk (kOp 0x12) w
  | .ldhu _ w => wordOk (kOp 0x13) w
  | .ldw _ w => wordOk (kOp 0x14) w
  | .ldwu _ w => wordOk (kOp 0x15) w
  | .ldd _ w => wordOk (kOp 0x16) w
  | .stb _ w => wordOk (kOp 0x18) w
  | .sth _ w => wordOk (kOp 0x19) w
  | .stw _ w => wordOk (kOp 0x1A) w
  | .std _ w => wordOk (kOp 0x1B) w
  | .swap _ w => wordOk (kFn8 0x1C 0) w
  | .aadd _ w => wordOk (kFn8 0x1C 1) w
  | .aand _ w => wordOk (kFn8 0x1C 2) w
  | .aor _ w => wordOk (kFn8 0x1C 3) w
  | .axor _ w => wordOk (kFn8 0x1C 4) w
  | .cas _ w => wordOk (kFn8 0x1C 5) w
  | .beq _ w => wordOk (kOp 0x20) w
  | .bne _ w => wordOk (kOp 0x21) w
  | .blt _ w => wordOk (kOp 0x22) w
  | .bge _ w => wordOk (kOp 0x23) w
  | .bltu _ w => wordOk (kOp 0x24) w
  | .bgeu _ w => wordOk (kOp 0x25) w
  | .j _ w => wordOk (kOp 0x26) w
  | .call _ w => wordOk (kOp 0x27) w
  | .jr _ w => wordOk (kFn 0x28 0) w
  | .callr _ w => wordOk (kFn 0x28 1) w
  | .ret _ w => wordOk (kFn 0x28 2) w
  | .push _ w => wordOk (kFn 0x28 3) w
  | .pop _ w => wordOk (kFn 0x28 4) w
  | .nop _ w => wordOk (kFn8 0x30 0x00) w
  | .sgset _ w => wordOk (kFn8 0x30 0x01) w
  | .sggetb _ w => wordOk (kFn8 0x30 0x02) w
  | .sggetl _ w => wordOk (kFn8 0x30 0x03) w
  | .sgsub _ w => wordOk (kFn8 0x30 0x04) w
  | .mfs _ w => wordOk (kFn8 0x30 0x08) w
  | .mts _ w => wordOk (kFn8 0x30 0x09) w
  | .trap _ w => wordOk (kFn8 0x30 0x10) w
  | .brk _ w => wordOk (kFn8 0x30 0x11) w
  | .tret _ w => wordOk (kFn8 0x30 0x12) w
  | .fence _ w => wordOk (kFn8 0x30 0x20) w
  | .ifence _ w => wordOk (kFn8 0x30 0x21) w
  | .wfi _ w => wordOk (kFn8 0x30 0x22) w
  | .wfiWake _ => true
  | .illegalInstruction _ w => kIllegal w.toNat
  | .interruptTaken _ => true
  | .storeBusError _ => true
  | .vadd _ w => wordOk (kCp 0x38 0x01) w
  | .vsub _ w => wordOk (kCp 0x38 0x02) w
  | .vmul _ w => wordOk (kCp 0x38 0x03) w
  | .vdiv _ w => wordOk (kCp 0x38 0x04) w
  | .vsqrt _ w => wordOk (kCp 0x38 0x05) w
  | .vmin _ w => wordOk (kCp 0x38 0x06) w
  | .vmax _ w => wordOk (kCp 0x38 0x07) w
  | .vabs _ w => wordOk (kCp 0x38 0x08) w
  | .vneg _ w => wordOk (kCp 0x38 0x09) w
  | .vcmpeq _ w => wordOk (kCp 0x38 0x0A) w
  | .vcmplt _ w => wordOk (kCp 0x38 0x0B) w
  | .vcmple _ w => wordOk (kCp 0x38 0x0C) w
  | .vsel _ w => wordOk (kCp 0x38 0x0D) w
  | .vcvtw _ w => wordOk (kCp 0x38 0x10) w
  | .vcvtn _ w => wordOk (kCp 0x38 0x11) w
  | .vcvtif _ w => wordOk (kCp 0x38 0x12) w
  | .vcvtfi _ w => wordOk (kCp 0x38 0x13) w
  | .vld _ w => wordOk (kCp 0x38 0x18) w
  | .vst _ w => wordOk (kCp 0x38 0x19) w
  | .vins _ w => wordOk (kCp 0x38 0x1C) w
  | .vext _ w => wordOk (kCp 0x38 0x1D) w
  | .vbcast _ w => wordOk (kCp 0x38 0x1E) w
  | .vhsum _ w => wordOk (kCp 0x38 0x20) w
  | .vdot _ w => wordOk (kCp 0x38 0x21) w
  | .vstat _ w => wordOk (kCp 0x38 0x30) w
  | .hqlatch _ w => wordOk (kCp 0x39 0x01) w
  | .hqread _ w => wordOk (kCp 0x39 0x02) w
  | .hqstat _ w => wordOk (kCp 0x39 0x03) w
  | .waitbeam _ w => wordOk (kCp 0x3A 0x01) w
  | .waitbeamEnd _ => true
  | .barrier _ w => wordOk (kCp 0x3A 0x02) w
  | .barrierRelease _ => true
  | .snapshot _ w => wordOk (kCp 0x3A 0x03) w
  | .epoch _ w => wordOk (kCp 0x3A 0x04) w
  | .fld _ w => wordOk (kCp 0x3B 0x01) w
  | .fst _ w => wordOk (kCp 0x3B 0x02) w
  | .fadd _ w => wordOk (kCp 0x3B 0x03) w
  | .fsub _ w => wordOk (kCp 0x3B 0x04) w
  | .fmul _ w => wordOk (kCp 0x3B 0x05) w
  | .fsqr _ w => wordOk (kCp 0x3B 0x06) w
  | .fsel _ w => wordOk (kCp 0x3B 0x07) w
  | .fzero _ w => wordOk (kCp 0x3B 0x08) w
  | .fmovw _ w => wordOk (kCp 0x3B 0x09) w
  | .sig0 _ w => wordOk (kCp 0x3B 0x10) w
  | .sig1 _ w => wordOk (kCp 0x3B 0x11) w
  | .sum0 _ w => wordOk (kCp 0x3B 0x12) w
  | .sum1 _ w => wordOk (kCp 0x3B 0x13) w
  | .ch _ w => wordOk (kCp 0x3B 0x14) w
  | .maj _ w => wordOk (kCp 0x3B 0x15) w
  | .threadStart _ _ _ => true
  | .threadStop _ _ _ => true
  | .flush _ _ _ => true
  | .gstStep _ => true
  | .gstShift _ => true
  | .gstDrive _ => true
  | .gstAwait _ => true
  | .gstBranch _ => true
  | .gstCount _ => true
  | .gstXfer _ => true
  | .gstSignal _ => true
  | .gstStamp _ => true
  | .gstCheck _ => true
  | .gstIllegal _ => true
  | .gstStallComplete _ => true
  | .gstEnable _ _ _ => true
  | .gstRestart _ _ _ => true
  | .fifoClr _ _ _ => true
  | .divRestart _ _ _ => true
  | .gstStart _ _ => true
  | .gstStop _ _ => true
  | .gstTxfWrite _ _ ws => decide (1 ≤ ws.length) && decide (ws.length ≤ 4)
  | .gstRxfRead _ _ n => decide (1 ≤ n) && decide (n ≤ 4)
  | .gstProgWrite _ _ _ _ => true
  | .gpioOutWrite _ _ _ => true
  | .pinCfgWrite _ _ _ => true
  | .pinLock _ _ _ => true
  | .pinDetect _ _ => true
  | .vddioChange _ _ => true
  | .sourceEvent _ _ => true
  | .channelPulse _ => true
  | .heldEmit _ => true
  | .brzFire _ _ _ => true
  | .taskInputEvent _ _ => true
  | .timArm _ _ _ => true
  | .timStop _ _ _ => true
  | .timCapture _ _ _ => true
  | .timTick _ => true
  | .set _ => true
  | .lullCompletion _ _ => true
  | .lullRecordWrite _ => true
  | .lulResume _ _ _ => true
  | .consIdxWrite _ _ _ => true
  | .coalesceRelease _ => true
  | .evtMapWrite _ _ _ => true
  | .twdTransferStart _ => true
  | .twdPiece _ rdata _ => decide (rdata.length ≤ 64)
  | .twdPacedUse _ => true
  | .twdComplete _ => true
  | .twdCancel _ _ _ => true
  | .twdErrorRecord => true
  | .twdResume _ _ => true
  | .twdAbort _ _ => true
  | .twdErrCountClear _ => true
  | .galEnable _ _ => true
  | .sampleFrame _ _ => true
  | .keyOn _ _ => true
  | .keyOff _ _ => true
  | .xpTargetWrite _ _ _ _ => true
  | .xpHoldRelease _ _ => true
  | .bqCoefWrite _ _ _ _ => true
  | .bqClear _ _ _ => true
  | .galBufferComplete _ => true
  | .galCancel _ _ _ => true
  | .cxlLinkEn _ _ _ => true
  | .cxlLinkUp _ _ => true
  | .memEn _ _ _ => true
  | .cxlConfigAccess _ kind o n data => accOk o.toNat n && cfgOk kind n data
  | .cxlMemoryAccess _ kind o n data => accOk o.toNat n && reqOk kind n data
  | .cxlLinkLost _ => true
  | .atsEn _ _ _ => true
  | .retrain _ _ _ => true
  | .atsTrainDone _ _ => true
  | .laneFail _ _ _ => true
  | .codewordReplay _ _ _ => true
  | .atsLinkLost _ => true
  | .peerWindowRequest _ kind _ o n data => accOk o.toNat n && reqOk kind n data
  | .peerRequestReceive _ _ kind o n data => accOk o.toNat n && reqOk kind n data
  | .ethEn _ _ _ => true
  | .frameTransmit _ => true
  | .frameReceive _ _ => true
  | .ppsPulse _ => true
  | .ppsPulseEnd _ => true
  | .mdioGo _ _ _ => true
  | .mdioDone _ => true
  | .xspiGo _ _ => true
  | .xspiDone _ _ => true
  | .bmiGo _ _ _ _ => true
  | .bmiDone _ _ => true
  | .dbguTxWrite _ _ => true
  | .dbguRxRead _ => true
  | .uartByteReceived _ _ => true
  | .uartByteSent => true
  | .verify => true
  | .attest => true
  | .revoke _ => true
  | .provision _ => true
  | .toField _ => true
  | .toReturn _ => true
  | .challenge => true
  | .debugUnlock => true
  | .svnCommit _ => true
  | .secCommandEnd => true
  | .scrap _ _ _ => true
  | .bootProcedure _ _ => true
  | .tamperEvent _ => true
  | .tamperLogClear _ => true
  | .tapIrUpdate _ => true
  | .dbgReg _ _ _ => true
  | .dbgCmdGo => true
  | .domainSwitchWrite _ _ _ => true
  | .domainWakeComplete _ => true
  | .domainSleepComplete _ => true
  | .autoWake _ => true
  | .coreFreqWrite _ _ _ => true
  | .coreClockMove _ => true
  | .pixClockWrite _ _ _ => true
  | .pixRelock _ => true
  | .pllLock _ => true
  | .refLoss => true
  | .refReturn => true
  | .coldReset => true
  | .porstRise _ => true
  | .warmReset _ _ => true
  | .leaveTwilight _ => true
  | .tjUpdate _ => true
  | .lullQueueEnable _ _ _ => true
  | .ethLinkUp _ => true
  | .ethLinkDown _ => true
  | .peerWindowResponse _ _ _ data => decide (data.length ≤ 64)
  | .cxlCompletion _ _ data _ => decide (data.length ≤ 64)
  | .cxlCompletionTimeout _ _ => true
  | .bcastAnswer _ _ => true
  | .tamperConditionLeft _ => true

end Sys2Proof
end

