-- ==== Sys2Proof/Tests/Slice0.lean ====
section
/-! SUPPORT. Small tests: what WellFormed refuses, worked encodings, and for every statement states and operands that meet
its hypotheses. -/

namespace Sys2Proof.Tests

open Sys2Proof Sys2Proof.Machine

-- One theorem after another: in parallel their stacks pass the memory limit.
set_option Elab.async false

/-! ### Helpers -/

/-- The outcome is a next state of which `p` holds. -/
def after (o : Result) (p : State → Bool) : Bool :=
  match o with
  | .next t => p t
  | _ => false

/-- PORST_N is high and the domains of `ds`, rising, are on. -/
def up (ds : List Nat) : State := { State.reset with held := false, regs := ds.map (fun d => (R.PWR_DOM_STATUS d, 2)) }

/-- `s` with register `k` holding `v`, for each pair of the list. -/
def holding (s : State) (l : List (Nat × Nat)) : State := l.foldl (fun s e => s.setReg e.1 e.2) s

/-- `s` with fields set. -/
def fields (s : State) (l : List (Fld × Nat)) : State := l.foldl (fun s e => s.setFld e.1 e.2) s

/-- A requester of the secure controller, of core cluster 0 with S, and of core cluster 0 without it. -/
def secure : Req := ⟨0x10F, true⟩

/-- Core cluster 0 with attribute `s`. -/
def core0 (s : Bool) : Req := ⟨0, s⟩

/-- Thread 0 is `x`, in RUN with its PC at the start of bank 0, which belongs to core cluster 0 and holds the word `w`; sg0 and
sg1 are the bank, for execution and for data. -/
def running (w : Nat) (x : Thread) : State :=
  ((((up [40]).setFld (F.CORE_TH_CTRL_STATE 0) 1).setReg (R.POOL_BANK_OWN 0) 0).poke poolBase (toBytes 4 w)).setTh 0
    { x with sgB := [(0, BitVec.ofNat 64 poolBase), (1, BitVec.ofNat 64 poolBase), (7, BitVec.ofNat 64 poolBase)],
             sgL := [(0, 0x0005000000010000), (1, 0x0003000000010000), (7, 0x0003000000010000)] }

/-- `Fetches` as a check. -/
def fetchesB (s : State) (t : Fin 64) (w : BitVec 32) (p : KPat) : Bool :=
  s.kReady t && p.is w.toNat && !kIllegal w.toNat && match s.kFetch t with
    | .word _ n => n == w.toNat
    | _ => false

/-- The machine after the fetch. -/
def fetched (s : State) (t : Fin 64) : State :=
  match s.kFetch t with
  | .word s' _ => s'
  | _ => s

/-- A state that passes the check fetches. -/
theorem fetches_of {s : State} {t : Fin 64} {w : BitVec 32} {p : KPat} (h : fetchesB s t w p = true) :
    Fetches s t w p (fetched s t) := by
  simp only [fetchesB, Bool.and_eq_true, Bool.not_eq_true'] at h
  refine ⟨h.1.1.1, h.1.1.2, h.1.2, ?_⟩
  unfold fetched
  cases e : s.kFetch t with
  | word s' n => simp only [e, beq_iff_eq] at h; rw [h.2]
  | bad s' c v => simp [e] at h
  | outside => simp [e] at h

/-- `PoolOpen` as a check. -/
def poolOpenB (s : State) (q : Req) (write : Bool) (o n : Nat) : Bool :=
  decide (o + n ≤ poolSize) && (banksAt o n).all (fun b =>
    s.bankAdmits q write b && s.bankTakes b && s.fld (F.POOL_BANK_STATE_STATE b) != 3) && s.ecc.isEmpty && s.pool.copy.isNone

/-- An access that passes the check finds its banks open. -/
theorem poolOpen_of {s : State} {q : Req} {write : Bool} {o n : Nat} (h : poolOpenB s q write o n = true) :
    PoolOpen s q write o n := by
  simp only [poolOpenB, Bool.and_eq_true, decide_eq_true_eq, List.all_eq_true, bne_iff_ne, List.isEmpty_iff,
    Option.isNone_iff_eq_none] at h
  exact ⟨h.1.1.1, fun b hb => ⟨(h.1.1.2 b hb).1.1, (h.1.1.2 b hb).1.2, (h.1.1.2 b hb).2⟩, h.1.2, h.2⟩

/-! ### Well-formedness -/

/-- Each check of WellFormed refuses a command that breaks it. -/
theorem test_ill_formed :
    ([.registerWrite secure 0x3F [0, 0], .registerWrite secure 0x10000000 [0], .registerWrite secure 0 [],
      .poolAccess secure 0 false true 8 [] 0 none, .poolAccess secure 0 false false 8 [] 3 none,
      .poolAccess secure 0 false false 8 [] 0 (some ⟨0, true, 9, none⟩),
      .scrubRead 3 false, .nadirAccess secure vaultSize 0 (some 4) [], .nadirAccess secure 0 0 (some 65) [],
      .ctsAccess secure ctsSize false 4 [], .epochStoreReceive 0 secure 0 0 [0, 0, 0], .trainEnd 0 [[0]], .lineCommit 0 9,
      .auxReply 0 3 0 [], .auxReply 0 0 0 (List.replicate 17 0)] : List Instr).all (fun c => !c.wellFormed) = true := by
  decide +kernel

/-- A word of another pattern, a word with a reserved field set, a legal word given as illegal, and data that does not fit
its access are refused. -/
theorem test_ill_formed_words :
    ([.add 0 0x00611002, .add 0 0x00611041, .immi 0 0x2C040000, .nop 0 0xC0000040,
      .illegalInstruction 0 0x00611001] : List Instr).all (fun c => !c.wellFormed) = true ∧
    (Instr.gstTxfWrite secure 0 []).wellFormed = false ∧ (Instr.gstRxfRead secure 0 5).wellFormed = false ∧
    (Instr.twdPiece .ok (List.replicate 65 0) .ok).wellFormed = false ∧
    (Instr.cxlConfigAccess secure (.atomic 0) 0 8 (List.replicate 16 0)).wellFormed = false ∧
    (Instr.cxlMemoryAccess secure (.atomic 6) 0 8 (List.replicate 16 0)).wellFormed = false ∧
    (Instr.peerWindowRequest secure .write 0 0 4 [0]).wellFormed = false ∧
    (Instr.peerRequestReceive 0 secure .read 60 8 []).wellFormed = false ∧
    (Instr.peerWindowResponse 0 0 .ok (List.replicate 65 0)).wellFormed = false ∧
    (Instr.cxlCompletion 0 0 (List.replicate 65 0) false).wellFormed = false := by
  decide +kernel

/-- Commands in range are accepted. -/
theorem test_well_formed :
    ([.registerWrite secure 0x3E [0, 0], .add 0 0x00611001, .poolAccess secure 0 false false 64 [] 0 none,
      .illegalInstruction 0 0xFFFFFFFF] : List Instr).all Instr.wellFormed = true := by
  decide +kernel

/-! ### Knarn -/

/-- The word of formats R, A and C: opcode, RD, RA, RB and the function bits (R246). -/
def rWord (op d a b fn : Nat) : BitVec 32 := BitVec.ofNat 32 (op * 2 ^ 26 + d * 2 ^ 21 + a * 2 ^ 16 + b * 2 ^ 11 + fn)

/-- Thread 0 with w1 and w2. -/
def regs (a b : Nat) : Thread := { w := [(1, BitVec.ofNat 64 a), (2, BitVec.ofNat 64 b)] }

/-- The same with ST. -/
def regsSt (a b st : Nat) : Thread := { regs a b with sys := [(Sr.ST, BitVec.ofNat 64 st)] }

/-- The command `c` on word `w` with thread 0 at `x` completes, and thread 0 is then as `p` says. -/
def does (c : BitVec 32 → Instr) (w : BitVec 32) (x : Thread) (p : Thread → Bool) : Bool :=
  after (exec (c w) (running w.toNat x)) (fun u => p (u.th 0) && u.thState 0 == 1)

/-- It writes `v` to w3, with C and V, and goes on. -/
def puts (c : BitVec 32 → Instr) (w : BitVec 32) (x : Thread) (v : Nat) (cv : Bool × Bool := (false, false)) : Bool :=
  does c w x (fun y => y.gpr 3 == v && y.pc == 4 && y.st St.C == cv.1 && y.st St.V == cv.2)

/-- Every instruction word is fetched from bank 0: what every Knarn statement asks first. -/
theorem test_fetches : kAll.all (fun p =>
    let w := BitVec.ofNat 32 (p.val + 3 * 2 ^ 21 + 2 ^ 16 + 2 * 2 ^ 11)
    fetchesB (running w.toNat {}) 0 w p) = true := by
  decide +kernel

/-- The worked encodings of 09_knarn_isa.md. -/
theorem test_worked_encodings :
    (kFn 0x00 0x01).is 0x00611001 = true ∧ kD 0x00611001 = 3 ∧ kA 0x00611001 = 1 ∧ kB 0x00611001 = 2 ∧
    (kOp 0x16).is 0x58A96000 = true ∧ kD 0x58A96000 = 5 ∧ kA 0x58A96000 = 9 ∧ kSgM 0x58A96000 = 3 ∧
    (kFn8 0x30 0x20).is 0xC1020020 = true := by
  decide +kernel

theorem witness_KnarnEncodingsDisjoint : kFn 0x00 0x01 ∈ kAll ∧ (kFn 0x00 0x01).is 0x00611001 = true ∧
    kAll.all (fun p => !p.is 0) = true := by
  decide +kernel

theorem witness_KnarnSums :
    Fetches (running 0x00611001 (regs 5 7)) 0 0x00611001 (kFn 0x00 0x01) (fetched (running 0x00611001 (regs 5 7)) 0) :=
  fetches_of (by decide)

/-- The sums at a carry, a signed overflow and a limit. -/
theorem test_sums :
    puts (.add 0) (rWord 0 3 1 2 0x01) (regs (2 ^ 64 - 1) 1) 0 (true, false) = true ∧
    puts (.add 0) (rWord 0 3 1 2 0x01) (regs (2 ^ 63 - 1) 1) (2 ^ 63) (false, true) = true ∧
    puts (.sub 0) (rWord 0 3 1 2 0x02) (regs 5 7) (2 ^ 64 - 2) (false, false) = true ∧
    puts (.adc 0) (rWord 0 3 1 2 0x03) (regsSt 5 7 1) 13 = true ∧
    puts (.sbc 0) (rWord 0 3 1 2 0x04) (regsSt 7 5 0) 1 (true, false) = true ∧
    puts (.neg 0) (rWord 0 3 1 2 0x05) (regs (2 ^ 63) 0) (2 ^ 63) (false, true) = true ∧
    puts (.addi 0) (rWord 1 3 1 31 0x7FF) (regs 5 0) 4 (true, false) = true ∧
    puts (.adds 0) (rWord 0 3 1 2 0x06) (regs (2 ^ 63 - 1) 1) (2 ^ 63 - 1) (false, true) = true ∧
    puts (.subs 0) (rWord 0 3 1 2 0x07) (regs (2 ^ 63) 1) (2 ^ 63) (false, true) = true ∧
    puts (.addus 0) (rWord 0 3 1 2 0x08) (regs (2 ^ 64 - 1) 1) (2 ^ 64 - 1) (false, true) = true ∧
    puts (.subus 0) (rWord 0 3 1 2 0x09) (regs 5 7) 0 (false, true) = true := by
  decide +kernel

/-- The bitwise operations and the shifts; an amount of 64 gives 0 or the sign. -/
theorem witness_KnarnLogicAndShifts :
    puts (.and 0) (rWord 0 3 1 2 0x0A) (regs 12 10) 8 = true ∧ puts (.or 0) (rWord 0 3 1 2 0x0B) (regs 12 10) 14 = true ∧
    puts (.xor 0) (rWord 0 3 1 2 0x0C) (regs 12 10) 6 = true ∧ puts (.andn 0) (rWord 0 3 1 2 0x0D) (regs 12 10) 4 = true ∧
    puts (.sll 0) (rWord 0 3 1 2 0x10) (regs 1 64) 0 = true ∧ puts (.srl 0) (rWord 0 3 1 2 0x11) (regs 5 64) 0 = true ∧
    puts (.sra 0) (rWord 0 3 1 2 0x12) (regs (2 ^ 63) 64) (2 ^ 64 - 1) = true ∧
    puts (.andi 0) (rWord 2 3 1 31 0x7FF) (regs (2 ^ 63 + 5) 0) 5 = true ∧
    puts (.ori 0) (rWord 3 3 1 0 2) (regs 1 0) 3 = true ∧ puts (.xori 0) (rWord 4 3 1 0 3) (regs 1 0) 2 = true ∧
    puts (.slli 0) (rWord 7 3 1 0 63) (regs 1 0) (2 ^ 63) = true ∧
    puts (.srli 0) (rWord 8 3 1 0 63) (regs (2 ^ 63) 0) 1 = true ∧
    puts (.srai 0) (rWord 9 3 1 0 63) (regs (2 ^ 63) 0) (2 ^ 64 - 1) = true := by
  decide +kernel

/-- Products, and quotients and remainders at a divisor 0 and at −2^63 by −1. -/
theorem witness_KnarnProductsAndQuotients :
    puts (.mul 0) (rWord 0 3 1 2 0x18) (regs (2 ^ 64 - 1) 3) (2 ^ 64 - 3) = true ∧
    puts (.mulh 0) (rWord 0 3 1 2 0x19) (regs (2 ^ 64 - 1) 3) (2 ^ 64 - 1) = true ∧
    puts (.mulhu 0) (rWord 0 3 1 2 0x1A) (regs (2 ^ 64 - 1) 3) 2 = true ∧
    puts (.div 0) (rWord 0 3 1 2 0x1C) (regs (2 ^ 63) (2 ^ 64 - 1)) (2 ^ 63) (false, true) = true ∧
    puts (.div 0) (rWord 0 3 1 2 0x1C) (regs (2 ^ 64 - 7) 2) (2 ^ 64 - 3) = true ∧
    puts (.divu 0) (rWord 0 3 1 2 0x1D) (regs 7 0) (2 ^ 64 - 1) = true ∧
    puts (.rem 0) (rWord 0 3 1 2 0x1E) (regs (2 ^ 64 - 7) 2) (2 ^ 64 - 1) = true ∧
    puts (.remu 0) (rWord 0 3 1 2 0x1F) (regs 7 0) 7 = true := by
  decide +kernel

/-- Comparisons, constants, counts and extensions at their ends. -/
theorem witness_KnarnComparesAndCounts :
    puts (.slt 0) (rWord 0 3 1 2 0x20) (regs (2 ^ 63) 0) 1 = true ∧ puts (.sltu 0) (rWord 0 3 1 2 0x21) (regs (2 ^ 63) 0) 0 = true ∧
    puts (.slti 0) (rWord 5 3 1 31 0x7FF) (regs (2 ^ 63) 0) 1 = true ∧
    puts (.sltiu 0) (rWord 6 3 1 31 0x7FF) (regs 5 0) 1 = true ∧
    puts (.min 0) (rWord 0 3 1 2 0x22) (regs (2 ^ 63) 0) (2 ^ 63) = true ∧
    puts (.max 0) (rWord 0 3 1 2 0x23) (regs (2 ^ 63) 0) 0 = true ∧
    puts (.minu 0) (rWord 0 3 1 2 0x24) (regs (2 ^ 63) 0) 0 = true ∧
    puts (.maxu 0) (rWord 0 3 1 2 0x25) (regs (2 ^ 63) 0) (2 ^ 63) = true ∧
    puts (.imms 0) (rWord 0x0A 3 3 0 9) {} (9 * 2 ^ 48) = true ∧
    puts (.immi 0) (rWord 0x0B 3 3 0 9) { w := [(3, 5)] } (9 * 2 ^ 48 + 5) = true ∧
    puts (.addpc 0) (rWord 0x0C 3 0 31 0x7FF) {} (2 ^ 64 - 4) = true ∧
    puts (.clz 0) (rWord 0 3 1 0 0x28) {} 64 = true ∧ puts (.ctz 0) (rWord 0 3 1 0 0x29) (regs 8 0) 3 = true ∧
    puts (.popc 0) (rWord 0 3 1 0 0x2A) (regs 0xF1 0) 5 = true ∧
    puts (.sextb 0) (rWord 0 3 1 0 0x2B) (regs 0x180 0) (2 ^ 64 - 128) = true ∧
    puts (.sexth 0) (rWord 0 3 1 0 0x2C) (regs 0x8000 0) (2 ^ 64 - 32768) = true ∧
    puts (.sextw 0) (rWord 0 3 1 0 0x2D) (regs 0x180000000 0) (2 ^ 64 - 2 ^ 31) = true ∧
    puts (.zextw 0) (rWord 0 3 1 0 0x2E) (regs 0x180000000 0) 0x80000000 = true := by
  decide +kernel

/-- The address is `a`. -/
def isAt (r : Except (Nat × Nat) Nat) (a : Nat) : Bool :=
  match r with
  | .ok b => b == a
  | .error _ => false

/-- The address fails with the code and value `e`. -/
def fails (r : Except (Nat × Nat) Nat) (e : Nat × Nat) : Bool :=
  match r with
  | .ok _ => false
  | .error d => d == e

/-- Bytes at 0x100 of bank 0, reached through sg1. -/
def loaded (w : BitVec 32) : State :=
  (running w.toNat (regs 0x100 0xF0)).poke (poolBase + 0x100) [0x80, 0x81, 0x82, 0x83, 0x84, 0x85, 0x86, 0x87]

/-- The address of a load lies in bank 0, which is open; a byte and a word are extended, eight bytes are read. -/
theorem witness_KnarnLoadsAndStores :
    let s := loaded (rWord 0x10 3 1 4 0)
    isAt (s.segAddr ((s.th 0).seg 1) 0x100 1 true false).1 (poolBase + 0x100) = true ∧ poolOpenB s (s.kReq 0) false 0x100 1 = true ∧
    ([(Instr.ldb 0, 0x10, 2 ^ 64 - 0x80), (.ldbu 0, 0x11, 0x80), (.ldh 0, 0x12, 2 ^ 64 - 0x10000 + 0x8180),
      (.ldhu 0, 0x13, 0x8180), (.ldw 0, 0x14, 2 ^ 64 - 2 ^ 32 + 0x83828180), (.ldwu 0, 0x15, 0x83828180),
      (.ldd 0, 0x16, 0x8786858483828180)] : List ((BitVec 32 → Instr) × Nat × Nat)).all (fun e =>
      let w := rWord e.2.1 3 1 4 0
      after (exec (e.1 w) (loaded w)) (fun u => (u.th 0).gpr 3 == e.2.2 && (u.th 0).pc == 4)) = true := by
  decide +kernel

/-- A store puts its bytes at the address and nowhere else. -/
theorem test_stores :
    ([(Instr.stb 0, 0x18, [0xF0, 0x81]), (.sth 0, 0x19, [0xF0, 0, 0x82]), (.stw 0, 0x1A, [0xF0, 0, 0, 0, 0x84]),
      (.std 0, 0x1B, [0xF0, 0, 0, 0, 0, 0, 0, 0, 0])] : List ((BitVec 32 → Instr) × Nat × List Byte)).all (fun e =>
      let w := rWord e.2.1 2 1 4 0
      after (exec (e.1 w) (loaded w)) (fun u => u.bytes (poolBase + 0x100) e.2.2.length == e.2.2)) = true := by
  decide +kernel

/-- An atomic operation returns the old word and leaves the new one. -/
theorem witness_KnarnAtomics :
    ([(Instr.swap 0, 0, 0xF0), (.aadd 0, 1, 0x8786858483828270), (.aand 0, 2, 0x80), (.aor 0, 3, 0x87868584838281F0),
      (.axor 0, 4, 0x8786858483828170), (.cas 0, 5, 0x8786858483828180)] : List ((BitVec 32 → Instr) × Nat × Nat)).all (fun e =>
      let w := rWord 0x1C 3 1 2 (0x100 + e.2.1)
      poolOpenB (loaded w) ((loaded w).kReq 0) true 0x100 8 &&
        after (exec (e.1 w) (loaded w)) (fun u => (u.th 0).gpr 3 == 0x8786858483828180 && u.num (poolBase + 0x100) 8 == e.2.2)) =
      true := by
  decide +kernel

/-- A linear segment at its last element, one beyond it, a circular offset, a bit-reversed one, and a refused permission. -/
theorem witness_SegmentAddresses :
    let lin : Seg := ⟨poolBase, 0x0003000000000100⟩
    let circ : Seg := ⟨poolBase, 0x0013000000000100⟩
    let rev : Seg := ⟨poolBase, 0x0023000000000040⟩
    isAt ((up []).segAddr lin 0xF8 8 true false).1 (poolBase + 0xF8) = true ∧ fails ((up []).segAddr lin 0x100 8 true false).1 (2, 0x100) = true ∧
    fails ((up []).segAddr lin 0xF4 8 true false).1 (4, poolBase + 0xF4) = true ∧ fails ((up []).segAddr lin (-1) 1 true false).1 (2, 2 ^ 64 - 1) = true ∧
    isAt ((up []).segAddr circ (-8) 8 true true).1 (poolBase + 0xF8) = true ∧ isAt ((up []).segAddr rev 8 8 true false).1 (poolBase + 0x20) = true ∧
    fails ((up []).segAddr ⟨poolBase, 0x0001000000000100⟩ 0 8 false true).1 (3, 0) = true := by
  decide +kernel

/-- A branch taken back by one instruction, one not taken, and jumps. -/
theorem witness_KnarnBranches :
    let taken (c : BitVec 32 → Instr) (op a b : Nat) : Bool := does c (rWord op 1 2 0 3) (regs a b) (fun y => y.pc == 12)
    taken (.beq 0) 0x20 4 4 = true ∧ taken (.bne 0) 0x21 4 5 = true ∧ taken (.blt 0) 0x22 (2 ^ 63) 0 = true ∧
    taken (.bge 0) 0x23 0 (2 ^ 63) = true ∧ taken (.bltu 0) 0x24 4 5 = true ∧ taken (.bgeu 0) 0x25 5 5 = true ∧
    does (.beq 0) (rWord 0x20 1 2 0 3) (regs 4 5) (fun y => y.pc == 4) = true ∧
    does (.j 0) (rWord 0x26 0 0 0 5) {} (fun y => y.pc == 20) = true ∧
    does (.jr 0) (rWord 0x28 0 1 0 0) (regs 0x40 0) (fun y => y.pc == 0x40) = true := by
  decide +kernel

/-- Calls push the address of the next instruction at w31 − 8; a pop reads at w31. -/
theorem witness_KnarnStack :
    let x : Thread := { w := [(1, 0x40), (31, 0x108)] }
    let pushed (c : BitVec 32 → Instr) (w : BitVec 32) (v pc : Nat) : Bool := after (exec (c w) (running w.toNat x)) (fun u =>
      u.num (poolBase + 0x100) 8 == v && (u.th 0).gpr 31 == 0x100 && (u.th 0).pc.toNat == pc)
    pushed (.push 0) (rWord 0x28 0 1 0 3) 0x40 4 = true ∧ pushed (.call 0) (rWord 0x27 0 0 0 5) 4 20 = true ∧
    pushed (.callr 0) (rWord 0x28 0 1 0 1) 4 0x40 = true ∧
    after (exec (.pop 0 (rWord 0x28 3 0 0 4)) ((running (rWord 0x28 3 0 0 4).toNat x).poke (poolBase + 0x108) [0x44]))
      (fun u => (u.th 0).gpr 3 == 0x44 && (u.th 0).gpr 31 == 0x110) = true ∧
    after (exec (.ret 0 (rWord 0x28 0 0 0 2)) ((running (rWord 0x28 0 0 0 2).toNat x).poke (poolBase + 0x108) [0x44]))
      (fun u => (u.th 0).pc == 0x44 && (u.th 0).gpr 31 == 0x110) = true := by
  decide +kernel

/-- Segments and system registers at level 0; SELF is 64 pos + t. -/
theorem witness_KnarnSystem :
    let st := 2 ^ St.PRIV
    does (.nop 0) (rWord 0x30 0 0 0 0) {} (fun y => y.pc == 4) = true ∧
    does (.sgset 0) (rWord 0x30 2 1 2 1) (regsSt poolBase 0x0003000000000100 st)
      (fun y => (y.seg 2).b == poolBase && (y.seg 2).l == 0x0003000000000100) = true ∧
    does (.sggetb 0) (rWord 0x30 3 0 0 0x102) {} (fun y => y.gpr 3 == poolBase) = true ∧
    does (.sggetl 0) (rWord 0x30 3 0 0 0x103) {} (fun y => y.gpr 3 == 0x0003000000010000) = true ∧
    does (.sgsub 0) (rWord 0x30 2 1 2 0x104) (regs 0x100 0x0001000000000080) (fun y => (y.seg 2).b == poolBase + 0x100) = true ∧
    does (.mfs 0) (rWord 0x30 3 0 Sr.ST 8) (regsSt 0 0 st) (fun y => y.gpr 3 == st) = true ∧
    does (.mts 0) (rWord 0x30 0 1 Sr.EPC 9) (regsSt 0x88 0 st) (fun y => y.sr Sr.EPC == 0x88) = true ∧
    does (.mts 0) (rWord 0x30 0 1 Sr.ST 9) (regsSt 0xFF 0 0) (fun y => y.sr Sr.ST == 7) = true ∧
    does (.fence 0) 0xC1020020 {} (fun y => y.pc == 4) = true ∧ does (.ifence 0) (rWord 0x30 0 0 0 0x21) {} (fun y => y.pc == 4) = true := by
  decide +kernel

/-- TRAP saves the next PC and its code, BRK its own; an illegal word is the value; TRET goes back; inside a trap the thread
halts. -/
theorem witness_KnarnTraps :
    let x (st : Nat) : Thread := { w := [(31, 0x77)], sys := [(Sr.ST, BitVec.ofNat 64 st)] }
    let into (c : BitVec 32 → Instr) (w : BitVec 32) (cause tval epc : Nat) : Bool := does c w (x 0) (fun y =>
      y.sr Sr.CAUSE == cause && y.sr Sr.TVAL == tval && y.sr Sr.EPC == epc && y.sr Sr.ESP == 0x77 && y.st St.PRIV && y.st St.IN_TRAP)
    into (.trap 0) (rWord 0x30 0 0 1 0x10) 0x09 1 4 = true ∧ into (.brk 0) (rWord 0x30 0 0 1 0x11) 0x0A 1 0 = true ∧
    into (.illegalInstruction 0) 0xFC000000 0 0xFC000000 0 = true ∧
    does (.tret 0) (rWord 0x30 0 0 0 0x12) { x (2 ^ St.PRIV + 2 ^ St.IN_TRAP) with sys :=
      [(Sr.ST, BitVec.ofNat 64 (2 ^ St.PRIV + 2 ^ St.IN_TRAP)), (Sr.EPC, 0x40), (0x08, 5)] }
      (fun y => y.pc == 0x40 && !y.st St.IN_TRAP && !y.st St.PRIV && (y.seg 0).b == 5) = true ∧
    after (exec (.trap 0 (rWord 0x30 0 0 1 0x10)) (running (rWord 0x30 0 0 1 0x10).toNat (x (2 ^ St.IN_TRAP))))
      (fun u => u.thState 0 == 4 && u.fld (F.CORE_TH_CTRL_DF_CODE 0) == 9) = true := by
  decide +kernel

/-- The traps that stand in for an effect: a division by zero with DZE, a target outside sg0, SGSET at user level, a segment
of MODE 0b11. -/
theorem witness_KnarnTrapsInstead :
    let into (c : BitVec 32 → Instr) (w : BitVec 32) (x : Thread) (cause tval : Nat) : Bool := does c w x (fun y =>
      y.sr Sr.CAUSE == cause && y.sr Sr.TVAL == tval && y.sr Sr.EPC == 0)
    into (.div 0) (rWord 0 3 1 2 0x1C) (regsSt 5 0 (2 ^ St.DZE)) 0x08 0 = true ∧
    into (.j 0) (rWord 0x26 0 1 0 0) {} 0x05 0x40000 = true ∧
    into (.sgset 0) (rWord 0x30 2 1 2 1) (regsSt 0 0 0) 0x01 (rWord 0x30 2 1 2 1).toNat = true ∧
    into (.mfs 0) (rWord 0x30 3 0 1 8) (regsSt 0 0 0) 0x01 (rWord 0x30 3 0 1 8).toNat = true ∧
    into (.sgset 0) (rWord 0x30 2 1 2 1) (regsSt 0 (3 * 2 ^ 52) (2 ^ St.PRIV)) 0x20B (3 * 2 ^ 52) = true := by
  decide +kernel

/-- Thread 0 with all lanes of v1 and v2 alike. -/
def lanes (a b : Nat) : Thread := (({} : Thread).setVec 1 (List.replicate 4 a)).setVec 2 (List.replicate 4 b)

/-- `c` on word `w` leaves the lanes `l` in v3 and the vector status `st`. -/
def vec (c : BitVec 32 → Instr) (w : BitVec 32) (x : Thread) (l : List Nat) (st : Nat := 0) : Bool :=
  does c w x (fun y => y.vec 3 == l && y.vstat == st && y.pc == 4)

/-- Numbers of binary64 and binary32: 1 + 2, 3 − 1, 2 × 3, 3 / 2, the root of 4, and the conversions of 1, 2 and 2^63. -/
theorem witness_VectorArithmetic :
    let one := 0x3FF0000000000000
    let two := 0x4000000000000000
    let three := 0x4008000000000000
    let w (fn : Nat) := rWord 0x38 3 1 2 (fn * 32)
    let four (v : Nat) := List.replicate 4 v
    vec (.vadd 0) (w 1) (lanes one two) (four three) = true ∧ vec (.vsub 0) (w 2) (lanes three one) (four two) = true ∧
    vec (.vmul 0) (w 3) (lanes two three) (four 0x4018000000000000) = true ∧
    vec (.vdiv 0) (w 4) (lanes three two) (four 0x3FF8000000000000) = true ∧
    vec (.vsqrt 0) (w 5) (lanes 0x4010000000000000 0) (four two) = true ∧
    vec (.vadd 0) (rWord 0x38 3 1 2 (1 * 32 + 16)) (lanes 0x3F800000 0x40000000) (four 0x40400000) = true ∧
    vec (.vabs 0) (w 8) (lanes (one + 2 ^ 63) 0) (four one) = true ∧ vec (.vneg 0) (w 9) (lanes one 0) (four (one + 2 ^ 63)) = true ∧
    vec (.vcvtw 0) (w 0x10) (lanes 0x3F800000 0) (four one) = true ∧ vec (.vcvtn 0) (w 0x11) (lanes two 0) (four 0x40000000) = true ∧
    vec (.vcvtif 0) (w 0x12) (lanes 3 0) (four three) = true ∧ vec (.vcvtfi 0) (w 0x13) (lanes three 0) (four 3) = true ∧
    does (.vcvtfi 0) (w 0x13) (lanes 0x43E0000000000000 0) (fun y => y.vec 3 == four (2 ^ 63 - 1) && y.vstat == 16) = true := by
  decide +kernel

/-- Comparisons with a NaN and without, choices, moves and sums. -/
theorem witness_VectorSelection :
    let one := 0x3FF0000000000000
    let two := 0x4000000000000000
    let nan := 0x7FF8000000000000
    let ones := 2 ^ 64 - 1
    let w (fn : Nat) := rWord 0x38 3 1 2 (fn * 32)
    let four (v : Nat) := List.replicate 4 v
    let v3 (c : BitVec 32 → Instr) (w : BitVec 32) (x : Thread) (l : List Nat) : Bool := does c w x (fun y => y.vec 3 == l)
    v3 (.vcmpeq 0) (w 0x0A) (lanes one one) (four ones) = true ∧ v3 (.vcmplt 0) (w 0x0B) (lanes one two) (four ones) = true ∧
    v3 (.vcmple 0) (w 0x0C) (lanes nan two) (four 0) = true ∧ v3 (.vmin 0) (w 0x06) (lanes nan two) (four two) = true ∧
    v3 (.vmax 0) (w 0x07) (lanes one two) (four two) = true ∧ v3 (.vsel 0) (w 0x0D) (lanes one two) (four two) = true ∧
    does (.vins 0) (rWord 0x38 3 1 0 (0x1C * 32 + 2)) (regs 9 0) (fun y => y.vec 3 == [0, 0, 9, 0]) = true ∧
    does (.vext 0) (rWord 0x38 3 1 0 (0x1D * 32 + 3)) (lanes 7 0) (fun y => y.gpr 3 == 7) = true ∧
    v3 (.vbcast 0) (w 0x1E) (regs 9 0) (four 9) = true ∧ v3 (.vhsum 0) (w 0x20) (lanes one 0) [0x4010000000000000, 0, 0, 0] = true ∧
    v3 (.vdot 0) (w 0x21) (lanes one two) [0x4020000000000000, 0, 0, 0] = true ∧
    does (.vstat 0) (rWord 0x38 3 0 0 (0x30 * 32 + 1)) { vstat := 5 } (fun y => y.gpr 3 == 5 && y.vstat == 0) = true := by
  decide +kernel

/-- VLD, VST, FLD and FST at their sizes of 32 and 72 bytes. -/
theorem test_wide_accesses :
    let w (op fn : Nat) := rWord op 3 1 0 (fn * 32 + 1)
    after (exec (.vld 0 (w 0x38 0x18)) (loaded (w 0x38 0x18))) (fun u => (u.th 0).vec 3 == [0x8786858483828180, 0, 0, 0]) = true ∧
    after (exec (.vst 0 (w 0x38 0x19)) ((loaded (w 0x38 0x19)).modTh 0 (fun x => x.setVec 3 [1, 2, 3, 4])))
      (fun u => u.num (poolBase + 0x118) 8 == 4) = true ∧
    after (exec (.fld 0 (w 0x3B 0x01)) (loaded (w 0x3B 0x01))) (fun u => (u.th 0).fr 3 == 0x8786858483828180) = true ∧
    after (exec (.fst 0 (w 0x3B 0x02)) ((loaded (w 0x3B 0x02)).modTh 0 (fun x => x.setFr 3 5)))
      (fun u => u.num (poolBase + 0x100) 72 == 5) = true := by
  decide +kernel

/-- Field operations modulo 2^521 − 1 at a borrow, and the SHA-512 functions of 1 and of all ones. -/
theorem witness_CryptoAssist :
    let x : Thread := { regs 1 (2 ^ 64 - 1) with f := [(1, 3), (2, 5)] }
    let w (fn : Nat) := rWord 0x3B 3 1 2 (fn * 32)
    let f3 (c : BitVec 32 → Instr) (fn v : Nat) : Bool := does c (w fn) x (fun y => y.fr 3 == v)
    let w3 (c : BitVec 32 → Instr) (fn v : Nat) : Bool := does c (w fn) x (fun y => y.gpr 3 == v)
    f3 (.fadd 0) 3 8 = true ∧ f3 (.fsub 0) 4 (2 ^ 521 - 3) = true ∧ f3 (.fmul 0) 5 15 = true ∧ f3 (.fsqr 0) 6 9 = true ∧
    f3 (.fsel 0) 7 3 = true ∧ w3 (.fzero 0) 8 0 = true ∧ f3 (.fmovw 0) 9 1 = true ∧
    w3 (.sig0 0) 0x10 (2 ^ 63 + 2 ^ 56) = true ∧ w3 (.sig1 0) 0x11 (2 ^ 45 + 2 ^ 3) = true ∧
    w3 (.sum0 0) 0x12 (2 ^ 36 + 2 ^ 30 + 2 ^ 25) = true ∧ w3 (.sum1 0) 0x13 (2 ^ 50 + 2 ^ 46 + 2 ^ 23) = true ∧
    w3 (.ch 0) 0x14 1 = true ∧ w3 (.maj 0) 0x15 1 = true := by
  decide +kernel

/-- HQLATCH without a record, HQREAD beyond word 2,559 and of another epoch's half, HQSTAT, EPOCH, and SNAPSHOT. -/
theorem witness_QueryPort :
    let w (op fn : Nat) := rWord op 3 1 0 (fn * 32)
    let s := holding (running (w 0x39 2).toNat { regs 5 0 with hqL := 6 }) ([41, 120, 121, 122, 123].map (fun d =>
      (R.PWR_DOM_STATUS d, 2)) ++ [(R.POOL_BANK_OWN 1, 8)])
    let s := { s with hse := { s.hse with result := poolBase + 0x80000 } }
    let s := (s.poke (poolBase + 0x80008) [6]).poke (poolBase + 0x80028) [0x66]
    does (.hqlatch 0) (w 0x39 1) {} (fun y => y.gpr 3 == 2 ^ 64 - 1 && y.hqL == 2 ^ 64 - 1) = true ∧
    does (.hqread 0) (w 0x39 2) (regs 2560 0) (fun y => y.range && y.gpr 3 == 0) = true ∧
    does (.hqstat 0) (w 0x39 3) { stale := true, range := true } (fun y => y.gpr 3 == 3 && !y.stale && !y.range) = true ∧
    fetchesB s 0 (w 0x39 2) (kCp 0x39 2) = true ∧ s.hseOn = true ∧ poolOpenB s s.hseReq false 0x80028 8 = true ∧
    poolOpenB s s.hseReq false 0x80008 8 = true ∧
    after (exec (.hqread 0 (w 0x39 2)) s) (fun u => (u.th 0).gpr 3 == 0x66) = true ∧
    after (exec (.epoch 0 (w 0x3A 4)) ((running (w 0x3A 4).toNat {}).setReg R.CST_EPOCH 77)) (fun u => (u.th 0).gpr 3 == 77) = true ∧
    after (exec (.snapshot 0 (w 0x3A 3)) (running (w 0x3A 3).toNat (regs 5 0))) (fun u => u.fld F.CST_SNAP_ARM_ARM == 5) = true := by
  decide +kernel

/-- WFI with and without an interrupt, WAITBEAM of no head, BARRIER that expects nobody or somebody, and the waits' ends. -/
theorem witness_KnarnWaits :
    let irq (s : State) := s.setFld (F.LUL_Q_STATUS_PENDING 5) 1
    let wfi := rWord 0x30 0 0 0 0x22
    let beam := rWord 0x3A 3 1 0 32
    let bar := rWord 0x3A 3 0 0 (2 * 32 + 4)
    let waits (o : Result) (v : Wait) : Bool := after o (fun u => u.thState 0 == 2 && (u.th 0).wait == some v && (u.th 0).pc == 0)
    after (exec (.wfi 0 wfi) (irq (running wfi.toNat {}))) (fun u => (u.th 0).pc == 4) = true ∧
    waits (exec (.wfi 0 wfi) (running wfi.toNat {})) .wfi = true ∧
    after (exec (.wfiWake 0) (irq ((running wfi.toNat { wait := some .wfi }).setFld (F.CORE_TH_CTRL_STATE 0) 2)))
      (fun u => u.thState 0 == 1 && (u.th 0).pc == 4) = true ∧
    does (.waitbeam 0) beam (regs (6 * 2 ^ 32) 0) (fun y => y.gpr 3 == 3) = true ∧
    does (.waitbeam 0) beam (regs 0 0) (fun y => y.gpr 3 == 1) = true ∧
    after (exec (.waitbeamEnd 0) ((running 0 { wait := some (.beam 0 1 2 false false true 0 3) }).setFld (F.CORE_TH_CTRL_STATE 0) 2))
      (fun u => u.thState 0 == 1 && (u.th 0).gpr 3 == 1) = true ∧
    does (.barrier 0) bar {} (fun y => y.gpr 3 == 3) = true ∧
    waits (exec (.barrier 0 bar) (holding (running bar.toNat {}) [(R.CST_BAR_CFG 4, 2)])) (.barrier 3) = true ∧
    after (exec (.barrierRelease 4) ((running 0 { wait := some (.barrier 3), arrived := some ⟨4, 0, some 0⟩ }).setFld
      (F.CORE_TH_CTRL_STATE 0) 2)) (fun u => u.thState 0 == 1 && (u.th 0).arrived == none) = true := by
  decide +kernel

/-- WAITBEAM on a scanning head whose compose beam stands at (3, 0): reached, passed, and waited for. -/
theorem test_waitbeam :
    let w := rWord 0x3A 3 1 0 32
    let s (line : Nat) := { holding (running w.toNat (regs (line * 2 ^ 16) 0)) [(R.PWR_DOM_STATUS 112, 2), (R.HEAD_STATUS 0, 1)] with
      heads := [(0, ({ cLine := 3, act := [(R.HEAD_HTIM_A 0, 640), (R.HEAD_VTIM_A 0, 480)] } : HeadSt))] }
    (s 3).scanning 0 = true ∧ (s 3).vActive 0 = 480 ∧ (s 3).hActive 0 = 640 ∧
    after (exec (.waitbeam 0 w) (s 3)) (fun u => (u.th 0).gpr 3 == 0) = true ∧
    after (exec (.waitbeam 0 w) (s 2)) (fun u => (u.th 0).gpr 3 == 2) = true ∧
    after (exec (.waitbeam 0 w) (s 4)) (fun u => u.thState 0 == 2) = true ∧
    after (exec (.waitbeam 0 w) (s 480)) (fun u => (u.th 0).gpr 3 == 3) = true := by
  decide +kernel

/-- An interrupt in RUN and in WAIT, a store's bus error, START, STOP and FLUSH. -/
theorem witness_InterruptsAndThreadControl :
    let s (x : Thread) (st : Nat) := ((running 0 { x with sys := [(Sr.ST, BitVec.ofNat 64 (2 ^ St.IE))] }).setFld
      (F.LUL_Q_STATUS_PENDING 5) 1).setFld (F.CORE_TH_CTRL_STATE 0) st
    let t := (holding (up [0, 32]) [(R.CORE_TH_PC 0, 0x40), (R.CORE_TH_SP 0, 0x80)]).setFld F.CLK_STATUS_FAB_LOCKED 1
    after (exec (.interruptTaken 0) (s {} 1)) (fun u => (u.th 0).sr Sr.CAUSE == 0x10 && (u.th 0).sr Sr.TVAL == 5 &&
      (u.th 0).sr Sr.EPC == 0 && !(u.th 0).st St.IE) = true ∧
    after (exec (.interruptTaken 0) (s { wait := some .wfi } 2)) (fun u => u.thState 0 == 1 && (u.th 0).sr Sr.EPC == 4) = true ∧
    after (exec (.storeBusError 0) (s { badSt := [9] } 1)) (fun u => (u.th 0).sr Sr.CAUSE == 2 ^ 63 + 7 && (u.th 0).sr Sr.TVAL == 9) = true ∧
    t.startOk 0 = true ∧ after (exec (.threadStart secure 0 5) t) (fun u => u.thState 0 == 1 && (u.th 0).pc == 0x40 &&
      (u.th 0).gpr 31 == 0x80 && (u.th 0).st St.SATTR) = true ∧
    after (exec (.threadStop secure 0 2) (s {} 1)) (fun u => u.thState 0 == 3) = true ∧
    after (exec (.flush secure 0 0) (up [])) (fun u => u.dirty == [] && u.resp.status == .ok) = true := by
  decide +kernel

/-! ### Memories -/

/-- Bank 0 belongs to core cluster 0 and is on. -/
def bank0 : State := (up [40]).setReg (R.POOL_BANK_OWN 0) 0

/-- A write and a read of an open bank, a refused read, one wrong bit, two, and two ports that meet. -/
theorem witness_PoolAccesses :
    poolOpenB bank0 (core0 false) false 0xFFF8 8 = true ∧ poolOpenB bank0 (core0 false) true 0xFFF8 8 = true ∧
    let at_ (o : BitVec 28) (rot write : Bool) (n : Nat) (bs : List Byte) (upset : Nat) (meet : Option Meeting) (s : State) :=
      exec (.poolAccess (core0 false) o rot write n bs upset meet) s
    let rows := bank0.poke (poolBase + 8) [1, 2]
    after (at_ 8 false true 0 [1, 2] 0 none bank0) (fun u => u.bytes (poolBase + 8) 3 == [1, 2, 0]) = true ∧
    after (at_ 8 false false 2 [] 0 none rows) (fun u => u.resp == ⟨.ok, [1, 2]⟩) = true ∧
    poolOpenB rows (core0 false) false 8 8 = true ∧
    after (at_ 15 true false 3 [] 0 none rows) (fun u => u.resp == ⟨.ok, [0, 1, 2]⟩) = true ∧
    after (at_ 0x80000 false false 4 [] 0 none bank0)
      (fun u => u.resp == ⟨.refused, [0, 0, 0, 0]⟩ && u.reg R.POOL_VIOL_COUNT == 1) = true ∧
    after (at_ 8 false false 8 [] 1 none bank0) (fun u => u.fld (F.POOL_BANK_STATE_CE_COUNT 0) == 1) = true ∧
    after (at_ 8 false false 8 [] 2 none bank0) (fun u => u.resp.status == .error && u.reg R.POOL_UE_COUNT == 1) = true ∧
    bank0.atPortB (core0 false) false = false ∧ bank0.atPortB (core0 false) true = false ∧
    after (at_ 8 false false 8 [] 0 (some ⟨8, true, 0, some 3⟩) bank0)
      (fun u => u.reg R.POOL_BUSY == 1 && u.reg R.POOL_BUSY_LAST == 1 && u.busy) = true ∧
    after (at_ 8 false true 0 [5, 5, 5, 5, 5, 5, 5, 5] 0 (some ⟨8, false, 0, some 3⟩) bank0)
      (fun u => u.reg R.POOL_BUSY == 256 && u.bytes (poolBase + 8) 4 == [0, 0, 5, 5]) = true := by
  decide +kernel

/-- The scrubber at the last word, a remap with a spare and without one, a copied word, and the takeover. -/
theorem witness_PoolMachinery :
    let s := holding (up (40 :: (List.range 71).map (· + 41))) [(R.POOL_SCRUB, 2 ^ 31)]
    let t := { s with pool := { s.pool with scrub := 288 * 65536 - 1 }, ecc := [(poolBase + 8 * (288 * 65536 - 1), .single)] }
    t.flag F.POOL_SCRUB_ENABLE = true ∧ t.scrubbed 287 = true ∧
    after (exec (.scrubRead 0 false) t) (fun u => u.pool.scrub == 0 && u.ecc == []) = true ∧
    after (exec .remapStart { s with pool := { s.pool with queue := [7] } })
      (fun u => u.fld (F.POOL_BANK_STATE_STATE 7) == 1 && u.pool.copy.isSome) = true ∧
    after (exec .remapStart { s.setReg R.POOL_SPARE 0xFFFFFFFF with pool := { s.pool with queue := [7] } })
      (fun u => u.fld (F.POOL_BANK_STATE_STATE 7) == 3) = true ∧
    after (exec .spareCopy { s with pool := { s.pool with copy := some { bank := 7, spare := 1, next := 65535 } } })
      (fun u => u.pool.copy == some { bank := 7, spare := 1, next := 65536 }) = true ∧
    after (exec .spareTakeover { s with pool := { s.pool with copy := some { bank := 7, spare := 1, next := 65536 } } })
      (fun u => u.fld (F.POOL_BANK_STATE_STATE 7) == 2 && u.pool.copy == none) = true := by
  decide +kernel

/-- The owner gives bank 0 away, a stranger is refused, the handover ends; the vault for S and for the others; the constants
table store. -/
theorem witness_BankOwnershipAndVault :
    let s := (up [149, 120, 121, 122, 123]).setReg (R.POOL_BANK_OWN 0) 0
    (ownerOf (core0 true) = 0 ∧ s.secure (core0 true) = false) ∧
    after (exec (.bankOwnershipWrite (core0 true) 0 false 8) s) (fun u => u.fld (F.POOL_BANK_OWN_OWNER 0) == 8 &&
      u.fld (F.POOL_BANK_OWN_HANDOVER 0) == 1 && bits (u.ownInForce 0) 0 4 == 0) = true ∧
    after (exec (.bankOwnershipWrite (core0 true) 0 true 0xFFFF0000) s) (fun u => u.fld (F.POOL_BANK_GRANT_READ_GRANT 0) == 0xFFFF) = true ∧
    s.bankWriter (core0 true) 1 = false ∧
    after (exec (.handover 0) (s.setReg (R.POOL_BANK_OWN 0) (8 + 2 ^ 31))) (fun u => u.reg (R.POOL_BANK_OWN 0) == 8) = true ∧
    after (exec (.nadirAccess secure (vaultSize - 1) 0 none [5]) s) (fun u => u.byte (vaultBase + vaultSize - 1) == 5) = true ∧
    after (exec (.nadirAccess (core0 false) 0 0 (some 2) []) s) (fun u => u.resp == ⟨.refused, [0, 0]⟩) = true ∧
    after (exec (.ctsAccess secure 0 false 2 []) s) (fun u => u.resp == ⟨.ok, [0, 0]⟩) = true ∧
    after (exec .nadirWipeEnd (s.setFld F.SEC_STATUS_WIPING 1)) (fun u => !u.flag F.SEC_STATUS_WIPING) = true := by
  decide +kernel

/-! ### The machine, registers and rings -/

/-- A step takes the front command; on an empty queue a cycle passes, in cold reset too. -/
theorem witness_StepRunsFrontCommand :
    after (step { up [] with pending := [.pllLock 2, .refReturn] }) (fun u => u.pending == [.refReturn] && u.reg R.CLK_STATUS == 4) = true ∧
    after (step { up [] with now := 4 }) (fun u => u.now == 5 && u.stc == 1) = true ∧
    after (step State.reset) (fun u => u.now == 1 && u.stc == 0) = true := by
  decide +kernel

/-- The rise of PORST_N takes the straps as POS and begins the boot. -/
theorem test_porst_rise :
    after (exec (.porstRise 2) State.reset) (fun u => !u.held && u.pos == 2 && u.sec.boot) = true := by
  decide +kernel

/-- A byte write at the middle and one at an unassigned place. -/
theorem witness_RegisterWrites :
    after (exec (.registerWrite secure (R.CST_BCAST_EPOCH + 3) [0xAB]) ((up []).setReg R.CST_BCAST_EPOCH 0x1111111122222222))
      (fun u => u.reg R.CST_BCAST_EPOCH == 0x11111111AB222222) = true ∧
    after (exec (.registerWrite secure 0x2CFFFC [1, 2, 3, 4]) (up [])) (fun u => u.regs == (up []).regs && u.resp.status == .ok) =
      true ∧
    after (exec (.registerWrite secure 0xDFFFC [1, 2, 3, 4]) (up [])) (fun u => u.regs == (up []).regs && u.resp.status == .error) =
      true := by
  decide +kernel

/-- Ring 14 is channel 0 of Tradewind. -/
def twd0 (cfg : Nat) : State := holding (up []) [(R.TWD_CH_CFG 0, cfg), (R.TWD_CH_BASE 0, poolBase)]

/-- Doorbells that fit, do not fit and are refused; a ring enabled, told to stop, and stopped. -/
theorem witness_Rings :
    let s := twd0 0xF851
    s.admits secure (s.fld (Ring.twd 0).owner) (s.flag (Ring.twd 0).attr) = true ∧ s.blockOn (blockOf (Ring.twd 0).dbKey) = true ∧
    after (exec (.doorbellWrite secure 14 32) s) (fun u => u.fld (Ring.twd 0).prod == 32) = true ∧
    after (exec (.doorbellWrite secure 14 33) s) (fun u => u.fld (Ring.twd 0).prod == 0 && u.flag (Ring.twd 0).dbErr) = true ∧
    after (exec (.doorbellWrite (core0 false) 14 1) s) (fun u => u.resp.status == .refused && u.reg R.SYS_VIOL_COUNT == 1) = true ∧
    after (exec (.ringEnable secure 14 0x51) ((twd0 0xF850).setReg (R.TWD_CH_DB 0) 9)) (fun u => u.flag (Ring.twd 0).enable &&
      u.fld (Ring.twd 0).prod == 0) = true ∧
    after (exec (.ringEnable secure 14 0x50) s) (fun u => !u.flag (Ring.twd 0).enable && (u.ringSt (.twd 0)).stopping) = true ∧
    after (exec (.ringStop 14) { s with rings := [((Ring.twd 0).ix, { stopping := true })] })
      (fun u => !(u.ringSt (.twd 0)).stopping) = true ∧
    after (exec (.ringStop 14) s) (fun u => u == s) = true := by
  decide +kernel

/-! ### The hydrostatic engine -/

/-- The HSE is on; bank 1 is its model, bank 2 its results. -/
def hse (l : List (Fld × Nat)) : State :=
  fields (holding (up [40, 120, 121, 122, 123]) [(R.POOL_BANK_OWN 1, 8), (R.POOL_BANK_OWN 2, 8)]) l

/-- The model commands. -/
theorem witness_HseModelCommands :
    after (exec (.hseModelNextWrite secure 7) (hse [])) (fun u => u.fld F.HSE_MODEL_NEXT_BANK == 7) = true ∧
    after (exec (.hseModelNextWrite secure 7) (hse [(F.HSE_MODEL_ARM_ARM, 1)])) (fun u => u.fld F.HSE_MODEL_NEXT_BANK == 0) = true ∧
    after (exec (.validate secure 1) (hse [(F.HSE_MODEL_NEXT_BANK, 1)])) (fun u => u.fld F.HSE_MODEL_STATUS_VAL_STATE == 1 &&
      u.hse.valBank == 1) = true ∧
    poolOpenB (hse []) (hse []).hseReq false bankSize 0x21000 = true ∧
    after (exec .validationEnd { hse [(F.HSE_MODEL_CMD_VALIDATE, 1)] with hse := { valBank := 1, valLost := true } })
      (fun u => u.fld F.HSE_MODEL_STATUS_VAL_STATE == 3 && u.fld F.HSE_MODEL_STATUS_VAL_CODE == 0x0F) = true ∧
    after (exec .validationEnd { hse [(F.HSE_MODEL_CMD_VALIDATE, 1)] with hse := { valBank := 1 } })
      (fun u => u.fld F.HSE_MODEL_STATUS_VAL_STATE == 3 && u.fld F.HSE_MODEL_STATUS_VAL_CODE == 1) = true ∧
    after (exec (.arm secure 1) (hse [(F.HSE_MODEL_STATUS_VAL_STATE, 2)])) (fun u => u.flag F.HSE_MODEL_ARM_ARM) = true ∧
    after (exec (.arm secure 1) (hse [])) (fun u => !u.flag F.HSE_MODEL_ARM_ARM) = true ∧
    after (exec (.disarm secure 2) (hse [(F.HSE_MODEL_ARM_ARM, 1)])) (fun u => !u.flag F.HSE_MODEL_ARM_ARM) = true ∧
    after (exec (.release secure 14) (hse [(F.HSE_MODEL_NEXT_BANK, 1)])) (fun u => u.fld (F.POOL_BANK_OWN_OWNER 1) == 3 &&
      u.fld (F.POOL_BANK_OWN_HANDOVER 1) == 1) = true := by
  decide +kernel

/-- The commands that arm something. -/
theorem witness_HseArming :
    after (exec (.hseEnable secure 1) (hse [(F.HSE_RESULT_BASE_ADDR, 0x10000)])) (fun u => u.flag F.HSE_CTRL_ENABLE &&
      !u.flag F.HSE_STATUS_BASE_ERR && u.flag F.HSE_STATUS_NO_MODEL && u.hse.result == poolBase) = true ∧
    after (exec (.hseEnable secure 1) (hse [(F.HSE_RESULT_BASE_ADDR, 0xFFFF)])) (fun u => u.flag F.HSE_STATUS_BASE_ERR) = true ∧
    after (exec (.hseEnable secure 0) (hse [(F.HSE_CTRL_ENABLE, 1)])) (fun u => !u.flag F.HSE_CTRL_ENABLE) = true ∧
    after (exec (.hseRestart secure 5) (hse [(F.HSE_CTRL_ENABLE, 1)])) (fun u => u.flag F.HSE_CTRL_RESTART) = true ∧
    after (exec (.paramCommit secure) (hse [])) (fun u => u.flag F.HSE_STATUS_PARAM_PENDING) = true ∧
    after (exec (.capture secure 9) (hse [])) (fun u => u.flag F.HSE_BASE_CMD_CAPTURE && u.hse.capSlot == 2) = true ∧
    after (exec (.clear secure 10) (hse [(F.HSE_BASE_CMD_VALID, 15)])) (fun u => u.fld F.HSE_BASE_CMD_VALID == 11) = true ∧
    after (exec (.baseAddrWrite secure 0x10008000) (hse [(F.HSE_BASE_CMD_VALID, 15)])) (fun u => u.fld F.HSE_BASE_CMD_VALID == 0 &&
      u.reg R.HSE_BASE_ADDR == 0x10008000) = true ∧
    after (exec (.selftestStart secure) (hse [])) (fun u => u.fld F.HSE_ST_STATUS_STATE == 1) = true ∧
    after (exec (.adoptArm secure 9) (hse [])) (fun u => u.fld F.HSE_ADOPT_SOURCE == 2 && u.fld F.HSE_ADOPT_STATE == 1) = true := by
  decide +kernel

/-- `ModelOpen` as a check. -/
def modelOpenB (s : State) (b : Nat) : Bool :=
  let h := s.ship (modelAddr b)
  poolOpenB s s.hseReq false (b * bankSize) bankSize && decide (bits (s.ownInForce b) 0 4 = 8) &&
  h.parts.all (fun e => decide (e.1 + e.2 ≤ bankSize)) && decide (h.hydro < 1024) && decide (h.kn < 1024) &&
  decide (h.section_ < 1024) && (List.range h.tanks).all (fun i => decide (s.num (h.tank i + 4) 2 < 1024))

/-- A model that passes the check is open. -/
theorem modelOpen_of {s : State} {b : Nat} (h : modelOpenB s b = true) : ModelOpen s b := by
  simp only [modelOpenB, Bool.and_eq_true, decide_eq_true_eq, List.all_eq_true, List.mem_range] at h
  exact ⟨poolOpen_of h.1.1.1.1.1.1, h.1.1.1.1.1.2, h.1.1.1.1.2, h.1.1.1.2, h.1.1.2, h.1.2, h.2⟩

/-- A state as adoption carries it. -/
def carried : Carried := ⟨3, 1, none, [], none, 0, 0, 0, none⟩

/-- A cycle that has run, of epoch 7. -/
def cycled : Cycle :=
  { epoch := 7, sched := 0, bank := 1, modelId := 0, flags := 0, body := List.replicate 4032 0x11, block := List.replicate 16384 0x22,
    inv := 0, stale := 0, tanks := [], base := {} }

/-- A tick that starts a cycle's wait, one that overruns, a cycle that may run, and one whose results may be published. -/
theorem witness_HseLiveCycle :
    let s := hse [(F.HSE_CTRL_ENABLE, 1), (F.HSE_MODEL_STATUS_ACTIVE_VALID, 1), (F.HSE_MODEL_STATUS_ACTIVE_BANK, 1)]
    let due := { s with cst := { s.cst with due := some (5, 100, 50) } }
    after (exec (.adoptedStateArrive carried) (hse [(F.HSE_ADOPT_ARM, 1)])) (fun u => u.hse.arrived == some carried) = true ∧
    after (exec .tickReachesHse due) (fun u => u.hse.tick == some (5, 100, 50) && u.cst.reached == 5) = true ∧
    after (exec .tickReachesHse (due.setFld F.HSE_STATUS_RUNNING 1)) (fun u => u.flag F.HSE_STATUS_OVERRUN && u.hse.tick == none) = true ∧
    poolOpenB s s.hseReq false bankSize bankSize = true ∧
    modelOpenB s 1 = true ∧
    poolOpenB s s.hseReq true (2 * bankSize) 0xA000 = true ∧ cycled.body.length = 4032 ∧ cycled.block.length = 16384 ∧
    (openOf s (s.ship (modelAddr 1)) s.ctsHits []).any = false := by
  decide +kernel

/-- A job whose descriptor is good, its last candidate done, its record offered; CANCEL. -/
theorem witness_HseSweepsAndSelfTest :
    let s := holding (hse [(F.HSE_MODEL_STATUS_ACTIVE_VALID, 1), (F.HSE_MODEL_STATUS_ACTIVE_BANK, 1)])
      [(R.HSE_SWP_CFG 2, 0x8051), (R.HSE_SWP_BASE 2, poolBase + 2 * bankSize), (R.HSE_SWP_DB 2, 1)]
    let j : SweepJob := { ring := 2, control := 0, count := 1, list := 0, stride := 64, tag := 9, result := 0, limit := 1 }
    let with_ (j : SweepJob) : State := { s with hse := { s.hse with job := some j } }
    s.hseIdle = true ∧ s.sweepTurn = some 2 ∧ s.slotAddr (.hse 2) 0 = poolBase + 2 * bankSize ∧
    poolOpenB s (s.ringReq (.hse 2)) false (2 * bankSize) 64 = true ∧
    after (exec .sweepJobStart s) (fun u => u.hse.job.any (fun j => j.ring == 2 && j.code == some 5)) = true ∧
    after (exec .sweepJobEnd (with_ { j with code := some 0, next := 1 })) (fun u => u.hse.job == none &&
      u.lull.offers.map (fun r => (r.status, r.unit, r.index, r.w1, r.w2)) == [(0, 2, 2, 9, 1)]) = true ∧
    s.ringHeld (.hse 2) = 1 ∧ s.heldCount (.hse 2) = 0 ∧
    after (exec (.sweepCancel secure 2 0x8055) (with_ j)) (fun u => u.hse.job == none &&
      u.lull.offers.map (fun r => (r.status, r.w1)) == [(4, 9)]) = true := by
  decide +kernel

/-! ### Constellation -/

/-- A group of four, of which positions 0 and 1 are LIVE; this device is position 0. -/
def group (l : List (Fld × Nat)) : State :=
  fields (up []) ([(F.CST_GROUP_MEMBERS, 15), (F.CST_GROUP_GROUP_ID, 77), (F.CST_GROUP_STATUS_STATE, 2), (F.CST_GROUP_STATUS_LIVE, 3)] ++ l)

def lead : LeadInfo := ⟨0, 0, 0, 0, 5000, 5000, 0, none⟩

/-- FORM, LEAVE, hellos, the timeout, a lost peer and a time token. -/
theorem witness_GroupMembership :
    let alone := group [(F.CST_GROUP_STATUS_STATE, 0), (F.CST_GROUP_STATUS_LIVE, 0)]
    after (exec (.form secure) alone) (fun u => u.fld F.CST_GROUP_STATUS_STATE == 1 && u.live == 1 && u.out.length == 3) = true ∧
    after (exec (.leave secure) (group [])) (fun u => u.alone && u.live == 0) = true ∧
    after (exec (.hello 2 2 77 15 lead) (group [(F.CST_GROUP_STATUS_STATE, 1)])) (fun u => u.live == 7 && u.fld F.CST_GROUP_STATUS_STATE == 1) = true ∧
    after (exec (.hello 2 2 77 15 lead) (group [(F.CST_GROUP_STATUS_STATE, 1), (F.CST_GROUP_STATUS_LIVE, 11)]))
      (fun u => u.fld F.CST_GROUP_STATUS_STATE == 2) = true ∧
    after (exec (.hello 2 3 77 15 lead) (group [])) (fun u => u == group []) = true ∧
    after (exec .formTimeout (group [(F.CST_GROUP_STATUS_STATE, 1)])) (fun u => u.fld F.CST_GROUP_STATUS_STATE == 3) = true ∧
    after (exec .formTimeout (group [(F.CST_GROUP_STATUS_STATE, 1), (F.CST_GROUP_STATUS_LIVE, 1)]))
      (fun u => u.fld F.CST_GROUP_STATUS_STATE == 4) = true ∧
    after (exec (.peerLost 1) (group [])) (fun u => u.live == 1 && u.fld F.CST_GROUP_STATUS_STATE == 3) = true ∧
    after (exec (.timeToken 1 50 lead) { group [] with cst := { leader := some 1 } }) (fun u => u.flag F.CST_GROUP_STATUS_TIME_ALIGNED) = true ∧
    after (exec (.timeToken 1 51 lead) { group [] with cst := { leader := some 1 } }) (fun u => !u.flag F.CST_GROUP_STATUS_TIME_ALIGNED) = true := by
  decide +kernel

/-- A tick with a store that is due, stores that wait and arrive, armed regions, and copies in time and too late. -/
theorem witness_TicksAndSnapshots :
    let s := (group []).setReg (R.POOL_BANK_OWN 0) 0
    let s := s.setReg (R.PWR_DOM_STATUS 40) 2
    let job : SnapJob := ⟨3, poolBase, poolBase + 0x1000, 1, 0, true, false, 6, false⟩
    let at_ (n : Nat) : State := { s.poke poolBase [9] with cst := { jobs := [job], reached := n } }
    let x : EStore := ⟨0, 1, poolBase + 8, [7, 8], core0 true⟩
    s.ticks = true ∧ poolOpenB s (core0 true) true 8 2 = true ∧
    after (exec .groupTick { s with cst := { stores := [x] } }) (fun u => u.reg R.CST_EPOCH == 1 && u.stc == 10000000 &&
      u.cst.stores == [] && u.bytes (poolBase + 8) 2 == [7, 8]) = true ∧
    after (exec (.epochStore secure 1) (fields s [(F.CST_GROUP_STATUS_LIVE, 1)])) (fun u => u.cst.stores.length == 1 &&
      !u.flag F.CST_BCAST_CMD_GO) = true ∧
    after (exec (.epochStore secure 1) s) (fun u => u.flag F.CST_BCAST_CMD_GO && u.cst.go == [1]) = true ∧
    after (exec (.epochStoreReceive 1 (core0 true) 9 0x10000000 [1, 2, 3, 4]) s) (fun u => u.cst.stores.length == 1) = true ∧
    after (exec (.epochStoreReceive 2 (core0 true) 9 0x10000000 [1, 2, 3, 4]) s) (fun u => u.cst.stores == []) = true ∧
    after (exec (.snapshotArm secure 0x81) s) (fun u => u.fld F.CST_SNAP_ARM_ARM == 0x81) = true ∧
    poolOpenB s (s.engine 0 true) true 0x1000 72 = true ∧
    after (exec (.snapshotCopy 3) (at_ 5)) (fun u => u.byte (poolBase + 0x1000) == 9 && u.num (poolBase + 0x1040) 8 == 6) = true ∧
    after (exec (.snapshotCopy 3) (at_ 6)) (fun u => u.byte (poolBase + 0x1000) == 0 && u.reg R.CST_SNAP_LATE == 1) = true := by
  decide +kernel

/-- The copy of a peer lands in time and is discarded when it is late. -/
theorem test_snapshot_data :
    let s := { holding (group []) [(R.POOL_BANK_OWN 0, 0), (R.POOL_BANK_GRANT 0, 2 ^ 13), (R.PWR_DOM_STATUS 40, 2)] with
      cst := { reached := 5 } }
    let q : Req := ⟨0x40, false⟩
    posOf q = 1 ∧ s.isLive 1 = true ∧ poolOpenB s q true 0 72 = true ∧
    after (exec (.snapshotDataReceive 1 q 0x10000000 6 true (List.replicate 64 3)) s) (fun u => u.byte (poolBase + 63) == 3 &&
      u.num (poolBase + 64) 8 == 6) = true ∧
    after (exec (.snapshotDataReceive 1 q 0x10000000 5 true (List.replicate 64 3)) s) (fun u => u.mem == [] &&
      u.reg R.CST_SNAP_LATE == 1) = true := by
  decide +kernel

/-- Votes, barriers, mailboxes and reset requests. -/
theorem witness_VotesBarriersMail :
    let s := { group [] with cst := { reached := 5 } }
    let bar := s.setReg (R.CST_BAR_CFG 9) (2 + 2 * 2 ^ 17)
    after (exec (.digestReceive 1 4 0xAA) s) (fun u => u.reg R.CST_VOTE_DISCARD == 1) = true ∧
    after (exec (.digestReceive 1 5 0xAA) s) (fun u => u.cst.votes.map (fun v => (v.epoch, v.digests)) == [(5, [(1, 0xAA)])]) = true ∧
    after (exec .voteClose { s with cst := { votes := [⟨5, [(0, 1), (1, 1)], true⟩] } }) (fun u => u.cst.votes == [] && u.cst.done == [5]) = true ∧
    bar.fld (F.CST_BAR_CFG_SCOPE 9) = 2 ∧
    after (exec (.barrierArrival 9 1) bar) (fun u => (u.bar 9).gen == 0 && AMap.get (u.bar 9).counts 1 0 == 1) = true ∧
    after (exec (.barrierTimeout 9) { bar.setFld (F.CST_BAR_CFG_TIMEOUT_US 9) 1 with cst := { bars := [(9, { counts := [(1, 1)] })] } })
      (fun u => (u.bar 9).gen == 1 && (u.bar 9).counts == []) = true ∧
    after (exec (.mailboxBroadcast secure 0x32) (s.setReg R.CST_BCAST_DATA 99)) (fun u => u.reg (R.CST_MAILBOX 3) == 99) = true ∧
    after (exec (.mailboxReceive 1 15 99) s) (fun u => u.reg (R.CST_MAILBOX 15) == 99 && bits (u.reg R.CST_MAILBOX_SRC) 30 2 == 1) = true ∧
    after (exec (.resetRequestSend secure 0x11) s) (fun u => u.out.length == 1) = true ∧
    after (exec (.resetRequestReceive 1) s) (fun u => u.reg R.CST_RESET_REFUSED == 1) = true ∧
    after (exec (.resetGrantWrite secure 0x10302) s) (fun u => u.fld F.CST_RESET_GRANT_GRANT == 2 && u.flag F.CST_RESET_GRANT_LOCK &&
      u.fld F.CST_RESET_GRANT_QUORUM == s.fld F.CST_RESET_GRANT_QUORUM) = true ∧
    after (exec (.resetGrantWrite secure 2) (fields s [(F.CST_RESET_GRANT_LOCK, 1)])) (fun u => u.fld F.CST_RESET_GRANT_GRANT == 0) = true ∧
    after (exec (.bcastAnswer 1 true) { s with cst := { go := [1], goStore := true } }) (fun u => u.cst.go == [] &&
      bit (u.reg R.CST_BCAST_STATUS) 5) = true := by
  decide +kernel

/-! ### Heads, Meridian, composer, Squall -/

/-- A picture of 64 by 64 with blanking 120 and 12, its frame store in bank 0 of the composer. -/
def timing : List (Nat × Nat) :=
  [(R.HEAD_HTIM_A 0, 64 + 40 * 2 ^ 16), (R.HEAD_HTIM_B 0, 40 + 40 * 2 ^ 16), (R.HEAD_VTIM_A 0, 64 + 4 * 2 ^ 16),
    (R.HEAD_VTIM_B 0, 4 + 4 * 2 ^ 16), (R.HEAD_FS 0, 192 * 2 ^ 16)]

/-- Head 0 and the composer are on; bank 0 is the composer's. -/
def head0 (l : List (Fld × Nat)) : State :=
  fields (holding (up [40, 112, 118]) ([(R.POOL_BANK_OWN 0, 0x19), (R.HEAD_DP_CFG 0, 0x88)] ++ timing)) l

/-- Head 0 scans with that picture and `x` besides. -/
def scan0 (x : HeadSt) (l : List (Fld × Nat)) : State :=
  { head0 ((F.HEAD_STATUS_SCANNING 0, 1) :: l) with heads := [(0, { x with act := timing.map (fun e => (e.1, BitVec.ofNat 64 e.2)) })] }

/-- Scan-out starts, is refused, goes on after ENABLE is cleared, and steps through a frame. -/
theorem witness_HeadScanOut :
    let s := head0 []
    s.commitErr { s.head 0 with act := s.shadow 0 } 0 true = 0 ∧
    after (exec (.headEnable secure 0 1) s) (fun u => u.scanning 0 && u.flag (F.HEAD_STATUS_IN_VBLANK 0) && u.hActive 0 == 64) = true ∧
    after (exec (.headEnable secure 0 1) (s.setReg (R.HEAD_HTIM_A 0) 0)) (fun u => !u.scanning 0 && u.fld (F.HEAD_STATUS_COMMIT_ERR 0) == 1) = true ∧
    after (exec (.headDisable secure 0 0) (scan0 {} [(F.HEAD_CTRL_ENABLE 0, 1)])) (fun u => u.scanning 0 &&
      !u.flag (F.HEAD_CTRL_ENABLE 0) && (u.head 0).stopping) = true ∧
    after (exec (.headDisable secure 0 0) (scan0 {} [(F.HEAD_CTRL_ENABLE 0, 1), (F.HEAD_STATUS_IN_VBLANK 0, 1)]))
      (fun u => !u.scanning 0) = true ∧
    after (exec (.commit secure 0 3) { scan0 {} [(F.HEAD_CTRL_ENABLE 0, 1)] with now := 5 }) (fun u =>
      u.flag (F.HEAD_CTRL_COMMIT 0) && (u.head 0).commitAt == 5) = true ∧
    after (exec (.commit secure 0 3) ((scan0 {} []).setReg (R.HEAD_FRAME 0) 9)) (fun u => u.reg (R.HEAD_FRAME 0) == 0) = true ∧
    after (exec (.commit secure 0 2) s) (fun u => (u.head 0).act == s.shadow 0 && !u.flag (F.HEAD_CTRL_COMMIT 0)) = true ∧
    after (exec (.frameStart 0) (scan0 { fetch := 64, frame := 7 } [(F.HEAD_STATUS_IN_VBLANK 0, 1)])) (fun u => u.reg (R.HEAD_FRAME 0) == 7 &&
      !u.flag (F.HEAD_STATUS_IN_VBLANK 0)) = true ∧
    after (exec (.vblankStart 0) (scan0 { fetch := 64 } [(F.HEAD_CTRL_ENABLE 0, 1)])) (fun u => u.flag (F.HEAD_STATUS_IN_VBLANK 0) &&
      (u.head 0).fetch == 0) = true ∧
    after (exec (.scanStop 0) (scan0 { fetch := 64, stopping := true } [])) (fun u => !u.scanning 0 && u.merState 0 == 0) = true ∧
    (scan0 { fetch := 63 } []).vActive 0 = 64 := by
  decide +kernel

/-- Training and its ends, an AUX request and its replies, and the plug. -/
theorem witness_DisplayLink :
    let pin (l : List (Fld × Nat)) := head0 ([(F.GPIO_PIN_CFG_FUNC 232, 7), (F.GPIO_BANK_CFG_PG 7, 1)] ++ l)
    let aux := head0 [(F.HEAD_AUX_CMD_GO 0, 1)]
    let trained (answers : List (List Byte)) (x : Training) (k : Nat) : Bool := after
      (exec (.trainEnd 0 answers) (scan0 { train := some x } [(F.HEAD_DP_CMD_TRAIN 0, 1)]))
      (fun u => u.fld (F.HEAD_DP_STATUS_TRAIN_STATE 0) == k && (u.head 0).train == none)
    after (exec (.train secure 0) (head0 [])) (fun u => u.fld (F.HEAD_DP_STATUS_TRAIN_STATE 0) == 1 && u.out.length == 5 &&
      (u.head 0).train == some {}) = true ∧
    trained [] {} 4 = true ∧ trained [] { eq := true } 5 = true ∧
    trained [[0x11, 0x11, 0, 0, 0, 0], [0x77, 0x77, 1, 0, 0, 0]] {} 3 = true ∧
    after (exec (.auxGo secure 0 0x90000001) (head0 [])) (fun u => u.out.map (·.args) == [[0, 9, 0, 1]]) = true ∧
    after (exec (.auxGo secure 0 0x90000001) (head0 [(F.HEAD_DP_CMD_TRAIN 0, 1)])) (fun u => u.flag (F.HEAD_DP_STATUS_AUX_BUSY 0)) = true ∧
    after (exec (.auxReply 0 0 3 [1, 2]) aux) (fun u => u.fld (F.HEAD_AUX_STATUS_RCOUNT 0) == 2 && u.fld (F.HEAD_AUX_STATUS_REPLY 0) == 3 &&
      (u.auxData 0).take 2 == [1, 2]) = true ∧
    after (exec (.auxReply 0 2 0 []) aux) (fun u => u.flag (F.HEAD_AUX_STATUS_TIMEOUT 0)) = true ∧
    (pin []).pinTo 232 7 = true ∧ (pin []).padSeen 232 = none ∧
    after (exec (.hpdPlug 0) (pin [])) (fun u => u.flag (F.HEAD_DP_STATUS_PLUGGED 0)) = true ∧
    after (exec (.hpdIrq 0) (pin [(F.HEAD_DP_STATUS_PLUGGED 0, 1)])) (fun u => u.flag (F.HEAD_DP_STATUS_IRQ_EVT 0)) = true ∧
    after (exec (.hpdUnplug 0) (pin [(F.HEAD_DP_STATUS_PLUGGED 0, 1)])) (fun u => u.flag (F.HEAD_DP_STATUS_UNPLUG_EVT 0)) = true ∧
    after (exec (.hpdUnplug 0) (head0 [(F.HEAD_DP_STATUS_PLUGGED 0, 1)])) (fun u => u.flag (F.HEAD_DP_STATUS_UNPLUG_EVT 0)) = true := by
  decide +kernel

/-- Head 0 runs the Meridian program `ws` of bank 0 with a group open. -/
def mer (ws : List Nat) : State :=
  (scan0 { prog := some 0, comp := true } [(F.HEAD_MER_STATUS_STATE 0, 1), (F.HEAD_MER_CTRL_ENABLE 0, 1)]).poke poolBase
    (ws.flatMap (toBytes 4))

/-- The outcome is the fault after U-06 of head `n`. -/
def stuck (o : Result) (n : Nat) : Bool :=
  match o with
  | .fault (.meridianUnpredictable m) => m == n
  | _ => false

/-- Each Meridian word at the start of a program. -/
theorem witness_MeridianProgram :
    let goes (o : Result) (pc st : Nat) : Bool := after o (fun u => (u.head 0).pc == pc && u.merState 0 == st)
    poolOpenB (mer [5]) ((mer [5]).engine 9 true) false 0 16384 = true ∧ (mer [5]).scanning 0 = true ∧ (mer [5]).merState 0 = 1 ∧
    goes (exec (.merWait 0) (mer [1 + 5 * 2 ^ 20])) 1 2 = true ∧ goes (exec (.merWait 0) (mer [1])) 1 1 = true ∧
    after (exec (.merMove 0) (mer [2 + 3 * 2 ^ 5 + 0xABCD * 2 ^ 16])) (fun u => u.reg (R.HEAD_PAL 0 3) == 0xABCD && (u.head 0).pc == 1) = true ∧
    after (exec (.merMoveb 0) (mer [3 + 3 * 2 ^ 5 + 2 ^ 24, 0x11, 0x22])) (fun u => u.reg (R.HEAD_PAL 0 3) == 0x11 &&
      u.reg (R.HEAD_PAL 0 4) == 0x22 && (u.head 0).pc == 3) = true ∧
    goes (exec (.merSkip 0) (mer [4, 5])) 2 1 = true ∧ goes (exec (.merSkip 0) (mer [4, 3 + 2 ^ 24])) 4 1 = true ∧
    goes (exec (.merJump 0) (mer [5 + 9 * 16])) 9 1 = true ∧ goes (exec (.merEvent 0) (mer [6 + 2 * 2 ^ 8])) 1 1 = true ∧
    goes (exec (.merSync 0) (mer [7 + 2 * 2 ^ 8])) 1 2 = true ∧ goes (exec (.merEnd 0) (mer [15])) 1 3 = true ∧
    after (exec (.merEnd 0) (mer [8])) (fun u => u.flag (F.HEAD_MER_STATUS_BADOP 0) && u.merState 0 == 3) = true ∧
    after (exec (.merEnd 0) (scan0 { prog := some 0, comp := true, pre := (0, [none]) } [(F.HEAD_MER_STATUS_STATE 0, 1)]))
      (fun u => u.flag (F.HEAD_MER_STATUS_FETCH_ERR 0) && u.merState 0 == 3) = true ∧
    goes (exec (.merWaitReached 0) (scan0 { target := some (3, 4), cLine := 3, cPix := 4 } [(F.HEAD_MER_STATUS_STATE 0, 2)])) 0 1 = true := by
  decide +kernel

/-- A frame boundary takes the selected program; a pulse ends a SYNC; a head after U-06 is stuck. -/
theorem test_meridian_start :
    after (exec (.meridianFrameStart 0) (scan0 { merNew := true } [(F.HEAD_MER_CTRL_ENABLE 0, 1), (F.HEAD_MER_CTRL_SEL 0, 1),
      (F.HEAD_MER_PROG_OFFSET 0 1, 2)])) (fun u => (u.head 0).prog == some 128 && u.merState 0 == 1) = true ∧
    after (exec (.merSyncPulse 0) (scan0 { sync := some 2, pulse := true, cLine := 3, cPix := 4 } [(F.HEAD_MER_STATUS_STATE 0, 2)]))
      (fun u => (u.head 0).stamp == (3, 4) && u.merState 0 == 1) = true ∧
    stuck (exec (.merWait 0) (scan0 { u06 := true } [])) 0 = true := by
  decide +kernel

/-- A line to compose, a complete one to store, and a late one. -/
theorem witness_ComposedLines :
    let px := List.replicate 64 (⟨1023, 0, 0⟩ : Px)
    let full := scan0 { comp := true, cPix := 64, buf := px } []
    let part := scan0 { comp := true, cPix := 62, ls := [0], buf := px.take 62 } []
    let cap : Capture := { addr := poolBase, pitch := 192, fmt := 0, tag := 9, frame := 0 }
    let held : Capture := { cap with queue := List.replicate 8 (0, []) }
    poolOpenB full (full.engine 9 true) true 0 192 = true ∧ full.now < full.cutOff 0 0 ∧
    (px.flatMap (fun p => (p.store 0).bytes 0)).length = 192 ∧
    after (exec (.lineCommit 0 0) (scan0 { comp := true, cPix := 64, buf := px, cap := some cap } []))
      (fun u => (u.head 0).cap.any (fun c => c.queue.length == 1)) = true ∧
    after (exec (.lineCommit 0 0) (scan0 { comp := true, cPix := 64, buf := px, cap := some held } [])) (fun u => (u.head 0).cap.any (fun c => c.dropped == 1)) = true ∧
    part.composeTurn 0 0 (max part.now (part.lineFrom 0 0)) = true ∧
    after (exec (.lineCommit 0 0) full) (fun u => (u.head 0).cLine == 1 && (u.head 0).buf == [] &&
      u.bytes (poolBase + 189) 3 == (px.flatMap (fun p => (p.store 0).bytes 0)).drop 189) = true ∧
    after (exec (.lineLate 0) (scan0 { comp := true } [])) (fun u => (u.head 0).lateTo == 1 && u.reg (R.CMP_LATE_LINES 0) == 1) = true ∧
    after (exec (.lineCompose 0) part)
      (fun u => (u.head 0).cPix == 64 && (u.head 0).buf.length == 64) = true := by
  decide +kernel

/-- FC_EN with a good and a bad set-up, an EMPTY tile, and a capture from its descriptor to its record. -/
theorem witness_FlattenAndWriteBack :
    let s := scan0 {} [(F.CMP_FC_CFG_FC_EN, 1)]
    let ring := holding (scan0 { wbNew := some true } []) [(R.CMP_WB_CFG 0, 0x1009851), (R.CMP_WB_BASE 0, poolBase + 0x1000), (R.CMP_WB_DB 0, 1)]
    let ring := (ring.poke (poolBase + 0x1000) (toBytes 8 poolBase)).poke (poolBase + 0x1008) (toBytes 4 192)
    after (exec (.fcEn secure 0x80010000) (head0 [])) (fun u => u.flag F.CMP_FC_CFG_FC_EN && u.fld F.CMP_FC_CFG_BANK_COUNT == 1) = true ∧
    after (exec (.fcEn secure 0x80020000) (head0 [])) (fun u => !u.flag F.CMP_FC_CFG_FC_EN && u.flag F.CMP_FC_STATUS_CFG_ERR) = true ∧
    after (exec (.fcEn secure 0) s) (fun u => !u.flag F.CMP_FC_CFG_FC_EN) = true ∧
    s.flatCands = [0] ∧ (s.head 0).staticOn 0 = false ∧ (List.range 6).all (fun m => decide (s.lineDue m s.now = none)) = true ∧
    after (exec (.wbCaptureStart 0) (scan0 { wbNew := some false } [])) (fun u => u.reg (R.CMP_WB_SKIP 0) == 1) = true ∧
    after (exec .flattenTile s) (fun u => AMap.get (u.head 0).tiles 0 0 == 1) = true ∧
    ring.ringReady (.wb 0) = true ∧ poolOpenB ring (ring.ringReq (.wb 0)) false 0x1000 32 = true ∧
    after (exec (.wbCaptureStart 0) ring) (fun u => (u.head 0).cap.any (fun c => c.addr == poolBase && c.pitch == 192)) = true ∧
    after (exec (.wbComplete 0) (scan0 { cFrame := 2, cap := some { addr := 0, pitch := 0, fmt := 0, tag := 9, frame := 1 } } []))
      (fun u => (u.head 0).cap == none && u.lull.offers.map (fun r => (r.status, r.w1, r.w2)) == [(0, 9, 1)]) = true := by
  decide +kernel

/-- A fixed region that agrees and one that does not, LEARN, and the alarm check. -/
theorem witness_StarfixChecks :
    let act (e : Nat) := timing ++ [(R.HEAD_AL_CFG 0, 1), (R.HEAD_SF_WIN_X 0 2, 64 * 2 ^ 16), (R.HEAD_SF_WIN_Y 0 2, 64 * 2 ^ 16),
      (R.HEAD_SF_CFG 0 2, 1), (R.HEAD_SF_EXPECT 0 2, e)]
    let x (e : Nat) : HeadSt := { fetch := 64, crc := [(2, 0xFFFFFFFF - 0x1234)], act := (act e).map (fun p => (p.1, BitVec.ofNat 64 p.2)) }
    let sf (e : Nat) : State := { scan0 {} [] with heads := [(0, x e)] }
    let learning := (sf 0).setFld (F.HEAD_SF_LEARN_LEARN 0) 4
    ((sf 0).head 0).sfOn 0 2 = true ∧ (sf 0).sfLearns 0 2 = false ∧ ((sf 0).head 0).sfMode 0 2 = 1 ∧
    after (exec (.regionCheck 0 2) (sf 0x1234)) (fun u => u.reg (R.HEAD_SF_CRC 0 2) == 0x1234 && u.reg (R.HEAD_SF_STATUS 0) == 0) = true ∧
    after (exec (.regionCheck 0 2) (sf 0x1235)) (fun u => u.fld (F.HEAD_SF_STATUS_MISMATCH 0) == 4 && u.reg (R.HEAD_SF_EVENT_COUNT 0) == 1) = true ∧
    (learning.sfLearns 0 2) = true ∧ after (exec (.regionCheck 0 2) learning) (fun u => u.reg (R.HEAD_SF_EXPECT 0 2) == 0x1234) = true ∧
    after (exec (.learn secure 0 0x8001) (head0 [])) (fun u => u.fld (F.HEAD_SF_LEARN_LEARN 0) == 0x8001) = true ∧
    after (exec (.alarmCheck 0) (sf 0)) (fun u => u.flag (F.HEAD_SF_AL_STATUS_AL_CHECKED 0) && !u.flag (F.HEAD_SF_AL_STATUS_AL_MISMATCH 0)) = true ∧
    after (exec (.alarmCheck 0) { sf 0 with heads := [(0, { x 0 with late := [3] })] })
      (fun u => u.flag (F.HEAD_SF_AL_STATUS_AL_STALE 0)) = true := by
  decide +kernel

/-- A command of Squall: two pixels from 0x200 to 0x100 of bank 0. -/
def sqlBytesOf (op df sf colour : Nat) : List Byte :=
  [BitVec.ofNat 8 op, 0, BitVec.ofNat 8 df, BitVec.ofNat 8 sf] ++ toBytes 2 2 ++ toBytes 2 1 ++ toBytes 8 (poolBase + 0x100) ++ toBytes 4 64 ++
    toBytes 4 64 ++ toBytes 8 0 ++ toBytes 8 (poolBase + 0x200) ++ toBytes 4 64 ++ toBytes 4 64 ++ toBytes 4 0 ++ toBytes 4 colour ++
    toBytes 4 0 ++ toBytes 4 255

/-- Ring 1 of Squall runs a list whose command is `c`, with `src` at the source. -/
def sql1 (c src : List Byte) : State :=
  { ((holding (up [40, 119]) [(R.POOL_BANK_OWN 0, 0), (R.SQL_RING_CFG 1, 0x51), (R.SQL_RING_DB 1, 1), (R.SQL_RING_BASE 1, poolBase + 0x1000)]).poke
    poolBase c).poke (poolBase + 0x200) src with sql := { lists := [(1, some { addr := poolBase, count := 1, tag := 9 })] } }

/-- Each command of Squall. -/
theorem witness_BlockEngine :
    let draws (o : Result) (l : List Byte) : Bool := after o (fun u => u.bytes (poolBase + 0x100) l.length == l &&
      u.sqlList 1 == some { addr := poolBase, count := 1, tag := 9, next := 1, code := some 0 })
    let s := sql1 (sqlBytesOf 1 2 2 0) (toBytes 8 0x1122334455667788)
    let q := s.ringReq (.sql 1)
    s.sqlTurn = some 1 ∧ poolOpenB s q false 0 64 = true ∧ poolOpenB s q true 0x100 8 = true ∧ poolOpenB s q false 0x200 8 = true ∧
    (sqlCmd (sqlBytesOf 1 2 2 0)).bad = false ∧ (sqlCmd (sqlBytesOf 1 2 2 0)).crosses = false ∧
    draws (exec .sqlCopy s) (toBytes 8 0x1122334455667788) = true ∧
    draws (exec .sqlFill (sql1 (sqlBytesOf 2 0 0 0x55) [])) [0x55, 0x55, 0] = true ∧
    draws (exec .sqlBlend (sql1 (sqlBytesOf 3 2 2 0) (toBytes 8 0xFFFFFFFFFFFFFFFF))) (toBytes 8 0xFFFFFFFFFFFFFFFF) = true ∧
    draws (exec .sqlExpand (sql1 (sqlBytesOf 4 0 4 0x66) [0x80])) [0x66, 0] = true ∧
    draws (exec .sqlConvert (sql1 (sqlBytesOf 5 1 2 0) (toBytes 8 0xFFFF0000FFFF0000))) [0x00, 0xFC, 0x00, 0xFC] = true ∧
    draws (exec .sqlNop (sql1 (sqlBytesOf 0 0 0 0) [])) [0] = true := by
  decide +kernel

/-- A list starts from its descriptor, ends with its record, and is cancelled. -/
theorem test_squall_lists :
    let s := sql1 [] []
    let fresh := { (s.poke (poolBase + 0x1000) (toBytes 8 poolBase)).poke (poolBase + 0x1008) [1, 0, 0, 0, 9] with sql := {} }
    after (exec .squallListStart fresh) (fun u => u.sqlList 1 == some { addr := poolBase, count := 1, tag := 9 }) = true ∧
    after (exec .squallListStart { fresh.poke (poolBase + 0x1008) [0] with sql := {} }) (fun u => (u.sqlList 1).any (fun l => l.code == some 5)) = true ∧
    after (exec .squallListEnd { s with sql := { lists := [(1, some { addr := poolBase, count := 1, tag := 9, next := 1, code := some 0 })] } })
      (fun u => u.sqlList 1 == none && u.lull.offers.map (fun r => (r.status, r.w1, r.w2)) == [(0, 9, 0x10001)]) = true ∧
    s.ringHeld (.sql 1) = 1 ∧ s.heldCount (.sql 1) = 0 ∧
    after (exec (.squallCancel (core0 false) 1 0x55) s) (fun u => u.lull.offers.map (fun r => (r.status, r.w1)) == [(4, 9)]) = true := by
  decide +kernel

/-! ### Gust, Breeze, Lull -/

/-- Gust engine 0 runs with state `x`; PC 0 holds `w`. -/
def gst1 (w : Nat) (x : GstEng) : State :=
  { holding (up [40, 125]) [(R.GST_PROG 0 0, w), (R.GST_ENG_CTRL 0, 1), (R.GST_ENG_DIV 0, 0x100), (R.GST_ENG_PC 0, 63 * 2 ^ 16),
      (R.POOL_BANK_OWN 0, 0)] with gst := [(0, x)] }

/-- What `GstIssues` and `gstLegal` ask of `gst1`. -/
def issues (w : Nat) (x : GstEng) : Bool :=
  let s := gst1 w x
  s.gstRuns 0 && !s.gstBeyond 0 && gstLegal w && (s.gstAdvance 0).gstWord 0 == w && x.word == none && x.delay == 0 && (x.done || x.taken == none)

/-- Engine 0 after `c` on `gst1 w x` passes `p`. -/
def gstDoes (c : State → Result) (w : Nat) (x : GstEng) (p : GstEng → Bool) : Bool :=
  issues w x && after (c (gst1 w x)) (fun u => p (u.eng 0))

/-- DRIVE and each way of SHIFT. -/
theorem witness_GustPinInstructions :
    let shift (w : Nat) := gstDoes (exec (.gstShift 0)) (2 ^ 28 + w)
    issues (2 ^ 29 + 0x305) {} = true ∧
    after (exec (.gstDrive 0) (gst1 (2 ^ 29 + 3 * 2 ^ 8 + 5) {})) (fun u => u.reg (R.GST_ENG_OUTV 0) == 5) = true ∧
    after (exec (.gstDrive 0) (gst1 (2 ^ 29 + 2 ^ 18 + 2 ^ 13 + 3 * 2 ^ 8 + 5) {})) (fun u => u.reg (R.GST_ENG_OUTE 0) == 10) = true ∧
    shift (2 ^ 18 + 4) { sa := 0x25, ca := 8 } (fun x => x.done && x.sa == 2 && x.ca == 4) = true ∧
    shift (2 ^ 18 + 2 ^ 17 + 2 ^ 14 + 4) { sa := 0x95, ca := 8 } (fun x => x.done && x.ca == 4) = true ∧
    after (exec (.gstShift 0) (gst1 (2 ^ 28 + 2 ^ 18 + 2 ^ 17 + 2 ^ 14 + 4) { sa := 0x95, ca := 8 })) (fun u => u.reg (R.GST_ENG_X 0) == 9) = true ∧
    shift (2 ^ 14 + 4) { sa := 1, ca := 2 } (fun x => x.done && x.sa == 1 && x.ca == 6) = true ∧
    after (exec (.gstShift 0) ((gst1 (2 ^ 28 + 2 ^ 18 + 4) {}).setFld (F.GST_ENG_CFG_LINK_A 0) 1)) (fun u => !(u.eng 0).done) = true ∧
    after (exec (.gstShift 0) ((gst1 (2 ^ 28 + 2 ^ 18 + 4) { txf := [0x17] }).setFld (F.GST_ENG_CFG_LINK_A 0) 1))
      (fun u => (u.eng 0).sa == 1 && (u.eng 0).txf == []) = true ∧
    after (exec (.gstShift 0) ((gst1 (2 ^ 28) {}).setFld (F.GST_ENG_CFG_LINK_A 0) 2)) (fun u => (u.eng 0).rxf == [0]) = true ∧
    after (exec (.gstShift 0) ((gst1 (2 ^ 28) { rxf := [1, 2, 3, 4, 5, 6, 7, 8] }).setFld (F.GST_ENG_CFG_LINK_A 0) 2))
      (fun u => !(u.eng 0).done) = true := by
  decide +kernel

/-- The step's ways: a delay, an illegal word, each instruction of flow, the end of a stall. -/
theorem witness_GustFlow :
    let stall := gst1 (3 * 2 ^ 28) { word := some (3 * 2 ^ 28) }
    after (exec (.gstStep 0) (gst1 0 { delay := 3 })) (fun u => (u.eng 0).delay == 2 && (u.eng 0).next == 1) = true ∧
    gstLegal 0 = false ∧
    after (exec (.gstIllegal 0) (gst1 0 {})) (fun u => u.fld (F.GST_ENG_STATUS_STATE 0) == 4 && u.flag (F.GST_ENG_STATUS_ILLEGAL 0) &&
      !u.flag (F.GST_ENG_CTRL_ENABLE 0)) = true ∧
    gstDoes (exec (.gstAwait 0)) (3 * 2 ^ 28) {} (fun x => x.done) = true ∧
    gstDoes (exec (.gstAwait 0)) (3 * 2 ^ 28 + 2 ^ 17) {} (fun x => !x.done) = true ∧
    gstDoes (exec (.gstAwait 0)) (3 * 2 ^ 28 + 2 ^ 18) {} (fun x => x.done) = true ∧
    gstDoes (exec (.gstBranch 0)) (4 * 2 ^ 28 + 9) {} (fun x => x.taken == some 9) = true ∧
    gstDoes (exec (.gstBranch 0)) (4 * 2 ^ 28 + 2 * 2 ^ 15 + 9) {} (fun x => x.done && x.taken == none) = true ∧
    issues (5 * 2 ^ 28 + 77) {} = true ∧
    after (exec (.gstCount 0) (gst1 (5 * 2 ^ 28 + 77) {})) (fun u => u.reg (R.GST_ENG_X 0) == 77) = true ∧
    issues (7 * 2 ^ 28 + 5) {} = true ∧
    after (exec (.gstSignal 0) ((gst1 (7 * 2 ^ 28 + 5) {}).setFld (F.BRZ_CH_OWN_OWNER 5) 14)) (fun u => (u.ch 5).due == [2]) = true ∧
    after (exec (.gstSignal 0) ((gst1 (7 * 2 ^ 28 + 5) {}).setFld (F.BRZ_CH_OWN_OWNER 5) 3)) (fun u => u.fld (cnt32 R.BRZ_VIOL_COUNT) == 1) = true ∧
    stall.gstIn 0 0 = false ∧
    after (exec (.gstStallComplete 0) stall) (fun u => (u.eng 0).done && (u.eng 0).word == none) = true ∧
    ((gst1 0 { done := true, taken := some 9 }).gstAdvance 0).fld (F.GST_ENG_STATUS_PC 0) = 9 ∧
    ((gst1 0 { done := true }).gstAdvance 0).fld (F.GST_ENG_STATUS_PC 0) = 1 := by
  decide +kernel

/-- XFER each way, STAMP and CHECK. -/
theorem witness_GustTransfers :
    let full := [1, 2, 3, 4, 5, 6, 7, 8]
    let xfer (w : Nat) := gstDoes (exec (.gstXfer 0)) (6 * 2 ^ 28 + w)
    xfer (2 ^ 18 + 2 ^ 17) { txf := [7] } (fun x => x.sa == 7 && x.ca == 32 && x.txf == []) = true ∧
    xfer (2 ^ 18 + 2 ^ 17) {} (fun x => !x.done) = true ∧ xfer (2 ^ 18) {} (fun x => x.done && x.ca == 0) = true ∧
    xfer (2 ^ 18 + 2 ^ 16) { ca := 3, txf := [7] } (fun x => x.done && x.ca == 3 && x.txf == [7]) = true ∧
    xfer 0 { sa := 9, ca := 2 } (fun x => x.rxf == [9] && x.ca == 0) = true ∧
    xfer (2 ^ 17) { rxf := full } (fun x => !x.done) = true ∧
    after (exec (.gstXfer 0) (gst1 (6 * 2 ^ 28) { rxf := full })) (fun u => u.flag (F.GST_ENG_STATUS_RX_DROP 0)) = true ∧
    after (exec (.gstXfer 0) (gst1 (6 * 2 ^ 28 + 2 ^ 18 + 2 * 2 ^ 14) { txf := [7] })) (fun u => u.reg (R.GST_ENG_X 0) == 7) = true ∧
    gstDoes (exec (.gstStamp 0)) (2 ^ 31) {} (fun x => x.stamp == some 0) = true ∧
    gstDoes (exec (.gstStamp 0)) (2 ^ 31 + 2 ^ 18) {} (fun x => x.rxf == [0]) = true ∧
    gstDoes (exec (.gstStamp 0)) (2 ^ 31 + 2 ^ 18) { rxf := full } (fun x => !x.done) = true ∧
    gstDoes (exec (.gstCheck 0)) (9 * 2 ^ 28) { sb := 5, cb := 3 } (fun x => x.rxf.take 3 == [5, 0, 0] && x.cb == 0) = true ∧
    gstDoes (exec (.gstCheck 0)) (9 * 2 ^ 28 + 2 ^ 16) { crc := 0 } (fun x => x.rxf.length == 4) = true ∧
    gstDoes (exec (.gstCheck 0)) (9 * 2 ^ 28) { rxf := [1, 2, 3, 4, 5] } (fun x => !x.done) = true ∧
    after (exec (.gstCheck 0) (gst1 (9 * 2 ^ 28 + 2 ^ 16) {})) (fun u => u.flag (F.GST_ENG_STATUS_LINE_ERR 0) &&
      u.fld (cnt32 (R.GST_ENG_ERRCNT 0)) == 1) = true := by
  decide +kernel

/-- Each register command of Gust, on an engine that runs and on one that does not. -/
theorem witness_GustRegisters :
    let off := { holding (up [125]) [(R.GST_GROUP_OWN 0, 0)] with gst := [(0, { txf := [1], rxf := [2, 3], k := 9 })] }
    let on := off.setFld (F.GST_ENG_CTRL_ENABLE 0) 1
    let q := core0 false
    off.gstAdmits q 0 = true ∧ off.gstOn 0 = true ∧
    after (exec (.gstEnable q 0 1) off) (fun u => u.flag (F.GST_ENG_CTRL_ENABLE 0) && (u.eng 0).k == 0) = true ∧
    after (exec (.gstEnable q 0 0) on) (fun u => !u.flag (F.GST_ENG_CTRL_ENABLE 0)) = true ∧
    after (exec (.gstRestart q 0 2) (off.setReg (R.GST_ENG_X 0) 5)) (fun u => u.reg (R.GST_ENG_X 0) == 0 && (u.eng 0).k == 9) = true ∧
    after (exec (.gstRestart q 0 3) on) (fun u => u.flag (F.GST_ENG_CTRL_RESTART 0)) = true ∧
    after (exec (.fifoClr q 0 4) off) (fun u => (u.eng 0).txf == [] && (u.eng 0).rxf == []) = true ∧
    after (exec (.divRestart q 0 8) off) (fun u => u.flag (F.GST_ENG_CTRL_DIV_RESTART 0)) = true ∧
    after (exec (.gstTxfWrite q 0 [5, 6]) off) (fun u => (u.eng 0).txf == [1, 5, 6]) = true ∧
    after (exec (.gstTxfWrite q 0 [5]) { off with gst := [(0, { txf := [1, 2, 3, 4, 5, 6, 7, 8] })] })
      (fun u => u.flag (F.GST_ENG_STATUS_TX_OVER 0)) = true ∧
    after (exec (.gstRxfRead q 0 2) off) (fun u => u.resp.data == toBytes 4 2 ++ toBytes 4 3 && (u.eng 0).rxf == []) = true ∧
    after (exec (.gstRxfRead q 0 1) { off with gst := [] }) (fun u => u.flag (F.GST_ENG_STATUS_RX_UNDER 0)) = true ∧
    after (exec (.gstProgWrite q 0 3 0x20000000) off) (fun u => u.reg (R.GST_PROG 0 3) == 0x20000000) = true ∧
    after (exec (.gstProgWrite ⟨8, false⟩ 0 3 0) off) (fun u => u.resp.status == .refused) = true ∧
    after (exec (.gstProgWrite q 15 3 7) (off.setReg (R.GST_GROUP_OWN 15) 0)) (fun u => u.reg (R.GST_PROG 15 3) == 0) = true ∧
    after (exec (.gstStart q 1) off) (fun u => u.resp.status == .ok && u.flag (F.GST_ENG_CTRL_ENABLE 0)) = true ∧
    after (exec (.gstStart ⟨8, false⟩ 1) off) (fun u => u.resp.status == .refused) = true ∧
    after (exec (.gstStop q 1) on) (fun u => !u.flag (F.GST_ENG_CTRL_ENABLE 0)) = true := by
  decide +kernel

/-! ### Pins, channels, timers, queues -/

/-- Masked writes, set-up, lock, detector and supply of pin 5. -/
theorem witness_Pins :
    let s := holding { State.reset with held := false } [(R.GPIO_PIN_OWN 4, 3), (R.GPIO_PIN_OWN 5, 0)]
    let q := core0 false
    let pull (k : Nat) : Bool := (fields s [(F.GPIO_PIN_CFG_PULL 5, k), (F.GPIO_BANK_CFG_PG 0, 1)]).padInput 5 none
    s.pinAdmits q 5 = true ∧ s.pinAdmits q 4 = false ∧ carries 5 3 = true ∧ carries 5 4 = false ∧
    after (exec (.gpioOutWrite q 0 0x00200020) s) (fun u => u.reg (R.GPIO_OUT_LO 0) == 0x20 && u.resp.status == .ok) = true ∧
    after (exec (.gpioOutWrite q 0 0x00300030) s) (fun u => u.reg (R.GPIO_OUT_LO 0) == 0x20 && u.resp.status == .refused) = true ∧
    after (exec (.gpioOutWrite q 16 0x00200020) s) (fun u => u.reg (R.GPIO_OE_LO 0) == 0x20) = true ∧
    after (exec (.pinCfgWrite q 5 0x343) s) (fun u => u.pinFunc 5 == 3 && u.fld (F.GPIO_PIN_CFG_DRIVE 5) == 3) = true ∧
    after (exec (.pinCfgWrite q 5 4) s) (fun u => u.pinFunc 5 == 0 && u.flag F.GPIO_STATUS_FUNC_ERR) = true ∧
    after (exec (.pinCfgWrite q 5 3) (s.setFld (F.GPIO_PIN_LOCK_LOCKED 5) 1)) (fun u => u.flag F.GPIO_STATUS_LOCK_WR) = true ∧
    after (exec (.pinLock q 5 0xC3A5) s) (fun u => u.pins.armed == [5]) = true ∧
    after (exec (.pinLock q 5 0x5A3C) { s with pins := { s.pins with armed := [5] } }) (fun u => u.flag (F.GPIO_PIN_LOCK_LOCKED 5) &&
      u.pins.armed == []) = true ∧
    after (exec (.pinDetect 5 (some true)) (fields s [(F.GPIO_PIN_INT_MODE 5, 1), (F.GPIO_BANK_CFG_PG 0, 1)])) (fun u =>
      u.pinIn 5 && u.reg (R.GPIO_INT_STAT 0) == 0x20) = true ∧
    pull 1 = true ∧ pull 2 = false ∧ pull 3 = false ∧
    (fields s [(F.GPIO_PIN_CFG_PULL 5, 0), (F.GPIO_BANK_CFG_PG 0, 1)]).padFloats 5 none = true ∧
    after (exec (.vddioChange 0 false) (fields s [(F.GPIO_BANK_CFG_PG 0, 1), (⟨R.GPIO_IN 0, 5, 1⟩, 1)])) (fun u => !u.pinIn 5) = true := by
  decide +kernel

/-- An event that passes, one held, a pulse, a held pulse, direct fires and task inputs of channel 5. -/
theorem witness_BreezeChannels :
    let s := holding { State.reset with held := false, fired := [(0x388, 5), (0x388, 5)] } [(R.BRZ_CH_CFG 5, 0x388), (R.BRZ_CH_OWN 5, 0),
      (R.BRZ_TASK 0, 0x8005), (R.BRZ_TASK_CTL 0, 0)]
    let q := core0 false
    let with_ (x : BrzCh) : State := { s with brz := [(5, x)] }
    s.srcBarred 5 0x388 = false ∧ s.gateOpen 5 = true ∧ s.mayFire q 5 = true ∧ s.mayFire ⟨8, false⟩ 5 = false ∧ s.tasksOf 5 = [0] ∧
    after (exec (.sourceEvent 5 0x388) s) (fun u => (u.ch 5).due == [2] && u.fired == [(0x388, 5)]) = true ∧
    after (exec (.sourceEvent 5 0x388) (with_ { at_ := some 0, srcs := [0x300], went := true }))
      (fun u => u.flag (F.BRZ_CH_STATUS_COINCIDENT 5)) = true ∧
    after (exec (.sourceEvent 5 0x388) (with_ { at_ := some 0, srcs := [0x388], went := true })) (fun u => u.regs == s.regs) = true ∧
    after (exec (.sourceEvent 5 0x388) (with_ { last := some 2 })) (fun u => u.flag (F.BRZ_CH_STATUS_HELD 5)) = true ∧
    after (exec (.sourceEvent 5 0x388) (s.setFld (F.BRZ_CH_STATUS_HELD 5) 1)) (fun u => u.flag (F.BRZ_CH_STATUS_COINCIDENT 5)) = true ∧
    after (exec (.channelPulse 5) (with_ { due := [7], last := some 7 })) (fun u => u.now == 7 && u.hops == [(9, 5)] &&
      u.fld (F.BRZ_CH_STATUS_COUNT 5) == 1) = true ∧
    after (exec (.heldEmit 5) ((with_ { last := some 9 }).setFld (F.BRZ_CH_STATUS_HELD 5) 1)) (fun u => u.now == 10 &&
      !u.flag (F.BRZ_CH_STATUS_HELD 5)) = true ∧
    after (exec (.brzFire q 5 0xFFFFFF) s) (fun u => (u.ch 5).due == [2] && u.fired.length == 2) = true ∧
    after (exec (.brzFire ⟨8, false⟩ 5 0) s) (fun u => u.resp.status == .refused && u.fld (cnt32 R.BRZ_VIOL_COUNT) == 1) = true ∧
    (({ s with hops := [(3, 5)] }).taskAwait 0).now = 3 ∧ (({ s with hops := [(3, 5)] }).taskAwait 0).tasks = [(0, 3)] ∧
    after (exec (.taskInputEvent 0 0) { s with tasks := [(0, 0)] }) (fun u => u.flag (F.TIM_STATUS_COUNTING 0) && u.tasks == []) = true ∧
    after (exec (.taskInputEvent 0 0) { s.setFld (F.TIM_STATUS_COUNTING 0) 1 with tasks := [(0, 0)] })
      (fun u => u.flag (F.BRZ_TASK_CTL_OVERRUN 0)) = true := by
  decide +kernel

/-- Timer 0: ARM, STOP, CAPTURE, a tick with a match and one at the period; SET in its three cases. -/
theorem witness_Timers :
    let s := holding { State.reset with held := false } [(R.TIM_OWN 0, 0), (R.TIM_CFG 0, 3 * 2 ^ 16), (R.TIM_COUNT 0, 7), (R.TIM_MATCH 0, 8),
      (R.TIM_PERIOD 0, 9)]
    let counting := s.setFld (F.TIM_STATUS_COUNTING 0) 1
    let q := core0 false
    let due := { counting.setReg (R.TIM_COUNT 0) 8 with tim := [(0, { presc := 3, next := 6 })], now := 6 }
    s.admits q 0 false = true ∧ s.timUpper 0 = false ∧ s.alone = true ∧ s.timDue 0 = false ∧
    due.timDue 0 = true ∧ due.timLast 0 (due.timNextCount 0) = true ∧
    after (exec (.timArm q 0 1) due) (fun u => u.reg (R.TIM_COUNT 0) == 0 && u.flag (F.TIM_STATUS_TERMINATED 0) &&
      u.flag (F.TIM_STATUS_COUNTING 0)) = true ∧
    after (exec (.timCapture q 0 4) due) (fun u => u.reg (R.TIM_CAPT 0) == 9) = true ∧
    after (exec (.timArm q 0 1) s) (fun u => u.reg (R.TIM_COUNT 0) == 0 && u.flag (F.TIM_STATUS_COUNTING 0) &&
      (AMap.get u.tim 0 {}).next == 4) = true ∧
    after (exec (.timStop q 0 2) counting) (fun u => !u.flag (F.TIM_STATUS_COUNTING 0)) = true ∧
    after (exec (.timCapture q 0 4) s) (fun u => u.reg (R.TIM_CAPT 0) == 7) = true ∧
    after (exec (.timTick 0) counting) (fun u => u.reg (R.TIM_COUNT 0) == 8 && u.flag (F.TIM_STATUS_MATCHED 0) &&
      u.flag (F.TIM_STATUS_COUNTING 0)) = true ∧
    after (exec (.timTick 0) (counting.setReg (R.TIM_COUNT 0) 8)) (fun u => u.flag (F.TIM_STATUS_TERMINATED 0) &&
      !u.flag (F.TIM_STATUS_COUNTING 0)) = true ∧
    after (exec (.set (core0 true)) (holding s [(R.SYS_TIME_SET_LO, 5), (R.SYS_TIME_SET_HI, 1)])) (fun u => u.stc == 2 ^ 32 + 5) = true ∧
    after (exec (.set (core0 true)) (s.setFld F.CST_GROUP_STATUS_STATE 1)) (fun u => u.stc == 0) = true ∧
    after (exec (.set (core0 false)) s) (fun u => u.resp.status == .refused) = true := by
  decide +kernel

/-- Queue 3: 16 entries at the start of bank 0, enabled, core cluster 0's, with `x` beside its registers. -/
def queue3 (x : LQueue) (l : List LRec) (f : List (Fld × Nat)) : State :=
  let s := fields (holding (up [40]) [(R.POOL_BANK_OWN 0, 0), (R.LUL_Q_BASE 3, poolBase), (R.LUL_Q_CFG 3, 0x1000040)]) f
  { s with lull := { s.lull with q := [(3, x)], offers := l } }

/-- An offer taken and one turned away, a record written, a write repeated, an event map entry. -/
theorem witness_LullQueues :
    let r (o : Nat) : LRec := ⟨1, 2, 3, 4, 5, 6, 7, none, 3, o, false⟩
    let s := queue3 { items := [.record (r 0)] } [] []
    let bad := queue3 { failed := some (1, 2, 3, 4) } [] [(F.LUL_Q_STATUS_HALTED 3, 1)]
    poolOpenB s (s.engine 0 false) true 0 16 = true ∧ (core0 true).s = true ∧
    bad.admits (core0 true) 0 false = true ∧ bad.reg (R.LUL_Q_CFG 3) = 0x1000040 ∧
    after (exec (.lullCompletion 3 4) (queue3 {} [r 0] [])) (fun u => u.lull.offers == [] && (u.lq 3).items == [.record (r 0)]) = true ∧
    after (exec (.lullCompletion 3 4) (queue3 {} [r 5] [])) (fun u => u.lull.offers == [] && u.fld (cnt32 R.LUL_VIOL_COUNT) == 1) = true ∧
    after (exec (.lullRecordWrite 3) s) (fun u => u.bytes poolBase 16 == toBytes 4 0x92030004 ++ toBytes 4 5 ++ toBytes 4 6 ++ toBytes 4 7 &&
      u.fld (F.LUL_Q_PROD_PROD_IDX 3) == 1) = true ∧
    after (exec (.lulResume (core0 true) 3 0x1000040) bad) (fun u => u.num poolBase 4 == 0x80000001 && (u.lq 3).failed == none) = true ∧
    after (exec (.coalesceRelease 3) (queue3 { t := some 0 } [] [])) (fun u => u.flag (F.LUL_Q_STATUS_ASSERTED 3) &&
      bit (u.reg R.LUL_ASSERT) 3) = true ∧
    after (exec (.evtMapWrite (core0 true) 3 0x105) s) (fun u => u.flag (F.LUL_EVT_MAP_EN 3) && u.fld (F.LUL_EVT_MAP_QUEUE 3) == 5) = true ∧
    after (exec (.evtMapWrite (core0 false) 3 0x105) s) (fun u => u.resp.status == .refused) = true := by
  decide +kernel

/-- A consumer index up to PROD_IDX is taken, one beyond it is not. -/
theorem witness_ConsumerIndexWrites :
    let s := queue3 {} [] [(F.LUL_Q_PROD_PROD_IDX 3, 2), (F.LUL_Q_STATUS_ASSERTED 3, 1)]
    after (exec (.consIdxWrite (core0 false) 3 2) s) (fun u => u.fld (F.LUL_Q_CONS_CONS_IDX 3) == 2 && !u.flag (F.LUL_Q_STATUS_ASSERTED 3)) = true ∧
    after (exec (.consIdxWrite (core0 false) 3 3) s) (fun u => u.fld (F.LUL_Q_CONS_CONS_IDX 3) == 0 && u.flag (F.LUL_Q_STATUS_CONS_ERR 3)) = true := by
  decide +kernel

/-! ### Tradewind, Gale -/

/-- A descriptor of one element each way, with `control`. -/
def twdD (control : Nat) : TwdDesc := ⟨poolBase, poolBase + 0x40, 1, 1, control, 9⟩

/-- Channel 2 is `x`; bank 0 holds its descriptor at 0x1000, and elements of 8 bytes at 0x200 and 0x300. -/
def twd2 (x : TwdCh) (f : List (Fld × Nat)) : State :=
  let s := fields (holding (up [40]) [(R.POOL_BANK_OWN 0, 0), (R.TWD_CH_CFG 2, 0x41), (R.TWD_CH_DB 2, 1),
    (R.TWD_CH_BASE 2, poolBase + 0x1000)]) f
  let s := s.poke poolBase (toBytes 8 (poolBase + 0x200) ++ toBytes 4 8)
  let s := s.poke (poolBase + 0x40) (toBytes 8 (poolBase + 0x300) ++ toBytes 4 8)
  let s := s.poke (poolBase + 0x1000) (toBytes 8 poolBase ++ toBytes 8 (poolBase + 0x40) ++ toBytes 4 0x10001 ++ toBytes 4 0 ++ [9])
  { s.poke (poolBase + 0x200) (toBytes 8 0x1122334455667788) with twd := { s.twd with ch := [(2, x)] } }

/-- A start, a piece, a paced use, an end, a cancel, an error record, RESUME, ABORT and the clear. -/
theorem witness_Tradewind :
    let s := twd2 { desc := some (twdD 0) } []
    let me := s.ringReq (.twd 2)
    let q := core0 false
    let halt := (F.TWD_CH_STATUS_HALTED 2, 1)
    (s.twdNext == some 2) = true ∧ poolOpenB s me false 0x200 8 = true ∧ poolOpenB s me true 0x300 8 = true ∧
    s.admits q (s.fld (Ring.twd 2).owner) (s.flag (Ring.twd 2).attr) = true ∧
    s.slotAddr (.twd 2) 0 = poolBase + 0x1000 ∧ poolOpenB s me false 0x1000 32 = true ∧ s.holds (.twd 2) = false ∧
    (twdElem (s.bytes poolBase 16)).bad 0 = false ∧ (twdElem (s.bytes poolBase 16)).inRegs 0 = false ∧
    after (exec (.twdTransferStart 2) (twd2 {} [])) (fun u => (u.tw 2).desc == some (twdD 0) && u.flag (Ring.twd 2).busy && (u.tw 2).code == none) = true ∧
    after (exec (.twdTransferStart 2) ((twd2 {} []).poke (poolBase + 0x1010) [0])) (fun u => (u.tw 2).code == some 2) = true ∧
    after (exec (.twdPiece .ok [] .ok) s) (fun u => u.num (poolBase + 0x300) 8 == 0x1122334455667788 && (u.tw 2).code == some 0 &&
      (u.tw 2).counted == 8 && u.twd.last == 2) = true ∧
    after (exec (.twdPacedUse 2) (twd2 { desc := some (twdD 1) } [(F.TWD_CH_STATUS_TRIG_PEND 2, 1), (F.TWD_CH_STATUS_PACE_WAIT 2, 1)]))
      (fun u => (u.tw 2).pos.use && !u.flag (F.TWD_CH_STATUS_TRIG_PEND 2)) = true ∧
    after (exec (.twdComplete 2) (twd2 { desc := some (twdD 0), code := some 0, counted := 8 } [])) (fun u =>
      u.lull.offers.map (fun r => (r.kind, r.status, r.unit, r.index, r.w1, r.w2)) == [(1, 0, 5, 2, 9, 8)]) = true ∧
    after (exec (.twdCancel q 2 0x45) s) (fun u => (u.tw 2).code == some 4 && (u.ringSt (.twd 2)).cancelTo == some 1) = true ∧
    after (exec .twdErrorRecord { s with twd := { s.twd with halts := [(64, 1, 4)] } }) (fun u => u.lull.offers.map (·.w3) == [4]) = true ∧
    after (exec (.twdResume q 2) (twd2 {} [halt])) (fun u => !u.twdHalted 2) = true ∧
    after (exec (.twdAbort q 2) (twd2 { desc := some (twdD 0) } [halt, ((Ring.twd 2).busy, 1)])) (fun u => !u.twdHalted 2 && (u.tw 2).code == some 3) = true ∧
    after (exec (.twdErrCountClear q) (s.setReg R.TWD_ERR_ADDR 5)) (fun u => u.reg R.TWD_ERR_ADDR == 0) = true := by
  decide +kernel

/-- Gale is on, core cluster 0's, with `g` beside its registers; stream 1 is enabled. -/
def gal1 (g : Gale) (f : List (Fld × Nat)) : State :=
  { fields (holding (up [124]) [(R.GAL_OWN, 0), (R.GAL_CTRL, 1), (R.GAL_STR_CFG 1, 0x41), (R.GAL_TONE_INC_A 3, 7)]) f with gal := g }

/-- ENABLE, a frame, keys, crosspoints, sections, streams and a refused key. -/
theorem witness_GaleEngine :
    let q := core0 false
    let s := gal1 {} []
    let hold := gal1 {} [(F.GAL_CTRL_XP_HOLD, 1), (F.GAL_XP_TARGET 1 2, 9)]
    let buf : GalBuf := { addr := 0, frames := 8, tag := 5, first := 3, k := 8, code := some (1, 0, 0) }
    s.blockOn 0x18 = true ∧ s.admits q 0 false = true ∧ s.admits ⟨8, false⟩ 0 false = false ∧ s.domOn 124 = true ∧
    after (exec (.galEnable q 1) { gal1 {} [(F.GAL_CTRL_ENABLE, 0)] with now := 4 }) (fun u => u.flag F.GAL_CTRL_ENABLE && u.gal.t3 == 12) = true ∧
    after (exec (.keyOn q 3) s) (fun u => u.gal.keys == [⟨3, 0, 0⟩]) = true ∧
    after (exec (.keyOff q 3) s) (fun u => u.gal.keys == [⟨3, 1, 0⟩]) = true ∧
    after (exec (.keyOn ⟨8, false⟩ 3) s) (fun u => u.resp.status == .refused) = true ∧
    after (exec (.xpTargetWrite q 1 2 5) s) (fun u => (u.xpNode 66).endp == 5) = true ∧
    after (exec (.xpTargetWrite q 1 2 5) hold) (fun u => (u.xpNode 66).endp == 0 && u.fld (F.GAL_XP_TARGET 1 2) == 5) = true ∧
    after (exec (.xpHoldRelease q 1) hold) (fun u => (u.xpNode 66).endp == 9 && !u.flag F.GAL_CTRL_XP_HOLD) = true ∧
    after (exec (.bqCoefWrite q 4 3 5) (s.setFld (F.GAL_BQ_CTL_BYPASS 4) 0)) (fun u => (u.bq 4).free == 2 && u.reg (R.GAL_BQ_A1 4) == 5) = true ∧
    after (exec (.bqClear q 4 3) { s with gal := { bq := [(4, { x1 := 5, free := 1 })] } }) (fun u => u.bq 4 == { free := 1 }) = true ∧
    after (exec (.galBufferComplete 1) (gal1 { bufs := [(1, some buf)] } [])) (fun u => u.galBuf 1 == none &&
      u.lull.offers.map (fun r => (r.kind, r.unit, r.index, r.w1, r.w2, r.w3)) == [(1, 6, 1, 5, 3, 8)]) = true ∧
    after (exec (.galCancel q 1 0x45) (gal1 {} [(F.GAL_STR_DB_PROD_IDX 1, 1)])) (fun u => (u.ringSt (.gal 1)).cancelTo == some 1) = true := by
  decide +kernel

/-- A frame moves the phase of channel 3, a ramp of node 66 and the gap of stream 1. -/
theorem test_sample_frame :
    let xp : XpNode := { endp := 64, gt := 64, g0 := 0, k := 0 }
    after (exec (.sampleFrame [] 0) (gal1 { begun := true, xp := [(66, xp)] } [])) (fun u => u.gal.t3 == 31250 && u.reg R.GAL_FRAME == 1 &&
      (u.tone 3).phi == 7 && u.fld (F.GAL_XP_CURRENT 1 2) == 1 && u.fld (cnt32 (R.GAL_STR_GAP 1)) == 1) = true := by
  decide +kernel

/-! ### Ports -/

/-- CXL port 0 is on with a range at 1, 1 unit, in LINK_STATE `st`, MEM_EN `m`, and `l` outstanding. -/
def cxl0 (st m : Nat) (l : List Outst) : State :=
  { fields (holding (up [40, 141]) [(R.CXL_HDM 0, 0x10001)])
      [(F.CXL_STATUS_LINK_STATE 0, st), (F.CXL_CTRL_MEM_EN 0, m), (F.CXL_CTRL_LINK_EN 0, b2n (st != 0))] with outst := l }

/-- Training, MEM_EN, configuration and memory accesses, completions, a timeout and a lost link of port 0. -/
theorem witness_CxlPorts :
    let q := core0 true
    let rd : Outst := ⟨4, .read, q, cxlCfgBase + 0x100000, 4, [], .sender⟩
    let wr : Outst := ⟨4, .write, q, cxlBase + 0x10000000, 2, [7, 8], .sender⟩
    let mr : Outst := ⟨4, .read, q, cxlBase + 0x10000000, 2, [], .sender⟩
    let got (o : Result) (l : List Byte) : Bool := after o (fun u => u.outst == [] && u.resp == ⟨.ok, l⟩)
    (cxl0 0 0 []).blockOn 0x20 = true ∧ takeAt 4 0 [rd] = some (rd, []) ∧ (cxl0 2 1 []).cxlPort 0x10000000 = some 0 ∧
    (cxl0 2 1 []).cxlTaint = false ∧
    after (exec (.cxlLinkEn q 0 2) (cxl0 0 0 [])) (fun u => u.fld (F.CXL_STATUS_LINK_STATE 0) == 1) = true ∧
    after (exec (.cxlLinkUp 0 2) (cxl0 1 0 [])) (fun u => u.fld (F.CXL_STATUS_LINK_STATE 0) == 2 && u.fld (F.CXL_STATUS_WIDTH 0) == 2) = true ∧
    after (exec (.cxlLinkUp 0 0) (cxl0 1 0 [])) (fun u => u.fld (F.CXL_STATUS_LINK_STATE 0) == 3) = true ∧
    after (exec (.memEn q 0 6) (cxl0 2 0 [])) (fun u => u.flag (F.CXL_CTRL_MEM_EN 0)) = true ∧
    after (exec (.memEn q 0 6) ((cxl0 2 0 []).setFld (F.CXL_HDM_BASE 0) 4095)) (fun u => u.flag (F.CXL_CTRL_MEM_EN 0)) = true ∧
    after (exec (.memEn q 0 6) ((cxl0 2 0 []).setFld (F.CXL_HDM_SIZE 0) 0)) (fun u => u.flag (F.CXL_STATUS_CFG_ERR 0)) = true ∧
    after (exec (.cxlConfigAccess q .read 0 4 []) (cxl0 2 0 [])) (fun u => u.resp == ⟨.ok, [255, 255, 255, 255]⟩) = true ∧
    after (exec (.cxlConfigAccess q .read 0x100000 4 []) (cxl0 2 0 [])) (fun u => u.outst == [rd]) = true ∧
    after (exec (.cxlConfigAccess q .read 0x100000 4 []) (cxl0 0 0 [])) (fun u => u.resp.status == .error && u.fld (cnt32 (R.CXL_ERR_COUNT 0)) == 1) = true ∧
    after (exec (.cxlMemoryAccess q .write 0x10000000 2 [7, 8]) (cxl0 2 1 [])) (fun u => u.outst == [wr] && u.out.length == 1) = true ∧
    after (exec (.cxlMemoryAccess q .read 0 2 []) (cxl0 2 1 [])) (fun u => u.resp == ⟨.error, []⟩ && u.outst == []) = true ∧
    got (exec (.cxlCompletion 0 0 [1, 2, 3, 4] false) (cxl0 2 1 [rd])) [1, 2, 3, 4] = true ∧
    after (exec (.cxlCompletion 0 0 [] true) (cxl0 2 1 [rd])) (fun u => u.resp.status == .error && u.flag (F.CXL_STATUS_POISON 0)) = true ∧
    after (exec (.cxlCompletion 0 1 [] false) (cxl0 2 1 [wr, mr])) (fun u => u.outst == [wr, mr]) = true ∧
    got (exec (.cxlCompletion 0 0 [] false) (cxl0 2 1 [wr])) [] = true ∧
    after (exec (.cxlCompletion 0 0 [] false) (cxl0 2 1 [wr])) (fun u => u.bytes (cxlBase + 0x10000000) 2 == [7, 8]) = true ∧
    got (exec (.cxlCompletion 0 0 [] false) ((cxl0 2 1 [mr]).poke (cxlBase + 0x10000000) [5, 6])) [5, 6] = true ∧
    after (exec (.cxlCompletionTimeout 0 0) (cxl0 2 1 [rd])) (fun u => u.resp.status == .error && u.outst == []) = true ∧
    after (exec (.cxlLinkLost 0) (cxl0 2 1 [rd])) (fun u => u.fld (F.CXL_STATUS_LINK_STATE 0) == 0 && u.outst == [] &&
      u.fld (cnt32 (R.CXL_ERR_COUNT 0)) == 1) = true := by
  decide +kernel

/-- Atsobry port 1 is on and EN, in STATE `st` with `x` beside it and `l` outstanding; bank 0 grants position 1 all. -/
def ats1 (st : Nat) (x : AtsPort) (l : List Outst) : State :=
  { holding (up [40, 144]) [(R.ATS_CTRL 1, 0x501), (R.ATS_STATUS 1, st), (R.POOL_BANK_OWN 0, 0), (R.POOL_BANK_GRANT 0, 0xFF00)] with
    ports := { State.reset.ports with ats := [(1, x)] }, outst := l }

/-- Training, lanes, codewords, a lost link, and peer requests each way at port 1. -/
theorem witness_AtsobryAndPeers :
    let q := core0 true
    let four : AtsPort := { active := [0, 1, 2, 3], spare := some 4, budget := 5 }
    let o : Outst := ⟨1, .read, q, peerBase + 0x10000000, 4, [], .sender⟩
    let peer : Req := ⟨0x40, true⟩
    (ats1 2 four []).blockOn 0x25 = true ∧ (ats1 2 four []).atsUp 1 = true ∧ posOf peer = 1 ∧ (ats1 2 four []).pos = 0 ∧
    poolOpenB (ats1 2 four []) peer false 0 4 = true ∧ poolOpenB (ats1 2 four []) peer true 0 4 = true ∧
    takeAt 1 0 [o] = some (o, []) ∧
    after (exec (.atsEn q 1 0x501) ((ats1 0 {} []).setReg (R.ATS_CTRL 1) 0)) (fun u => u.fld (F.ATS_STATUS_STATE 1) == 1 && (u.atsPort 1).budget == 5) = true ∧
    after (exec (.retrain q 1 0x503) (ats1 2 four [])) (fun u => u.fld (F.ATS_STATUS_STATE 1) == 1 && u.flag (F.ATS_STATUS_LINK_LOST 1)) = true ∧
    after (exec (.retrain q 1 0x603) (ats1 1 {} [])) (fun u => (u.atsPort 1).budget == 6) = true ∧
    after (exec (.atsTrainDone 1 31) (ats1 1 {} [])) (fun u => (u.atsPort 1).active == [0, 1, 2, 3] && (u.atsPort 1).spare == some 4) = true ∧
    after (exec (.atsTrainDone 1 0x15) (ats1 1 {} [])) (fun u => u.fld (F.ATS_STATUS_STATE 1) == 2 && u.fld (F.ATS_STATUS_ACTIVE 1) == 1) = true ∧
    after (exec (.atsTrainDone 1 3) (ats1 1 {} [])) (fun u => u.fld (F.ATS_STATUS_STATE 1) == 1) = true ∧
    after (exec (.laneFail 1 4 none) (ats1 2 four [])) (fun u => (u.atsPort 1).spare == none) = true ∧
    after (exec (.laneFail 1 2 (some 5)) (ats1 2 four [])) (fun u => (u.atsPort 1).active == [0, 1, 4, 3]) = true ∧
    after (exec (.laneFail 1 2 (some 4)) (ats1 2 four [])) (fun u => (u.atsPort 1) == four) = true ∧
    after (exec (.laneFail 1 2 none) (ats1 2 { four with spare := none } [])) (fun u => (u.atsPort 1).active == [0, 1, 3]) = true ∧
    after (exec (.laneFail 1 1 none) (ats1 2 { active := [0, 1, 3] } [])) (fun u => u.fld (F.ATS_STATUS_STATE 1) == 1) = true ∧
    after (exec (.codewordReplay 1 3 15) (ats1 2 four [])) (fun u => u.fld (cnt32 (R.ATS_FEC_CE 1)) == 3 && u.out.length == 1) = true ∧
    after (exec (.codewordReplay 1 3 16) (ats1 2 four [])) (fun u => u.fld (F.ATS_STATUS_STATE 1) == 1) = true ∧
    after (exec (.atsLinkLost 1) (ats1 2 four [o])) (fun u => u.outst == [] && u.flag (F.ATS_STATUS_LINK_LOST 1)) = true ∧
    after (exec (.peerWindowRequest q .read 1 0 4 []) (ats1 2 four [])) (fun u => u.outst == [o] && u.out.length == 1) = true ∧
    after (exec (.peerWindowRequest q .read 1 0 4 []) (ats1 0 {} [])) (fun u => u.resp.status == .error) = true ∧
    after (exec (.peerWindowRequest q .read 1 0 4 []) (ats1 2 four (List.replicate 256 o))) (fun u => u.outst.length == 256) = true ∧
    after (exec (.peerRequestReceive 1 peer .write 0 4 [1, 2, 3, 4]) (ats1 2 four [])) (fun u => u.num poolBase 4 == 0x04030201) = true ∧
    after (exec (.peerRequestReceive 1 peer .read 0 4 []) ((ats1 2 four []).poke poolBase [9])) (fun u => u.out.map (·.data) == [[9, 0, 0, 0]]) = true ∧
    after (exec (.peerRequestReceive 1 peer .read 0 4 []) ((ats1 2 four []).setReg (R.POOL_BANK_GRANT 0) 0)) (fun u =>
      u.out.map (·.args) == [[1, 1]] && u.fld (cnt32 R.POOL_VIOL_COUNT) == 1) = true ∧
    after (exec (.retrain q 1 0x603) ((ats1 1 {} []).setFld (F.ATS_CTRL_RETRAIN 1) 1)) (fun u => (u.atsPort 1).budget == 0) = true ∧
    after (exec (.peerWindowResponse 1 1 .ok [1, 2, 3, 4]) (ats1 2 four [o, o])) (fun u => u.outst == [o, o]) = true ∧
    after (exec (.peerWindowResponse 1 0 .ok [1, 2, 3, 4]) (ats1 2 four [o])) (fun u => u.resp == ⟨.ok, [1, 2, 3, 4]⟩ && u.outst == []) = true := by
  decide +kernel

/-- MAC 0 is up, its rings are core cluster 0's and hold a descriptor each: TX of 60 bytes at 0x200, RX of 64 at 0x300. -/
def eth0 (l : List (Nat × Nat)) : State :=
  let s := holding (up [40, 147]) ([(R.POOL_BANK_OWN 0, 0), (R.ETH_CTRL 0, 0x81), (R.ETH_TX_CFG 0, 0x41), (R.ETH_TX_DB 0, 1), (R.ETH_RX_CFG 0, 0x41),
    (R.ETH_RX_DB 0, 1), (R.ETH_TX_BASE 0, poolBase + 0x1000), (R.ETH_RX_BASE 0, poolBase + 0x2000)] ++ l)
  (s.poke (poolBase + 0x1000) (toBytes 8 (poolBase + 0x200) ++ toBytes 4 60 ++ toBytes 4 9)).poke (poolBase + 0x2000)
    (toBytes 8 (poolBase + 0x300) ++ toBytes 4 64 ++ toBytes 4 8)

/-- A frame of 60 bytes of type 0x1234 with its FCS. -/
def frame60 : List Byte :=
  let f := List.replicate 12 (0xAA : Byte) ++ [0x12, 0x34, 7] ++ List.replicate 45 0
  f ++ toBytes 4 (crc32 f)

/-- EN, the link, a frame each way, a drop, an error, a sample record, the pulse and MDIO. -/
theorem witness_Ethernet :
    let q := core0 true
    let s := eth0 []
    let rule := eth0 [(R.ETH_RULE_MATCH 0 3, 0x12340000), (R.ETH_RULE_CFG 0 3, 0x80000000), (R.ETH_RULE_ADDR 0 3, poolBase + 0x400),
      (R.ETH_RULE_OWN 0, 0)]
    let p := ethPayload (frame60.take 60)
    s.blockOn 0x28 = true ∧ s.ethUp 0 = true ∧ s.ringReady (.ethTx 0) = true ∧ s.ringReady (.ethRx 0) = true ∧
    poolOpenB s (s.ringReq (.ethTx 0)) false 0x1000 16 = true ∧ poolOpenB s (s.ringReq (.ethRx 0)) true 0x300 60 = true ∧
    s.slotAddr (.ethTx 0) 0 = poolBase + 0x1000 ∧ s.slotAddr (.ethRx 0) 0 = poolBase + 0x2000 ∧
    s.ruleMatch 0 p.1 p.2.1 = none ∧ (rule.ruleMatch 0 p.1 p.2.1).isSome = true ∧
    after (exec (.ethEn q 0 3) (s.setReg (R.ETH_CTRL 0) 0)) (fun u => u.flag (F.ETH_CTRL_EN 0) && u.fld (F.ETH_CTRL_SPEED 0) == 1) = true ∧
    after (exec (.ethLinkUp 0) (s.setReg (R.ETH_CTRL 0) 1)) (fun u => u.flag (F.ETH_CTRL_LINK_UP 0)) = true ∧
    after (exec (.ethLinkDown 0) s) (fun u => !u.flag (F.ETH_CTRL_LINK_UP 0)) = true ∧
    after (exec (.frameTransmit 0) (s.poke (poolBase + 0x200) (frame60.take 60))) (fun u => u.out.map (·.data) == [frame60] &&
      u.lull.offers.map (fun r => (r.status, r.w1, r.w2)) == [(0, 9, 60)]) = true ∧
    after (exec (.frameTransmit 0) (s.poke (poolBase + 0x1008) [59])) (fun u => u.lull.offers.map (·.status) == [1] && u.out == []) = true ∧
    after (exec (.frameReceive 0 frame60) s) (fun u => u.bytes (poolBase + 0x300) 60 == frame60.take 60 &&
      u.lull.offers.map (fun r => (r.status, r.w1, r.w2)) == [(0, 8, 60)]) = true ∧
    after (exec (.frameReceive 0 (frame60.drop 1)) s) (fun u => u.fld (F.ETH_RX_ERR_FCS 0) == 1) = true ∧
    after (exec (.frameReceive 0 frame60) (s.setReg (R.ETH_RX_DB 0) 0)) (fun u => u.fld (F.ETH_RX_ERR_DROP 0) == 1) = true ∧
    after (exec (.frameReceive 0 frame60) rule) (fun u => AMap.get (u.mac 0).counts 3 0 == 1 && u.byte (poolBase + 0x400) == 7) = true := by
  decide +kernel

/-- The pulse with a period and without, and MDIO of MAC 0 and of MAC 1. -/
theorem test_ethernet_pulse_and_mdio :
    let q := core0 true
    let pps (p : Nat) := { eth0 [(R.ETH_PPS_AT 0, 100), (R.ETH_PPS_CFG 0, 2 ^ 31 + p)] with stc := 250 }
    let pulse : State := { pps 0 with ports := { State.reset.ports with eth := [(0, { pps := some 3 })] } }
    after (exec (.ppsPulse 0) (pps 100)) (fun u => u.reg (R.ETH_PPS_AT 0) == 300 && (u.mac 0).pps == some 1000) = true ∧
    after (exec (.ppsPulse 0) (pps 0)) (fun u => (u.mac 0).once) = true ∧
    after (exec (.ppsPulseEnd 0) pulse) (fun u => (u.mac 0).pps == none && u.now == 15) = true ∧
    after (exec (.mdioGo q 0 0xE0001234) (eth0 [])) (fun u => u.flag (F.ETH_MDIO_GO 0) && u.out.map (·.args) == [[1, 2, 0, 0, 0x1234]]) = true ∧
    let rd (f pg : Nat) : State := { fields (eth0 [(R.ETH_MDIO 0, 0x80000000)]) [(F.GPIO_PIN_CFG_FUNC 243, f), (F.GPIO_BANK_CFG_PG 7, pg)] with
      ports := { State.reset.ports with eth := [(0, { mdio := 0x20000000 })] } }
    let did (d : Nat) (s : State) : Bool := after (exec (.mdioDone 5) s) (fun u => !u.flag (F.ETH_MDIO_GO 0) && u.fld (F.ETH_MDIO_DATA 0) == d)
    did 5 (rd 8 1) = true ∧ did 0 (rd 8 0) = true ∧ did 0xFFFF (rd 0 1) = true ∧
    (up [148]).blockOn 0x29 = true := by
  decide +kernel

/-- The ports of the board, their domains on. -/
def board (l : List (Fld × Nat)) : State := fields (up [40]) l

/-- The flash, the I2C and the UART. -/
theorem witness_BoardPorts :
    let q := core0 true
    let s := board []
    let half (scl sda pg : Nat) := board [(F.BMI_CFG_EN 1, 1), (F.BMI_CMD_WLEN 1, 3), (F.BMI_CMD_RLEN 1, 2), (F.BMI_CMD_GO 1, 1),
      (F.GPIO_PIN_CFG_FUNC 226, scl), (F.GPIO_PIN_CFG_FUNC 227, sda), (F.GPIO_BANK_CFG_PG 7, pg)]
    let run := half 5 5 1
    let bmi := fields run [(F.BMI_CMD_GO 1, 0)]
    let uart := board [(F.DBGU_CFG_EN, 1), (F.GPIO_PIN_CFG_FUNC 229, 6), (F.GPIO_BANK_CFG_PG 7, 1)]
    let fifo (s : State) (t r : List Nat) : State := { s with ports := { s.ports with tx := t, rx := r } }
    let full := List.replicate 16 5
    s.blockOn 0x2C = true ∧ s.blockOn 0x2D = true ∧ s.blockOn 0x2E = true ∧ s.uartOpen = true ∧ uart.pinTo 229 6 = true ∧
    after (exec (.xspiGo q 0x80020003) s) (fun u => u.flag F.XSPI_CMD_GO && u.out.map (·.args) == [[3, 0, 0, 0, 2, 0, 0]]) = true ∧
    after (exec (.xspiGo q 0x80020303) s) (fun u => !u.flag F.XSPI_CMD_GO && u.out == []) = true ∧
    after (exec (.xspiDone [7, 8] false) (s.setReg R.XSPI_CMD 0x80020003)) (fun u => !u.flag F.XSPI_CMD_GO && (u.xspiData 256).take 2 == [7, 8]) = true ∧
    after (exec (.xspiDone [7, 8] true) (fields (s.setReg R.XSPI_CMD 0x80020003) [(F.XSPI_CFG_OCTAL, 1)])) (fun u => u.flag F.XSPI_STATUS_TIMEOUT) = true ∧
    after (exec (.xspiDone [] false) (s.setReg R.XSPI_CMD 0xC0020003)) (fun u => !u.flag F.XSPI_CMD_GO) = true ∧
    after (exec (.bmiGo q 1 0x82030050 false) bmi) (fun u => u.flag (F.BMI_CMD_GO 1) && u.out.map (·.args) == [[1, 0x50, 3, 2]]) = true ∧
    after (exec (.bmiGo q 1 0x82030050 false) s) (fun u => !u.flag (F.BMI_CMD_GO 1)) = true ∧
    after (exec (.bmiDone 1 (.stop [7, 8])) run) (fun u => u.fld (F.BMI_STATUS_ACKED 1) == 3 &&
      u.reg (R.BMI_DATA 1 0) == 0x0807) = true ∧
    after (exec (.bmiDone 1 .nackAddr) run) (fun u => u.flag (F.BMI_STATUS_NACK_ADDR 1)) = true ∧
    after (exec (.bmiDone 1 (.nackData 9)) run) (fun u => u.fld (F.BMI_STATUS_ACKED 1) == 3) = true ∧
    after (exec (.bmiDone 1 (.stretch 2)) run) (fun u => u.flag (F.BMI_STATUS_TIMEOUT 1)) = true ∧
    after (exec (.bmiDone 1 (.arbLost 2)) run) (fun u => u.flag (F.BMI_STATUS_ARB_LOST 1)) = true ∧
    after (exec (.bmiDone 1 (.stop [])) (half 5 0 0)) (fun u => u.flag (F.BMI_STATUS_TIMEOUT 1)) = true ∧
    after (exec (.bmiDone 1 (.stop [])) (half 0 5 0)) (fun u => u.flag (F.BMI_STATUS_ARB_LOST 1)) = true ∧
    after (exec (.bmiDone 1 (.stop [])) (half 5 0 1)) (fun u => u.flag (F.BMI_STATUS_NACK_ADDR 1)) = true ∧
    s.flag (F.BMI_CMD_GO 1) = false ∧
    after (exec (.dbguTxWrite q 0x41) s) (fun u => u.ports.tx == [0x41]) = true ∧
    after (exec (.dbguTxWrite q 0x41) (fifo s full [])) (fun u => u.flag F.DBGU_STATUS_TX_OVER) = true ∧
    after (exec (.dbguRxRead q) (fifo s [] [0x142])) (fun u => u.resp == ⟨.ok, [0x42, 3, 0, 0]⟩ && u.ports.rx == []) = true ∧
    after (exec (.dbguRxRead q) s) (fun u => u.resp == ⟨.ok, [0, 0, 0, 0]⟩) = true ∧
    after (exec (.uartByteReceived 0x42 true) uart) (fun u => u.ports.rx == [0x142]) = true ∧
    after (exec (.uartByteReceived 0x42 true) (fifo uart [] full)) (fun u => u.flag F.DBGU_STATUS_RX_OVER) = true ∧
    after (exec .uartByteSent (fifo (fields uart [(F.DBGU_CFG_FLOW, 1), (F.GPIO_PIN_CFG_FUNC 231, 6), (F.GPIO_BANK_CFG_PG 7, 0)]) [0x41] []))
      (fun u => u.ports.tx == []) = true ∧
    after (exec .uartByteSent (fifo uart [0x41] [])) (fun u => u.ports.tx == [] && u.out.map (·.args) == [[0x41]]) = true := by
  decide +kernel

/-! ### Security and boot -/

/-- A key: the generator. -/
def key1 : List Byte := (4 : Byte) :: toBytesBE 66 p521G.1 ++ toBytesBE 66 p521G.2

/-- The s of the signatures over the records below with scalar 1 and per-message number 1 (their r is x of the generator),
computed by hand from R457. -/
def recS : Nat → Nat
  | 1 => 0xC77CB3157CBF62998E05250D2C2EA1A70A05C2725B87682EBEEB37B6546F78047D9B761057F1AD1C83EBC9224FC74A53228136EDEA0DB60F788A55D39E8D8F69F1
  | 2 => 0xC6E94E2EB3D04DCA18490D56D60BB5CD0789580F2EEFB79DBC7D25C1EA2B74DA23EF78D18102EC4DCEE6DFC9FBE750BEE33C7B1EB4B4CB32A54F014F30839F3E5F
  | _ => 0xC6D878EE948DA480947BB04DC8BDF1E3EB2B48B936B6AF83F82B789B570E510FD1BBB2BEFB076F7C5F1ECFE3B44E04ADA4AAC81FBBBF24F13ECDF68EC57BD7FF8F

/-- A record of KIND `kind` for slot 0 that names `key1` twice, signed. -/
def rec1 (kind : Nat) : List Byte :=
  toBytes 4 0x55414453 ++ toBytes 2 kind ++ List.replicate 58 0 ++ key1 ++ List.replicate 3 0 ++ key1 ++ List.replicate 3 0 ++
    toBytesBE 66 p521G.1 ++ toBytesBE 66 (recS kind)

/-- An image whose body is 64 bytes of 0 at 0x1000 of bank 0. -/
def image (hash : List Byte) : List Byte :=
  toBytes 4 0x4D494453 ++ toBytes 4 1 ++ toBytes 8 (poolBase + 0x1000) ++ toBytes 8 (poolBase + 0x1010) ++ toBytes 4 64 ++ toBytes 4 5 ++
    List.replicate 32 0 ++ hash

/-- The hash of that body. -/
def hash0 : List Byte := sha512 (List.replicate 64 0)

/-- Command `op` runs with the argument `b` at the start of bank 0, the controller's; slot 0 holds `key1` when `slot`. -/
def sec1 (op lc : Nat) (b : List Byte) (slot : Bool) : State :=
  let s := holding (up [40, 149]) ([(R.POOL_BANK_OWN 0, 0x1F), (R.OTP_LC, lc)] ++
    if slot then (R.OTP_SLOT_STATE, 1) :: (List.range 16).map (fun w => (R.OTP_SLOT_HASH 0 w, leAt (sha512 key1) (4 * w) 4)) else [])
  { s.poke poolBase b with sec := { s.sec with cmd := some (op, poolBase) } }

/-- The work is done with status `k` and `p` holds. -/
def secDid (o : Result) (k : Nat) (p : State → Bool) : Bool := after o (fun u => u.sec.done == some k && p u)

/-- VERIFY in its ways, REVOKE and the others that end early, and the commands without a record. -/
theorem witness_SecurityCommands :
    let img := image hash0
    let v (b : List Byte) := exec .verify (sec1 1 0 b false)
    let s := sec1 2 1 [] true
    poolOpenB s s.secReq true 0 512 = true ∧ poolOpenB s s.secReq false 0 512 = true ∧ (core0 true).s = true ∧ s.blockOn 0x03 = true ∧
    poolOpenB s s.secReq false 0x1000 64 = true ∧
    secDid (v []) 1 (fun _ => true) = true ∧ secDid (v (img.take 0x18)) 8 (fun _ => true) = true ∧
    secDid (v img) 0 (fun u => u.sec.lastSvn == some 5 && u.sec.count == 1) = true ∧
    secDid (v (image [])) 5 (fun u => u.sec.m == []) = true ∧
    ({ s with sec := { s.sec with identity := some 3 } }.sec.identity = some 3) ∧
    secDid (exec (.revoke none) (sec1 3 1 [] true)) 1 (fun _ => true) = true ∧ (sec1 3 1 [] true).activeSlot = some 0 ∧
    secDid (exec (.provision none) (sec1 4 0 (toBytes 4 0x55414453 ++ toBytes 2 4) false)) 6 (fun _ => true) = true ∧
    secDid (exec (.toField none) (sec1 5 1 [] false)) 0 (fun u => u.lifeCycle == 2 && u.flag F.SEC_STATUS_WIPING) = true ∧
    secDid (exec (.toField (some 0)) (sec1 5 1 [] false)) 0x0D (fun u => u.mem == []) = true ∧
    secDid (exec (.toReturn none) (sec1 6 3 [] true)) 1 (fun _ => true) = true ∧
    secDid (exec (.svnCommit none) (sec1 9 1 [] false)) 8 (fun _ => true) = true ∧
    secDid (exec .verify (sec1 1 4 [] false)) 9 (fun u => u.sec.m == []) = true ∧
    secDid (exec (.toField none) (sec1 5 4 [] false)) 9 (fun u => u.lifeCycle == 4) = true ∧
    (sec1 7 0 [] false).sec.cmd = some (7, poolBase) ∧ keyOk key1 = true ∧ (sec1 4 0 [] false).slotState 0 = 0 ∧
    (sec1 3 1 [] true).slotState 1 = 0 := by
  decide +kernel

/-- SVN_COMMIT, the end of a command and a scrap. -/
theorem test_security_ends :
    let svn (v : Nat) : State := { sec1 9 1 [] false with sec := { cmd := some (9, poolBase), lastSvn := some v } }
    let done : State := { (sec1 1 0 [] false).setFld F.SEC_CMD_BUSY 1 with sec := { cmd := some (1, poolBase), done := some 5 } }
    let s := sec1 0 0 [] false
    secDid (exec (.svnCommit none) (svn 64)) 0 (fun u => u.svnFloor == 64) = true ∧ secDid (exec (.svnCommit none) (svn 0)) 0 (fun _ => true) = true ∧
    after (exec .secCommandEnd done) (fun u => u.fld F.SEC_CMD_RESULT == 5 && !u.flag F.SEC_CMD_BUSY) = true ∧
    after (exec (.scrap (core0 true) 0x5C4A false) s) (fun u => u.sec.scrap) = true ∧
    after (exec (.scrap (core0 true) 0xA3B5 true) { s with sec := { scrap := true } }) (fun u => !u.sec.scrap) = true ∧
    after (exec (.scrap (core0 true) 0xA3B5 false) { s with sec := { scrap := true } }) (fun u => u.lifeCycle == 4) = true := by
  decide +kernel

/-- A signed record of each KIND passes its checks. -/
theorem test_records :
    (sec1 3 1 [] true).recordCheck (rec1 1) 1 = 0 ∧ (sec1 6 3 [] true).recordCheck (rec1 2) 2 = 0 ∧
    (sec1 8 3 [] true).recordCheck (rec1 3) 3 = 0 := by
  decide +kernel

/-- The boot procedure is due in Blank, with what it waits for. -/
def boot0 : State :=
  let s := holding (up [0, 32, 40, 149]) [(R.POOL_BANK_OWN 0, 0x1F), (R.CLK_STATUS, 1)]
  { s with sec := { s.sec with boot := true } }

/-- Two images that fail, one that passes its checks, the scrapped device, tamper and the debug port. -/
theorem witness_BootTamperDebug :
    let img := image hash0
    let h := padTo 512 img
    let scrapped : State := { boot0 with sec := { boot0.sec with bootLc := 4 } }
    let armed := fields boot0 [(F.PWR_TAMPER_CFG_ENABLE, 31)]
    let tap (l : List (Fld × Nat)) : State := { fields boot0 l with sec := { boot0.sec with ir := 8, dr := 3 } }
    let go (l : List (Fld × Nat)) := (tap ([(F.DBG_CMD_GO, 1), (F.DBG_CMD_SIZE, 3)] ++ l)).setAll [(R.DBG_ADDR_LO, poolBase % 2 ^ 32), (R.DBG_ADDR_HI, poolBase / 2 ^ 32)]
    boot0.bootWaits img = false ∧ boot0.bootWaits [] = false ∧ boot0.headerCheck h true = none ∧ boot0.headerCheck [] true = some 1 ∧
    poolOpenB boot0 boot0.secReq true 0x1000 64 = true ∧ cut h 0x40 64 = hash0 ∧ poolBase % 2 ^ 32 % 8 = 0 ∧
    after (exec (.bootProcedure [] []) boot0) (fun u => u.fld F.SEC_BOOT_INFO_A_CODE == 1 && u.fld F.SEC_BOOT_INFO_B_CODE == 1 && !u.sec.boot) = true ∧
    after (exec (.bootProcedure [] []) scrapped) (fun u => !u.sec.boot) = true ∧
    armed.tamperMask 5 = 5 ∧ armed.tamperMask 0 = 0 ∧
    after (exec (.tamperEvent 5) armed) (fun u => u.flag F.SEC_STATUS_WIPING && u.fld (F.PWR_TAMPER_LOG_CAUSE (u.fld F.PWR_TAMPER_LOG_CTL_NEWEST)) == 5) = true ∧
    after (exec (.tamperEvent 4) { armed with held := true, pwr := { noRef := true } }) (fun u => u.flag F.SEC_STATUS_TAMPER && u.sec.tampered) = true ∧
    after (exec (.tamperEvent 4) { armed with held := true }) (fun u => !u.flag F.SEC_STATUS_TAMPER) = true ∧
    after (exec (.tamperConditionLeft 2) { boot0 with sec := { boot0.sec with conds := 5 } }) (fun u => u.sec.conds == 1) = true ∧
    after (exec (.tamperLogClear (core0 true)) (boot0.setReg R.PWR_TAMPER_LOG_CTL 5)) (fun u => u.reg R.PWR_TAMPER_LOG_CTL == 0) = true ∧
    after (exec (.tapIrUpdate 8) boot0) (fun u => u.sec.ir == 8 && u.out.map (·.args) == [[8]]) = true ∧
    (tap []).tapSelect 8 = 8 ∧ (tap [(F.OTP_LC_LC, 15)]).tapSelect 8 = 31 ∧
    after (exec (.dbgReg true 8 5) (tap [])) (fun u => u.reg R.DBG_DATA_LO == 5 && u.out.map (·.args) == [[8, 3]]) = true ∧
    after (exec (.dbgReg true 16 0x0D) (tap [])) (fun u => u.flag F.DBG_CMD_GO && u.fld F.DBG_CMD_SIZE == 3) = true ∧
    after (exec .dbgCmdGo ((go [(F.DBG_CMD_WRITE, 1)]).setReg R.DBG_DATA_LO 7)) (fun u => u.num poolBase 8 == 7 && !u.flag F.DBG_CMD_GO) = true ∧
    after (exec .dbgCmdGo ((go []).poke poolBase [9])) (fun u => u.reg R.DBG_DATA_LO == 9) = true ∧
    after (exec .dbgCmdGo ((go []).setReg R.DBG_ADDR_LO (poolBase % 2 ^ 32 + 4))) (fun u => u.flag F.DBG_STATUS_MISALIGNED) = true := by
  decide +kernel

/-! ### Power, clocks and resets -/

/-- Each domain, clock and reset command, and the queue's enable and broadcast answers. -/
theorem witness_PowerClocksResets :
    let s := fields (up [32, 33, 113]) [(F.PWR_SERVICE_STATE, 1)]
    let q := core0 true
    let st (d v : Nat) := (F.PWR_DOM_STATUS_STATE d, v)
    let on (d v : Nat) := (F.PWR_DOM_CTRL_ON d, v)
    let ramp (s : State) (l : List Nat) : State := { s with pwr := { s.pwr with ramp := l } }
    let wake := [(F.LUL_Q_STATUS_PENDING 3, 1), (F.LUL_Q_CFG_WAKE_EN 3, 1), (F.LUL_Q_CFG_TARGET 3, 0), (F.PWR_WAKE_AUTO_WAKE 0, 1), on 0 0]
    let keyed : State := { s with pwr := { armed := true } }
    let core (l : List (Fld × Nat)) := fields s ([(F.CLK_CORE_FREQ 2, 40), (F.CLK_CORE_EFFECTIVE 2, 40)] ++ l)
    s.switchRefused 0 true = false ∧ s.domState 0 = 0 ∧ s.twilight = false ∧
    after (exec (.domainSwitchWrite q 0 1) (fields s [on 0 0])) (fun u => u.domState 0 == 1 && u.flag (F.PWR_DOM_CTRL_ON 0)) = true ∧
    after (exec (.domainSwitchWrite q 118 0) (fields s [st 118 2, on 118 1])) (fun u => u.domState 118 == 3 && !u.flag (F.PWR_DOM_CTRL_ON 118)) = true ∧
    after (exec (.domainSwitchWrite q 118 1) (fields s [st 118 2, on 118 1])) (fun u => u.domState 118 == 2) = true ∧
    after (exec (.domainSwitchWrite q 41 1) (fields (s.poke (poolBase + 4 * bankSize) [7]) [st 41 0, on 41 0])) (fun u => u.domState 41 == 1 && u.mem == []) = true ∧
    after (exec (.domainWakeComplete 41) (ramp (fields s [st 41 1, on 41 1]) [41])) (fun u => u.domState 41 == 2) = true ∧
    after (exec (.domainWakeComplete 41) (ramp (fields s [st 41 1, on 41 0]) [41])) (fun u => u.domState 41 == 3) = true ∧
    after (exec (.domainSleepComplete 41) (fields s [st 41 3, on 41 1])) (fun u => u.domState 41 == 1) = true ∧
    after (exec (.domainWakeComplete 112) (ramp (fields s [st 112 1, on 112 1]) [112])) (fun u => u.domState 112 == 2) = true ∧
    after (exec (.domainWakeComplete 112) (fields s [st 112 1, on 112 1])) (fun u => u.domState 112 == 1) = true ∧
    after (exec (.domainSleepComplete 112) (fields s [st 112 3, on 112 0])) (fun u => u.domState 112 == 0) = true ∧
    after (exec (.coreFreqWrite q 2 80) (core [])) (fun u => u.fld (F.CLK_CORE_EFFECTIVE 2) == 32 && u.flag (F.CLK_CORE_SWITCHING 2)) = true ∧
    after (exec (.coreFreqWrite q 2 81) (core [])) (fun u => u.fld (F.CLK_CORE_FREQ 2) == 40) = true ∧
    after (exec (.coreClockMove 2) { core [(F.CLK_CORE_FREQ 2, 80), (F.CLK_CORE_SWITCHING 2, 1)] with pwr := { freq := [(2, 80)] } })
      (fun u => u.fld (F.CLK_CORE_EFFECTIVE 2) == 80 && !u.flag (F.CLK_CORE_SWITCHING 2)) = true ∧
    after (exec (.pixClockWrite q 1 (2 ^ 31 + 25000)) s) (fun u => u.fld (F.CLK_PIX_FREQ_KHZ 1) == 25000 && u.flag (F.CLK_PIX_SET 1)) = true ∧
    after (exec (.pixClockWrite q 1 25000) (fields s [(F.HEAD_STATUS_SCANNING 1, 1)])) (fun u => u.reg R.CLK_ERR == 2) = true ∧
    after (exec (.pixRelock 1) (fields s [(F.CLK_PIX_SET 1, 1)])) (fun u => u.flag (F.CLK_PIX_LOCKED 1)) = true ∧
    after (exec (.pllLock 0) s) (fun u => u.fld F.CLK_STATUS_CORE_LOCKED == 255) = true ∧
    after (exec (.warmReset q 0x6B29) s) (fun u => u.pwr.armed) = true ∧
    after (exec .refReturn { s with held := true, pwr := { noRef := true } }) (fun u => !u.pwr.noRef && !u.held) = true ∧
    after (exec (.leaveTwilight q) (up [32])) (fun u => !u.twilight) = true ∧
    after (exec (.tjUpdate 0x50) s) (fun u => u.fld F.SYS_TJ_TJ == 0x50) = true ∧
    after (exec (.porstRise 2) State.reset) (fun u => !u.held && u.fld F.CST_ID_POS == 2 && u.domState 32 == 1 && u.sec.boot) = true ∧
    after (exec (.lullQueueEnable q 3 0x1000040) (s.setReg (R.LUL_Q_CFG 3) 0)) (fun u => u.flag (F.LUL_Q_CFG_ENABLE 3)) = true ∧
    after (exec (.lullQueueEnable q 3 0x40) (s.setReg (R.LUL_Q_CFG 3) 0x1000040)) (fun u => !u.flag (F.LUL_Q_CFG_ENABLE 3)) = true ∧
    after (exec (.bcastAnswer 1 true) { s with cst := { s.cst with go := [1], goStore := true } }) (fun u => u.cst.go == [] &&
      bit (u.reg R.CST_BCAST_STATUS) 5) = true ∧
    (fields s wake).wakeRequest 0 = true ∧
    after (exec (.autoWake 0) (fields s wake)) (fun u => u.domState 0 == 1 && u.pwr.auto == [0]) = true ∧
    after (exec (.autoWake 0) (fields s (wake ++ [st 32 0, on 32 0]))) (fun u => u.domState 32 == 1 && u.domState 0 == 0) = true ∧
    keyed.pwr.armed = true ∧ keyed.pwr.noRef = false ∧ keyed.sec.boot = false ∧ keyed.held = false := by
  decide +kernel

/-- Each refusal of R488, beside the switching that is not refused. -/
theorem witness_RefusedSwitchings :
    let q := core0 true
    let no (d : Fin 150) (v : BitVec 32) (s : State) : Bool := after (exec (.domainSwitchWrite q d v) s) (fun u =>
      u.flag F.PWR_ERR_REFUSED && u.fld F.PWR_ERR_DOMAIN == d)
    let s (l : List (Fld × Nat)) := fields (up [117]) l
    let on (d v : Nat) := (F.PWR_DOM_CTRL_ON d, v)
    no 31 1 (s [on 31 0]) = true ∧ no 32 0 (s [on 32 1, (F.PWR_DOM_STATUS_STATE 3, 3)]) = true ∧
    no 118 0 (s [on 118 1, (F.HEAD_STATUS_SCANNING 5, 1)]) = true ∧ no 117 1 (s [on 117 0]) = true ∧
    no 149 0 (s [on 149 1]) = true ∧ no 113 1 (s [on 113 0, (F.PWR_SERVICE_STATE, 1)]) = false ∧
    after (exec (.domainSwitchWrite q 32 0) (s [on 32 1, (F.PWR_DOM_STATUS_STATE 32, 2)])) (fun u => !u.flag (F.PWR_DOM_CTRL_ON 32)) = true := by
  decide +kernel

/-- The reset state is one in which PORST_N is low, and a command that is not PORST_N rising completes in it. -/
theorem witness_LowKeepsReset :
    State.reset.held = true ∧ State.reset.mem = [] ∧ State.reset.threads = [] ∧ State.reset.rings = [] ∧
    after (Machine.step { State.reset with pending := [.registerWrite secure 0 [1]] }) (fun u => u.held && u.pending == [] && u.regs == []) = true := by
  decide +kernel

end Sys2Proof.Tests
end

section
/-! PROOF. The address of a data access (R243): what bit reversal does to each bit, the offset each mode of a segment
counts, and the checks that offset goes through. -/

namespace Sys2Proof.Machine

/-! ### Bit reversal -/

theorem reverseBits_lt (n v : Nat) : reverseBits n v < 2 ^ n := by
  induction n generalizing v with
  | zero => simp [reverseBits]
  | succ n ih =>
    have hrest := ih (v / 2)
    have htop : v % 2 * 2 ^ n ≤ 1 * 2 ^ n := Nat.mul_le_mul_right _ (by omega)
    rw [reverseBits, pow_succ]
    omega

/-- Bit `i` of the reversed number is bit `n - 1 - i` of the number. -/
theorem testBit_reverseBits (n v i : Nat) :
    (reverseBits n v).testBit i = (decide (i < n) && v.testBit (n - 1 - i)) := by
  induction n generalizing v with
  | zero => simp [reverseBits]
  | succ n ih =>
    rw [reverseBits, Nat.mul_comm, Nat.testBit_two_pow_mul_add _ (reverseBits_lt n _), ih]
    obtain hlow | rfl | hhigh := lt_trichotomy i n
    · have hshift : n - i = n - 1 - i + 1 := by omega
      simp [hlow, Nat.lt_succ_of_lt hlow, hshift, Nat.testBit_succ]
    · simp [Nat.testBit_zero]
    · have habove : (v % 2).testBit (i - n) = false :=
        Nat.testBit_lt_two_pow ((Nat.mod_lt v two_pos).trans_le (Nat.le_self_pow (by omega) 2))
      simp [habove, hhigh.not_gt, hhigh.not_ge]

/-- A number below 2^n with the low bits of `v` in the opposite order is the reversal of `v`'s low bits. -/
theorem reverseBits_mod_eq {n k v : Nat} (hk : k < 2 ^ n) (hrev : ∀ i < n, k.testBit i = v.testBit (n - 1 - i)) :
    reverseBits n (v % 2 ^ n) = k := by
  refine Nat.eq_of_testBit_eq fun i => ?_
  rw [testBit_reverseBits, Nat.testBit_mod_two_pow]
  by_cases hi : i < n
  · have hmirror : n - 1 - i < n := by omega
    simp [hi, hmirror, hrev i hi]
  · have hzero : k.testBit i = false :=
      Nat.testBit_lt_two_pow (hk.trans_le (Nat.pow_le_pow_right (by decide) (by omega)))
    simp [hi, hzero]

@[simp] theorem log2Exact_two_pow (p : Nat) : log2Exact (2 ^ p) = some p := by
  simp [log2Exact, Nat.log2_two_pow]

/-- With powers of two the element number is reversed, and the machine uses no free value. -/
theorem bitRev_two_pow (s : State) {p j k : Nat} {off : Int} (hk : k < 2 ^ (p - j))
    (hrev : ∀ i < p - j, k.testBit i = ((off % ((2 ^ p : Nat) : Int)).toNat / 2 ^ j).testBit (p - j - 1 - i)) :
    s.bitRev (2 ^ p) (2 ^ j) off = (((k * 2 ^ j : Nat) : Int), s) := by
  simp only [State.bitRev, log2Exact_two_pow, reverseBits_mod_eq hk hrev]

/-- The last element of a power-of-two buffer still fits in it. -/
theorem element_le_limit {p j k : Nat} (hfits : 2 ^ j ≤ 2 ^ p) (hk : k < 2 ^ (p - j)) :
    k * 2 ^ j ≤ 2 ^ p - 2 ^ j := by
  have hjp : j ≤ p := (Nat.pow_le_pow_iff_right (by decide)).mp hfits
  have hend : (k + 1) * 2 ^ j ≤ 2 ^ p := calc
    (k + 1) * 2 ^ j ≤ 2 ^ (p - j) * 2 ^ j := Nat.mul_le_mul_right _ hk
    _ = 2 ^ p := by rw [← pow_add, Nat.sub_add_cancel hjp]
  rw [Nat.succ_mul] at hend
  omega

/-! ### The checks of an access -/

/-- The segment lacks a permission that the access needs. -/
def Seg.denies (g : Seg) (r w : Bool) : Bool := (r && !g.r) || (w && !g.w)

/-- The segment itself, or the access size in it, fails the second check. -/
def Seg.broken (g : Seg) (size : Nat) : Bool := decide (g.mode = 3 ∨ 2 ^ 44 < g.b + g.limit ∨ g.limit < size)

/-- The offset that the segment's mode counts, and the machine after it. -/
def State.segOffset (s : State) (g : Seg) (off : Int) (size : Nat) : Int × State :=
  if g.mode = 0 then (off, s) else if g.mode = 1 then (off % (g.limit : Int), s) else s.bitRev g.limit size off

section
variable {s : State} {g : Seg} {off : Int} {size : Nat} {r w : Bool}

theorem segAddr_denied (hd : g.denies r w = true) : s.segAddr g off size r w = (.error (3, wrap 64 off), s) := by
  unfold Seg.denies at hd
  simp only [State.segAddr, if_pos hd, off64]

theorem segAddr_broken (hd : g.denies r w = false) (hb : g.broken size = true) :
    s.segAddr g off size r w = (.error (2, wrap 64 off), s) := by
  unfold Seg.denies at hd
  simp only [State.segAddr, hd, Bool.false_eq_true, if_false, if_pos (of_decide_eq_true hb), off64]

theorem size_le_limit (hb : g.broken size = false) : size ≤ g.limit := by
  have hnot := of_decide_eq_false hb
  omega

/-- Past the first two checks the address depends on the offset of the mode alone. -/
theorem segAddr_checked (hd : g.denies r w = false) (hb : g.broken size = false) {o : Int} {s1 : State}
    (ho : s.segOffset g off size = (o, s1)) :
    s.segAddr g off size r w =
      if o < 0 ∨ (g.limit : Int) - size < o then (.error (2, wrap 64 o), s1)
      else if (g.b + o.toNat) % min size 8 ≠ 0 then (.error (4, g.b + o.toNat), s1) else (.ok (g.b + o.toNat), s1) := by
  have hlim : ((g.limit - size : Nat) : Int) = (g.limit : Int) - size := Nat.cast_sub (size_le_limit hb)
  unfold Seg.denies at hd
  unfold State.segOffset at ho
  simp only [State.segAddr, hd, Bool.false_eq_true, if_false, if_neg (of_decide_eq_false hb), off64, hlim]
  split
  · next h0 => simp only [h0, if_true] at ho; rw [ho]
  · next h1 => simp only [h1, one_ne_zero, if_true, if_false] at ho; rw [ho]
  · next h0 h1 => simp only [if_neg h0, if_neg h1] at ho; rw [ho]

theorem segAddr_outside (hd : g.denies r w = false) (hb : g.broken size = false) {o : Int} {s1 : State}
    (ho : s.segOffset g off size = (o, s1)) (hout : o < 0 ∨ (g.limit : Int) - size < o) :
    s.segAddr g off size r w = (.error (2, wrap 64 o), s1) := by
  rw [segAddr_checked hd hb ho, if_pos hout]

theorem segAddr_inside (hd : g.denies r w = false) (hb : g.broken size = false) {o : Int} {s1 : State}
    (ho : s.segOffset g off size = (o, s1)) (hlow : 0 ≤ o) (hhigh : o ≤ (g.limit : Int) - size) :
    s.segAddr g off size r w =
      if (g.b + o.toNat) % min size 8 ≠ 0 then (.error (4, g.b + o.toNat), s1) else (.ok (g.b + o.toNat), s1) := by
  rw [segAddr_checked hd hb ho, if_neg (by omega)]

/-- A sound segment that is not bit-reversed counts the offset itself, or modulo LIMIT. -/
theorem segOffset_of_ne_two (hb : g.broken size = false) (hm : g.mode ≠ 2) :
    s.segOffset g off size = (if g.mode = 0 then off else off % (g.limit : Int), s) := by
  have hlt : g.mode < 4 := bits_lt _ _ 2
  have h3 : g.mode ≠ 3 := fun h => of_decide_eq_false hb (.inl h)
  unfold State.segOffset
  split
  · rfl
  · next h0 => rw [if_pos (show g.mode = 1 by omega)]

theorem segOffset_bitRev (hm : g.mode = 2) : s.segOffset g off size = s.bitRev g.limit size off := by
  simp [State.segOffset, hm]

/-- A bit-reversed access to a power-of-two buffer is never out of range: only its alignment is left to check. -/
theorem segAddr_bitRev {p j k : Nat} (hd : g.denies r w = false) (hb : g.broken size = false) (hm : g.mode = 2)
    (hp : g.limit = 2 ^ p) (hj : size = 2 ^ j) (hk : k < 2 ^ (p - j))
    (hrev : ∀ i < p - j, k.testBit i = ((off % (g.limit : Int)).toNat / 2 ^ j).testBit (p - j - 1 - i)) :
    s.segAddr g off size r w =
      if (g.b + k * 2 ^ j) % min size 8 ≠ 0 then (.error (4, g.b + k * 2 ^ j), s) else (.ok (g.b + k * 2 ^ j), s) := by
  have ho : s.segOffset g off size = (((k * 2 ^ j : Nat) : Int), s) := by
    rw [hp] at hrev
    rw [segOffset_bitRev hm, hp, hj, bitRev_two_pow s hk hrev]
  have hsize := size_le_limit hb
  have hfits : k * 2 ^ j ≤ g.limit - size := by
    rw [hp, hj] at hsize ⊢
    exact element_le_limit hsize hk
  have hin := segAddr_inside hd hb ho (by omega) (by omega)
  rwa [Int.toNat_natCast] at hin

end

/-- Settles O13, clause by clause from the checks of R243: the permission, the segment, the range of the offset that the
mode counts, the alignment of the address. -/
theorem segmentAddresses : Obligations.SegmentAddresses := by
  unfold Obligations.SegmentAddresses
  intro s g off size r w denied broken _ o
  refine ⟨segAddr_denied, segAddr_broken, ?_, ?_, ?_⟩
  · intro hd hb hm hout
    exact segAddr_outside hd hb (segOffset_of_ne_two hb hm) hout
  · intro hd hb hm hlow hhigh
    exact segAddr_inside hd hb (segOffset_of_ne_two hb hm) hlow hhigh
  · intro p j k hd hb hm hp hj hk hrev
    exact segAddr_bitRev hd hb hm hp hj hk hrev

end Sys2Proof.Machine
end

section
/-! PROOF. A write of CONS_IDX (R380): what the queue's registers read after the coalescer has been stopped and the
interrupt has been deasserted (R387, R388), and what the write command amounts to for a requester that the queue admits. -/

namespace Sys2Proof.Machine

/-! ### One-bit fields, and the queue's state beside its registers -/

/-- A one-bit field that was given a Boolean reads as that Boolean. -/
theorem State.flag_setFld_b2n (s : State) {k lo : Nat} (b : Bool) (h : lo + 1 ≤ 64) :
    (s.setFld ⟨k, lo, 1⟩ (b2n b)).flag ⟨k, lo, 1⟩ = b := by
  rw [State.flag, s.fld_setFld_same ⟨k, lo, 1⟩ _ h]
  cases b <;> rfl

/-- A flag that does not meet the field that was set reads as before. -/
theorem State.flag_setFld_apart (s : State) {f g : Fld} (x : Nat) (hf : f.lo + f.w ≤ 64)
    (h : f.lo + f.w ≤ g.lo ∨ g.lo + g.w ≤ f.lo) : (s.setFld f x).flag g = s.flag g := by
  rw [State.flag, s.fld_setFld_apart x hf h, State.flag]

theorem State.flag_setFld_key (s : State) {f g : Fld} (x : Nat) (h : g.key ≠ f.key) :
    (s.setFld f x).flag g = s.flag g := by
  rw [State.flag, s.fld_setFld_key x h, State.flag]

@[simp] theorem State.fld_setLq (s : State) (q : Nat) (x : LQueue) (g : Fld) : (s.setLq q x).fld g = s.fld g := rfl

/-! ### What R387 and R388 leave in the registers -/

theorem lulStatus_ne_lulAssert (q : Nat) : R.LUL_Q_STATUS q ≠ R.LUL_ASSERT := by
  simp only [R.LUL_Q_STATUS, R.LUL_ASSERT]; omega

theorem lulCons_ne_lulAssert (q : Nat) : R.LUL_Q_CONS q ≠ R.LUL_ASSERT := by
  simp only [R.LUL_Q_CONS, R.LUL_ASSERT]; omega

theorem lulCons_ne_lulStatus (q : Nat) : R.LUL_Q_CONS q ≠ R.LUL_Q_STATUS q := by
  simp only [R.LUL_Q_CONS, R.LUL_Q_STATUS]; omega

/-- PENDING follows ASSERTED and IRQ_EN (R388). -/
theorem State.pending_lqShow (s : State) (q : Nat) :
    (s.lqShow q).flag (F.LUL_Q_STATUS_PENDING q) =
      (s.flag (F.LUL_Q_STATUS_ASSERTED q) && s.flag (F.LUL_Q_CFG_IRQ_EN q)) := by
  rw [State.lqShow, State.flag_setFld_key _ _ (lulStatus_ne_lulAssert q), State.flag_setFld_b2n _ _ (by simp)]

theorem State.asserted_lqShow (s : State) (q : Nat) :
    (s.lqShow q).flag (F.LUL_Q_STATUS_ASSERTED q) = s.flag (F.LUL_Q_STATUS_ASSERTED q) := by
  rw [State.lqShow, State.flag_setFld_key _ _ (lulStatus_ne_lulAssert q),
    State.flag_setFld_apart _ _ (by simp) (.inr (by simp))]

/-- R388 sets PENDING and LUL_ASSERT alone. -/
theorem State.fld_lqShow_apart (s : State) {q : Nat} {g : Fld} (hkey : g.key ≠ R.LUL_ASSERT)
    (happart : g.key ≠ R.LUL_Q_STATUS q ∨ 2 ≤ g.lo) : (s.lqShow q).fld g = s.fld g := by
  rw [State.lqShow, State.fld_setFld_key _ _ hkey]
  obtain hstatus | habove := happart
  · exact State.fld_setFld_key _ _ hstatus
  · exact State.fld_setFld_apart _ _ (by simp) (.inl habove)

theorem State.asserted_clear (s : State) (q : Nat) :
    (s.setFld (F.LUL_Q_STATUS_ASSERTED q) 0).flag (F.LUL_Q_STATUS_ASSERTED q) = false :=
  s.flag_setFld_b2n false (by decide)

theorem State.asserted_lqEmptied (s : State) (q : Nat) :
    (s.lqEmptied q).flag (F.LUL_Q_STATUS_ASSERTED q) = false := by
  rw [State.lqEmptied, State.asserted_lqShow, State.asserted_clear]

theorem State.pending_lqEmptied (s : State) (q : Nat) :
    (s.lqEmptied q).flag (F.LUL_Q_STATUS_PENDING q) = false := by
  rw [State.lqEmptied, State.pending_lqShow, State.asserted_clear, Bool.false_and]

/-- A queue that becomes empty changes RUNNING, PENDING and ASSERTED of its STATUS, and LUL_ASSERT, alone. -/
theorem State.fld_lqEmptied_apart (s : State) {q : Nat} {g : Fld} (hkey : g.key ≠ R.LUL_ASSERT)
    (happart : g.key ≠ R.LUL_Q_STATUS q ∨ 3 ≤ g.lo) : (s.lqEmptied q).fld g = s.fld g := by
  rw [State.lqEmptied, State.fld_lqShow_apart _ hkey (happart.imp_right (by omega)), State.lqStopTimer]
  obtain hstatus | habove := happart
  · rw [State.fld_setFld_key _ _ hstatus, State.fld_setLq, State.fld_setFld_key _ _ hstatus]
  · rw [State.fld_setFld_apart (f := F.LUL_Q_STATUS_ASSERTED q) _ _ (by simp) (.inl (by simp only; omega)),
      State.fld_setLq, State.fld_setFld_apart (f := F.LUL_Q_STATUS_RUNNING q) _ _ (by simp) (.inl habove)]

theorem State.lqEmptied_frame (s : State) (q : Nat) :
    s.lqEmptied q = { s with regs := (s.lqEmptied q).regs, lull := (s.lqEmptied q).lull } := rfl

/-! ### The write of CONS_IDX (R380) -/

/-- The records that the queue would hold with CONS_IDX at `c` are no more than it holds now. -/
def State.lqFits (s : State) (q c : Nat) : Prop :=
  (s.fld (F.LUL_Q_PROD_PROD_IDX q) + 65536 - c) % 65536 ≤
    (s.fld (F.LUL_Q_PROD_PROD_IDX q) + 65536 - s.fld (F.LUL_Q_CONS_CONS_IDX q)) % 65536

section
variable {s : State} {q c : Nat}

/-- An accepted index is stored, and the queue is emptied when the index reaches PROD_IDX. -/
theorem lqConsume_of_fits (h : s.lqFits q c) :
    s.lqConsume q c =
      if c = s.fld (F.LUL_Q_PROD_PROD_IDX q) ∧ s.fld (F.LUL_Q_CONS_CONS_IDX q) ≠ s.fld (F.LUL_Q_PROD_PROD_IDX q) then
        (s.setFld (F.LUL_Q_CONS_CONS_IDX q) c).lqEmptied q
      else s.setFld (F.LUL_Q_CONS_CONS_IDX q) c := if_pos h

theorem lqConsume_of_not_fits (h : ¬ s.lqFits q c) :
    s.lqConsume q c = s.setFld (F.LUL_Q_STATUS_CONS_ERR q) 1 := if_neg h

/-- An accepted write stores the index, whether or not it empties the queue. -/
theorem consIdx_lqConsume (h : s.lqFits q c) :
    (s.lqConsume q c).fld (F.LUL_Q_CONS_CONS_IDX q) = c % 65536 := by
  have hstored : (s.setFld (F.LUL_Q_CONS_CONS_IDX q) c).fld (F.LUL_Q_CONS_CONS_IDX q) = c % 65536 :=
    s.fld_setFld_same (F.LUL_Q_CONS_CONS_IDX q) c (by simp)
  rw [lqConsume_of_fits h]
  split
  · rw [State.fld_lqEmptied_apart _ (lulCons_ne_lulAssert q) (.inl (lulCons_ne_lulStatus q)), hstored]
  · exact hstored

/-- An accepted write leaves CONS_ERR. -/
theorem consErr_lqConsume (h : s.lqFits q c) :
    (s.lqConsume q c).flag (F.LUL_Q_STATUS_CONS_ERR q) = s.flag (F.LUL_Q_STATUS_CONS_ERR q) := by
  have hkept : (s.setFld (F.LUL_Q_CONS_CONS_IDX q) c).flag (F.LUL_Q_STATUS_CONS_ERR q) =
      s.flag (F.LUL_Q_STATUS_CONS_ERR q) := s.flag_setFld_key c (lulCons_ne_lulStatus q).symm
  rw [lqConsume_of_fits h]
  split
  · rw [State.flag, State.fld_lqEmptied_apart _ (lulStatus_ne_lulAssert q) (.inr (by simp))]
    exact hkept
  · exact hkept

/-- An index that reaches PROD_IDX from another one empties the queue. -/
theorem lqConsume_emptied (h : s.lqFits q c) (hc : c = s.fld (F.LUL_Q_PROD_PROD_IDX q))
    (hold : s.fld (F.LUL_Q_CONS_CONS_IDX q) ≠ s.fld (F.LUL_Q_PROD_PROD_IDX q)) :
    s.lqConsume q c = (s.setFld (F.LUL_Q_CONS_CONS_IDX q) c).lqEmptied q := by
  rw [lqConsume_of_fits h, if_pos ⟨hc, hold⟩]

/-- An accepted write changes registers and Lull's own state alone. -/
theorem lqConsume_frame (h : s.lqFits q c) :
    s.lqConsume q c = { s with regs := (s.lqConsume q c).regs, lull := (s.lqConsume q c).lull } := by
  rw [lqConsume_of_fits h]
  split
  · exact State.lqEmptied_frame _ q
  · rfl

end

theorem fullW_lulCons_k (n : Fin 64) (x : Nat) : (fullW (R.LUL_Q_CONS n) x).k = R.LUL_Q_CONS n := by
  rw [fullW_eq (regAt_LUL_Q_CONS n)]

/-- CONS_IDX takes the low half of the word written. -/
theorem newFld_consIdx (n : Fin 64) (v : BitVec 32) (old : Nat) :
    (fullW (R.LUL_Q_CONS n) v.toNat).newFld old (F.LUL_Q_CONS_CONS_IDX n) = v.toNat % 65536 := by
  have hmask : ∀ i < 16, (0xffff).testBit (0 + i) = true ∧ (2 ^ (8 * 4) - 1).testBit (0 + i) = true := by decide
  rw [fullW_eq (regAt_LUL_Q_CONS n), RegW.newFld, RegW.merged_fld_rw old hmask]
  simp [bits]

/-- The registers of Lull have no switched domain (R484). -/
theorem State.blockOn_lul {s : State} (h : s.held = false) : s.blockOn 0x05 = true := by
  simp [State.blockOn, h]

/-- A write to CONS reaches the queue that the register belongs to, where the queue admits the requester. -/
theorem lulWrite_cons {s : State} {q : Req} {n : Fin 64} (v : BitVec 32)
    (h : s.admits q (s.fld (F.LUL_Q_CFG_OWNER n)) (s.flag (F.LUL_Q_CFG_ATTR_S n)) = true) :
    lulWrite s q (fullW (R.LUL_Q_CONS n) v.toNat) = okAcc (s.lqConsume n (v.toNat % 65536)) := by
  have hrow : (fullW (R.LUL_Q_CONS n) v.toNat).row.key = R.LUL_Q_CONS 0 := by rw [fullW_eq (regAt_LUL_Q_CONS n)]
  have hqueue : (R.LUL_Q_CONS n - 0x50000) / 0x20 = n := by simp only [R.LUL_Q_CONS]; omega
  have hrange : R.LUL_Q_CONS n < 0x50800 := by simp only [R.LUL_Q_CONS]; omega
  simp [lulWrite, fullW_lulCons_k, hrow, hqueue, hrange, h, newFld_consIdx]

/-- The command is the write of the queue's CONS_IDX, answered. -/
theorem exec_consIdxWrite {s : State} {q : Req} {n : Fin 64} (v : BitVec 32) (hheld : s.held = false)
    (h : s.admits q (s.fld (F.LUL_Q_CFG_OWNER n)) (s.flag (F.LUL_Q_CFG_ATTR_S n)) = true) :
    exec (.consIdxWrite q n v) s = .next ((s.lqConsume n (v.toNat % 65536)).answer .ok) := by
  have hblock : blockOf (fullW (R.LUL_Q_CONS n) v.toNat).k = 0x05 := by
    rw [fullW_lulCons_k, blockOf]; simp only [R.LUL_Q_CONS]; omega
  change Host.Outcome.next (s.regCmd q (R.LUL_Q_CONS n) v.toNat) = _
  simp [State.regCmd, hheld, State.writeReg_lul q (State.blockOn_lul hheld) hblock, lulWrite_cons v h, okAcc]

/-- Settles O50, by the two outcomes of the check of R380. -/
theorem consumerIndexWrites : Obligations.ConsumerIndexWrites := by
  unfold Obligations.ConsumerIndexWrites
  intro s q n v hheld hadmits p c old fits
  have hexec := exec_consIdxWrite v hheld hadmits
  refine ⟨fun hfits => ⟨_, hexec, ?_, ?_, ?_, ?_⟩, fun hnot => ⟨_, hexec, ?_, ?_, ?_, ?_⟩⟩
  · rw [State.fld_answer, consIdx_lqConsume hfits, Nat.mod_mod]
  · rw [State.flag_answer, consErr_lqConsume hfits]
  · intro hc hold
    rw [State.flag_answer, State.flag_answer, lqConsume_emptied hfits hc hold]
    exact ⟨State.asserted_lqEmptied _ n, State.pending_lqEmptied _ n⟩
  · exact congrArg (State.answer · .ok) (lqConsume_frame hfits)
  · rw [State.flag_answer, lqConsume_of_not_fits hnot]
    exact State.flag_setFld_b2n s true (by decide)
  · rw [State.fld_answer, lqConsume_of_not_fits hnot]
    exact State.fld_setFld_key s _ (lulCons_ne_lulStatus n)
  · rw [lqConsume_of_not_fits hnot]; rfl
  · intro k hk
    rw [State.reg_answer, lqConsume_of_not_fits hnot]
    exact State.reg_setFld_other s _ (List.ne_of_not_mem_cons hk)

end Sys2Proof.Machine
end

section
/-! PROOF. The switchings that PWR refuses (R488): what a domain's move leaves unchanged (a wake's clearing and an isolation
write registers of other blocks alone, whatever work they end there), and what a write of ON amounts to. -/

namespace Sys2Proof.Machine

/-! ### Operations that leave PWR's registers -/

/-- Every register of PWR, and of the blocks below it, reads in `t` as it does in `s`. -/
def KeepsPwr (s t : State) : Prop := ∀ k < 0x30000, t.reg k = s.reg k

section
variable {s t u : State}

theorem KeepsPwr.refl (s : State) : KeepsPwr s s := fun _ _ => rfl

theorem KeepsPwr.trans (h : KeepsPwr s t) (g : KeepsPwr t u) : KeepsPwr s u :=
  fun k hk => (g k hk).trans (h k hk)

theorem KeepsPwr.regs (h : KeepsPwr s t) (hu : u.regs = t.regs) : KeepsPwr s u :=
  fun k hk => (State.reg_of_regs hu k).trans (h k hk)

theorem KeepsPwr.of_regs (h : t.regs = s.regs) : KeepsPwr s t := (KeepsPwr.refl s).regs h

theorem KeepsPwr.setReg (h : KeepsPwr s t) (k v : Nat) (hk : 0x30000 ≤ k) : KeepsPwr s (t.setReg k v) :=
  fun j hj => (State.reg_setReg_other t v (hj.trans_le hk).ne).trans (h j hj)

theorem KeepsPwr.setFld (h : KeepsPwr s t) (f : Fld) (x : Nat) (hf : 0x30000 ≤ f.key) : KeepsPwr s (t.setFld f x) :=
  h.setReg f.key _ hf

theorem KeepsPwr.setTh (h : KeepsPwr s t) (n : Nat) (x : Thread) : KeepsPwr s (t.setTh n x) := h.regs rfl
theorem KeepsPwr.fire (h : KeepsPwr s t) (src : Nat) : KeepsPwr s (t.fire src) := h.regs rfl
theorem KeepsPwr.dropUnit (h : KeepsPwr s t) (n : Nat) : KeepsPwr s (t.dropUnit n) := h.regs rfl
theorem KeepsPwr.setAts (h : KeepsPwr s t) (n : Nat) (x : AtsPort) : KeepsPwr s (t.setAts n x) := h.regs rfl

theorem KeepsPwr.resetRegs (h : KeepsPwr s t) {p : Nat → Bool} (hp : ∀ k < 0x30000, p k = false) :
    KeepsPwr s (t.resetRegs p) := by
  intro k hk
  rw [State.reg_resetRegs, hp k hk]
  exact h k hk

theorem KeepsPwr.ite {c : Prop} [Decidable c] (ht : KeepsPwr s t) (hu : KeepsPwr s u) :
    KeepsPwr s (if c then t else u) := by
  split
  · exact ht
  · exact hu

/-- A step that is taken on a condition. -/
theorem KeepsPwr.when {c : Prop} [Decidable c] (h : KeepsPwr s t) (g : KeepsPwr t u) :
    KeepsPwr s (if c then u else t) := .ite (h.trans g) h

theorem KeepsPwr.foldl {α : Type} {f : State → α → State} (h : KeepsPwr s t) (hf : ∀ z a, KeepsPwr z (f z a))
    (l : List α) : KeepsPwr s (l.foldl f t) := by
  induction l generalizing t with
  | nil => exact h
  | cons a l ih => exact ih (h.trans (hf t a))

end

theorem keepsPwr_blockReset (s : State) {b : Nat} (rings : List Ring) (hb : 3 ≤ b) :
    KeepsPwr s (s.blockReset b rings) := by
  unfold State.blockReset
  refine .foldl (.resetRegs (.refl s) fun k hk => ?_) (fun z r => ?_) rings
  · simp only [blockOf, beq_eq_false_iff_ne]
    omega
  · exact .of_regs rfl

/-! ### Threads: what an answer or a lost core writes -/

theorem thCtrl_above_pwr (t : Nat) : 0x30000 ≤ R.CORE_TH_CTRL t := by simp only [R.CORE_TH_CTRL]; omega

theorem keepsPwr_setThState (s : State) (t x : Nat) : KeepsPwr s (s.setFld (F.CORE_TH_CTRL_STATE t) x) :=
  (KeepsPwr.refl s).setFld _ x (thCtrl_above_pwr t)

theorem keepsPwr_trap (s : State) (t code tval detail epc : Nat) : KeepsPwr s (s.trap t code tval detail epc) := by
  unfold State.trap
  refine .ite (.fire (.setTh (.setFld (keepsPwr_setThState s t 4) _ code (thCtrl_above_pwr t)) t _) _) ?_
  exact .setTh (.refl s) t _

/-! The end of an instruction adds to its effect the thread's next PC, or a trap. -/

theorem keepsPwr_finish_done (t : Nat) {s u : State} (h : KeepsPwr s u) : KeepsPwr s ((KOut.done u).finish t) :=
  .ite h (h.regs rfl)

theorem keepsPwr_finish_jump (t pc : Nat) {s u : State} (h : KeepsPwr s u) : KeepsPwr s ((KOut.jump u pc).finish t) :=
  .ite h (h.regs rfl)

theorem keepsPwr_finish_trap (t code tval detail : Nat) {s u : State} (h : KeepsPwr s u) :
    KeepsPwr s ((KOut.trap u code tval detail).finish t) :=
  .ite h (h.trans (keepsPwr_trap u t _ _ _ _))

theorem keepsPwr_loaded (s : State) (t : Nat) (l : Load) : KeepsPwr s ((s.loaded t l).finish t) := by
  unfold State.loaded
  cases l.dest with
  | gpr rd sg => exact keepsPwr_finish_done t (.of_regs rfl)
  | vec rd => exact keepsPwr_finish_done t (.of_regs rfl)
  | fld rd => exact keepsPwr_finish_done t (.of_regs rfl)
  | pop rd => exact keepsPwr_finish_done t (.of_regs rfl)
  | ret =>
    dsimp only
    split
    · exact keepsPwr_finish_jump t _ (.of_regs rfl)
    · exact keepsPwr_finish_trap t _ _ _ (.refl s)

theorem keepsPwr_loadCheck (s : State) (t : Nat) : KeepsPwr s (s.loadCheck t) := by
  have hload : KeepsPwr s (s.modTh t (fun x => { x with load := none })) := .of_regs rfl
  unfold State.loadCheck
  split
  · exact .refl s
  · refine .ite (.refl s) ?_
    dsimp only
    split
    · exact hload.trans (keepsPwr_loaded _ t _)
    · exact keepsPwr_finish_trap t _ _ _ hload

theorem keepsPwr_stopCheck (s : State) (t : Nat) : KeepsPwr s (s.stopCheck t) := by
  unfold State.stopCheck
  have hstop := (KeepsPwr.refl s).setFld (F.CORE_TH_CTRL_STOP t) 0 (thCtrl_above_pwr t)
  exact .ite (.ite (.setTh (hstop.trans (keepsPwr_setThState _ t 3)) t _) hstop) (.refl s)

theorem keepsPwr_barRelease (s : State) (t : Nat) : KeepsPwr s (s.barRelease t) := by
  unfold State.barRelease
  split
  · split
    · exact .ite (((((keepsPwr_setThState s t 1).setTh t _).setTh t _).setTh t _).setTh t _) (.refl s)
    · exact .refl s
  · exact .refl s

theorem keepsPwr_performed (s : State) (q : Req) : KeepsPwr s (s.performed q) :=
  .ite ((keepsPwr_stopCheck s _).trans (keepsPwr_barRelease _ _)) (.refl s)

theorem keepsPwr_dbgDone (s : State) (write : Bool) (st : Status) (bs : List Byte) :
    KeepsPwr s (s.dbgDone write st bs) := by
  have hgo : KeepsPwr s (s.setFld F.DBG_CMD_GO 0) := (KeepsPwr.refl s).setFld _ 0 (by decide)
  unfold State.dbgDone
  refine .when (.ite ?_ (.setReg (.setReg ?_ R.DBG_DATA_LO _ (by decide)) R.DBG_DATA_HI _ (by decide)))
    (((KeepsPwr.refl _).setReg R.DBG_ADDR_LO _ (by decide)).setReg R.DBG_ADDR_HI _ (by decide))
  all_goals exact .ite hgo (hgo.setFld F.DBG_STATUS_ERR 1 (by decide))

/-- An answer goes to a thread, to the debug port, or to the sender of a command. -/
theorem keepsPwr_deliver (s : State) (o : Outst) (st : Status) (bs : List Byte) : KeepsPwr s (s.deliver o st bs) := by
  unfold State.deliver
  refine .trans ?_ (keepsPwr_performed _ _)
  cases o.waiter with
  | thread t i =>
    dsimp only
    split
    · exact .ite (.of_regs rfl) (.refl s)
    · exact (KeepsPwr.of_regs (s := s) (t := s.loadPiece t i st bs) rfl).trans (keepsPwr_loadCheck _ t)
  | fetch t => exact .of_regs rfl
  | sender => exact .of_regs rfl
  | dbg => exact keepsPwr_dbgDone s _ st bs
  | nobody => exact .refl s

theorem KeepsPwr.failAll {s t : State} (h : KeepsPwr s t) (p : Nat) : KeepsPwr s (t.failAll p) := by
  unfold State.failAll
  refine .foldl ?_ (fun z o => ?_) _
  · exact h.regs rfl
  · exact keepsPwr_deliver z o _ _

theorem KeepsPwr.threadsOff {s t : State} (h : KeepsPwr s t) (l : List Nat) : KeepsPwr s (t.threadsOff l) := by
  refine (KeepsPwr.foldl h (fun z n => ?_) l).regs rfl
  exact .setTh (.setFld (keepsPwr_setThState z n 0) (F.CORE_TH_CTRL_STOP n) 0 (thCtrl_above_pwr n)) n {}

/-! ### Caches, pins and ports -/

theorem keepsPwr_loseHeld (s : State) (d : Dirty) : KeepsPwr s (s.loseHeld d) := .ite (.of_regs rfl) (.of_regs rfl)

theorem keepsPwr_loseCore (s : State) (c : Nat) : KeepsPwr s (s.loseCore c) := by
  unfold State.loseCore
  exact .foldl (.of_regs rfl) keepsPwr_loseHeld _

theorem keepsPwr_loseDirty (s : State) (p : Dirty → Bool) : KeepsPwr s (s.loseDirty p) := by
  unfold State.loseDirty
  refine .foldl (.of_regs rfl) (fun z d => ?_) _
  exact .of_regs rfl

theorem keepsPwr_pinHold (s : State) (p : Nat) : KeepsPwr s (s.pinHold p) := by
  have hkey : 0x30000 ≤ R.GPIO_HOLD (p / 32) := by simp only [R.GPIO_HOLD]; omega
  have hfree : KeepsPwr s (if (s.padShown p).wave then s.skipFree else s) := .ite (.of_regs rfl) (.refl s)
  unfold State.pinHold
  exact .ite (.refl s) (.setFld (hfree.regs rfl) _ 1 hkey)

theorem keepsPwr_pinsHold (s : State) (l : List Nat) : KeepsPwr s (s.pinsHold l) := .foldl (.refl s) keepsPwr_pinHold l

theorem keepsPwr_cxlDown (s : State) (p : Nat) : KeepsPwr s (s.cxlDown p) := by
  have hstatus : 0x30000 ≤ R.CXL_STATUS p := by simp only [R.CXL_STATUS]; omega
  have hcount : 0x30000 ≤ R.CXL_ERR_COUNT p := by simp only [R.CXL_ERR_COUNT]; omega
  have hdown := ((KeepsPwr.refl s).setFld (F.CXL_STATUS_LINK_STATE p) 0 hstatus).setFld
    (F.CXL_STATUS_WIDTH p) 0 hstatus
  unfold State.cxlDown
  exact .failAll (.setFld (.ite (hdown.setFld (F.CXL_STATUS_LINK_LOST p) 1 hstatus) hdown) _ _ hcount) _

/-! ### The group: a peer that is lost -/

theorem keepsPwr_barResets (s : State) : KeepsPwr s s.barResets := by
  unfold State.barResets
  refine .foldl (.refl s) (fun z n => ?_) _
  exact .ite (.of_regs rfl) (.refl z)

theorem keepsPwr_goAnswer (s : State) (p : Nat) (nack : Bool) : KeepsPwr s (s.goAnswer p nack) := by
  have hnack : KeepsPwr s (if nack && s.cst.goStore then s.orReg R.CST_BCAST_STATUS (2 ^ (4 + p)) else s) :=
    .ite ((KeepsPwr.refl s).setReg _ _ (by decide)) (.refl s)
  unfold State.goAnswer
  exact .ite (.ite (.setFld (hnack.regs rfl) _ 0 (by decide)) (hnack.regs rfl)) (.refl s)

theorem keepsPwr_alignedEvent (s : State) (was : Bool) : KeepsPwr s (s.alignedEvent was) := .ite (.of_regs rfl) (.refl s)

/-- A change of LIVE writes CST_GROUP_STATUS, CST_BCAST_STATUS and CST_BCAST_CMD. -/
theorem keepsPwr_setLive_none (s : State) (m : Nat) : KeepsPwr s (s.setLive m none) := by
  have hvotes (z : State) : KeepsPwr z z.voteCheck := .of_regs rfl
  have hlive := (KeepsPwr.refl s).setFld F.CST_GROUP_STATUS_LIVE m (by decide)
  unfold State.setLive
  refine .ite (.refl s) (.trans ?_ (keepsPwr_alignedEvent _ _))
  refine .trans (.setFld ?_ F.CST_GROUP_STATUS_STATE _ (by decide)) (hvotes _)
  refine .foldl (.trans (.fire ?_ _) (keepsPwr_barResets _)) (fun z p => ?_) _
  · refine .when (.setFld (hlive.regs rfl) F.CST_GROUP_STATUS_LEADER _ (by decide)) ?_
    exact ((KeepsPwr.refl _).setFld F.CST_GROUP_STATUS_OFFSET 0 (by decide)).setFld
      F.CST_GROUP_STATUS_TIME_ALIGNED 0 (by decide)
  · exact keepsPwr_goAnswer z p true

theorem keepsPwr_atsDown (s : State) (n : Nat) : KeepsPwr s (s.atsDown n) := by
  have hstatus : 0x30000 ≤ R.ATS_STATUS n := by simp only [R.ATS_STATUS]; omega
  have hctrl : 0x30000 ≤ R.ATS_CTRL n := by simp only [R.ATS_CTRL]; omega
  have hdown := (((KeepsPwr.refl s).setFld (F.ATS_STATUS_STATE n) 0 hstatus).setFld
    (F.ATS_STATUS_ACTIVE n) 0 hstatus).setFld (F.ATS_CTRL_RETRAIN n) 0 hctrl
  unfold State.atsDown
  exact .when (.failAll (hdown.setAts n {}) n) (.ite (keepsPwr_setLive_none _ _) (.refl _))

/-! ### The blocks of the domains -/

theorem keepsPwr_composerReset (s : State) : KeepsPwr s s.composerReset := by
  have hblock := keepsPwr_blockReset s (b := 0x0C) ((List.range 6).map .wb) (by decide)
  unfold State.composerReset
  refine .foldl ?_ (fun z n => ?_) _
  · exact hblock.regs rfl
  · exact .of_regs rfl

theorem keepsPwr_gustReset (s : State) (g : Nat) : KeepsPwr s (s.gustReset g) := by
  have hgroup : ∀ k < 0x30000,
      (decide (R.GST_GROUP_OWN g < k) && decide (k < R.GST_GROUP_OWN g + 0x400)) = false := by
    intro k hk
    have hown : ¬ R.GST_GROUP_OWN g < k := by simp only [R.GST_GROUP_OWN]; omega
    simp [hown]
  exact ((KeepsPwr.refl s).resetRegs hgroup).regs rfl

/-- The blocks that R487 stops lie above PWR, and so do the pins that they drove. -/
theorem keepsPwr_isolate (s : State) (d : Nat) : KeepsPwr s (s.isolate d) := by
  unfold State.isolate
  refine (keepsPwr_pinsHold s (s.holdOf d)).trans ?_
  generalize s.pinsHold (s.holdOf d) = z
  have hblock (b : Nat) (rings : List Ring) (hb : 3 ≤ b) := keepsPwr_blockReset z rings hb
  refine .ite ((keepsPwr_loseCore z d).threadsOff _) ?_
  refine .ite (keepsPwr_loseDirty z _) ?_
  refine .ite (.refl z) ?_
  refine .ite ((hblock (0x10 + (d - 112)) [] (by omega)).regs rfl) ?_
  refine .ite (keepsPwr_composerReset z) ?_
  refine .ite ((hblock 0x0B ((List.range 4).map .sql) (by decide)).regs rfl) ?_
  refine .ite (.ite ((hblock 0x19 ((List.range 4).map .hse) (by decide)).regs rfl) (.refl z)) ?_
  refine .ite (((hblock 0x18 ((List.range 16).map .gal) (by decide)).dropUnit 6).regs rfl) ?_
  refine .ite (keepsPwr_gustReset z _) ?_
  refine .ite ((keepsPwr_cxlDown z _).trans (keepsPwr_blockReset _ _ (by omega))) ?_
  refine .ite (.setAts ((keepsPwr_atsDown z _).trans (keepsPwr_blockReset _ _ (by omega))) _ _) ?_
  exact .ite ((hblock (0x28 + (d - 147)) [.ethTx (d - 147), .ethRx (d - 147)] (by omega)).regs rfl) (.refl z)

/-- A wake clears memory, and of the registers WIPING alone. -/
theorem keepsPwr_wakeClear (s : State) (d : Nat) : KeepsPwr s (s.wakeClear d) := by
  unfold State.wakeClear
  refine .ite (.of_regs rfl) (.ite (.of_regs rfl) (.ite ?_ (.refl s)))
  exact .setFld (.of_regs rfl) _ 0 (by decide)

/-! ### A domain's move, and the table of R488 -/

/-- Of PWR's registers, a move of domain `d` changes its STATUS alone. -/
theorem State.reg_domMove_other (s : State) {d k : Nat} (hpwr : k < 0x30000) (hk : k ≠ R.PWR_DOM_STATUS d) :
    (s.domMove d).reg k = s.reg k := by
  unfold State.domMove
  dsimp only
  split
  · exact (State.reg_setFld_other _ _ hk).trans (keepsPwr_wakeClear s d k hpwr)
  · split
    · exact (State.reg_setFld_other _ _ hk).trans (keepsPwr_isolate s d k hpwr)
    · rfl

/-- The table of R488, row by row. -/
theorem State.switchRefused_iff (s : State) (d : Fin 150) (on : Bool) :
    s.switchRefused d on = true ↔
      (d.val < 32 ∧ on = true ∧ s.domOn (32 + d / 4) = false) ∨
      (32 ≤ d.val ∧ d.val < 40 ∧ on = false ∧ ∃ k < 4, s.domState (4 * (d - 32) + k) ≠ 0) ∨
      (d.val = 118 ∧ on = false ∧ ∃ n < 6, s.scanning n = true) ∨
      (113 ≤ d.val ∧ d.val ≤ 117 ∧ on = true ∧ s.twilight = true) ∨ (d.val = 149 ∧ on = false) := by
  unfold State.switchRefused
  split_ifs with hcore hl2 hcomposer hhead hsecure
  · simp [hcore, show ¬ 32 ≤ d.val by omega, show ¬ d.val = 118 by omega, show ¬ 113 ≤ d.val by omega,
      show ¬ d.val = 149 by omega]
  · simp [hcore, hl2, show 32 ≤ d.val by omega, show ¬ d.val = 118 by omega, show ¬ 113 ≤ d.val by omega,
      show ¬ d.val = 149 by omega]
  · simp [hcomposer]
  · simp [hhead, hcore, hl2, hcomposer, show ¬ d.val = 149 by omega]
  · simp [hsecure]
  · refine iff_of_false not_false ?_
    rintro (⟨h, -⟩ | ⟨-, h, -⟩ | ⟨h, -⟩ | ⟨h, h', -⟩ | ⟨h, -⟩) <;> omega

/-! ### The write of ON -/

/-- A refused switching sets REFUSED. -/
theorem State.refused_flag (s : State) (d : Nat) :
    ((s.setFld F.PWR_ERR_REFUSED 1).setFld F.PWR_ERR_DOMAIN d).flag F.PWR_ERR_REFUSED = true := by
  rw [State.flag_setFld_apart _ _ (by decide) (.inl (by decide))]
  exact State.flag_setFld_b2n s true (by decide)

/-- DOMAIN holds the number of any domain. -/
theorem State.refused_domain (s : State) (d : Fin 150) :
    ((s.setFld F.PWR_ERR_REFUSED 1).setFld F.PWR_ERR_DOMAIN d).fld F.PWR_ERR_DOMAIN = d :=
  (State.fld_setFld_same _ F.PWR_ERR_DOMAIN _ (by decide)).trans (Nat.mod_eq_of_lt (d.isLt.trans (by decide)))

/-- Two fields of one register and the answer are all that the record of a refusal changes. -/
theorem onlyRegs_setFld_setFld (s : State) (f g : Fld) (x y : Nat) (hkey : g.key = f.key) (st : Status) :
    onlyRegs s (((s.setFld f x).setFld g y).answer st) [f.key] := by
  refine ⟨rfl, fun k hk => ?_⟩
  have hk' : k ≠ f.key := List.ne_of_not_mem_cons hk
  rw [State.reg_answer, State.reg_setFld_other _ _ (hkey ▸ hk'), State.reg_setFld_other _ _ hk']

/-- A write of PWR_DOM_CTRL_d reaches the domain. -/
theorem pwrWrite_domCtrl (s : State) {q : Req} (d : Fin 150) (v : BitVec 32) (hs : q.s = true) :
    pwrWrite s q (fullW (R.PWR_DOM_CTRL d) v.toNat) = okAcc (s.domainWrite d (v.toNat.testBit 0)) := by
  have hlog : ¬ 0x2F800 ≤ R.PWR_DOM_CTRL d := by simp only [R.PWR_DOM_CTRL]; omega
  have hdomain : (R.PWR_DOM_CTRL d - R.PWR_DOM_CTRL 0) / 4 = d := by simp only [R.PWR_DOM_CTRL]; omega
  have hbit : bit v.toNat 0 = v.toNat.testBit 0 := by
    rw [bit, pow_zero, Nat.div_one, Nat.testBit_zero, beq_eq_decide]
  have hmask : bit (2 ^ (8 * 4) - 1) 0 = true := by decide
  rw [fullW_eq (regAt_PWR_DOM_CTRL d), pwrWrite]
  simp only [hs, hlog, hdomain, hbit, hmask, not_true_eq_false, if_true, if_false]

/-- The command is the write of the domain's ON, answered as performed (it is no refusal under R14). -/
theorem exec_domainSwitchWrite {s : State} {q : Req} (d : Fin 150) (v : BitVec 32) (hheld : s.held = false)
    (hs : q.s = true) :
    exec (.domainSwitchWrite q d v) s = .next ((s.domainWrite d (v.toNat.testBit 0)).answer .ok) := by
  have hblock : blockOf (fullW (R.PWR_DOM_CTRL d) v.toNat).k = 0x02 := by
    rw [fullW_eq (regAt_PWR_DOM_CTRL d), blockOf]; simp only [R.PWR_DOM_CTRL]; omega
  have hon : s.blockOn 0x02 = true := by simp [State.blockOn, hheld]
  change Host.Outcome.next (s.regCmd q (R.PWR_DOM_CTRL d) v.toNat) = _
  simp [State.regCmd, hheld, State.writeReg_pwr q hon hblock, pwrWrite_domCtrl s d v hs, okAcc]

section
variable {s : State} {d : Fin 150} {on : Bool} (hchange : on ≠ s.flag (F.PWR_DOM_CTRL_ON d))
include hchange

theorem domainWrite_of_refused (h : s.switchRefused d on = true) :
    s.domainWrite d on = (s.setFld F.PWR_ERR_REFUSED 1).setFld F.PWR_ERR_DOMAIN d := by
  simp [State.domainWrite, hchange.symm, h]

theorem domainWrite_of_not_refused (h : ¬ s.switchRefused d on = true) :
    s.domainWrite d on = (s.setFld (F.PWR_DOM_CTRL_ON d) (b2n on)).domMove d := by
  simp [State.domainWrite, hchange.symm, h]

/-- ON of a domain that is not refused reads as written. -/
theorem on_domainWrite (h : ¬ s.switchRefused d on = true) :
    (s.domainWrite d on).flag (F.PWR_DOM_CTRL_ON d) = on := by
  have hpwr : R.PWR_DOM_CTRL d < 0x30000 := by simp only [R.PWR_DOM_CTRL]; omega
  have hstatus : R.PWR_DOM_CTRL d ≠ R.PWR_DOM_STATUS d := by simp only [R.PWR_DOM_CTRL, R.PWR_DOM_STATUS]; omega
  rw [domainWrite_of_not_refused hchange h, State.flag, State.fld, State.reg_domMove_other _ hpwr hstatus]
  exact State.flag_setFld_b2n s on (by decide)

theorem pwrErr_domainWrite (h : ¬ s.switchRefused d on = true) :
    (s.domainWrite d on).reg R.PWR_ERR = s.reg R.PWR_ERR := by
  have hstatus : R.PWR_ERR ≠ R.PWR_DOM_STATUS d := by simp only [R.PWR_ERR, R.PWR_DOM_STATUS]; omega
  have hctrl : R.PWR_ERR ≠ R.PWR_DOM_CTRL d := by simp only [R.PWR_ERR, R.PWR_DOM_CTRL]; omega
  rw [domainWrite_of_not_refused hchange h, State.reg_domMove_other _ (by decide) hstatus,
    State.reg_setFld_other _ _ hctrl]

end

/-- Settles O60: a change of ON that the table of R488 names writes PWR_ERR alone; any other moves the domain, which
leaves PWR_ERR. -/
theorem refusedSwitchings : Obligations.RefusedSwitchings := by
  unfold Obligations.RefusedSwitchings
  intro s q d v hheld hs want refused hchange
  have hexec := exec_domainSwitchWrite d v hheld hs
  have htable : s.switchRefused d want = true ↔ refused := State.switchRefused_iff s d want
  refine ⟨fun hrefused => ⟨_, hexec, ?_⟩, fun hnot => ⟨_, hexec, ?_⟩⟩
  · rw [domainWrite_of_refused hchange (htable.mpr hrefused), State.flag_answer, State.fld_answer]
    exact ⟨State.refused_flag s d, State.refused_domain s d, rfl,
      onlyRegs_setFld_setFld s F.PWR_ERR_REFUSED F.PWR_ERR_DOMAIN 1 d rfl .ok⟩
  · have hallowed := mt htable.mp hnot
    rw [State.flag_answer, State.reg_answer]
    exact ⟨on_domainWrite hchange hallowed, pwrErr_domainWrite hchange hallowed⟩

end Sys2Proof.Machine
end
